-- ==== Sys2Proof/Word.lean ====
section
/-! DEFINITION. The words of the part: bytes, store words, identities, channel sets (R185). -/

namespace Sys2Proof

/-- One byte of a line or of the request port (R185). -/
abbrev Byte := BitVec 8

/-- The data bits of one store word (R175). -/
abbrev Word := BitVec 32

/-- A unique ID: 64 bits, compared unsigned (00 Conventions). -/
abbrev Uid := BitVec 64

/-- A channel set: channel `k` is bit `k` (R185). -/
abbrev ChannelSet := BitVec 64

/-- A set of degrees: degree `d` is bit `d` (R185). -/
abbrev DegreeSet := BitVec 8

/-- A mask of indication positions: position `i` is bit `i` (R185). -/
abbrev Mask := BitVec 16

/-- A trace word on its line: sync, unique ID, number, degree, flags, CRC (R34, R187). -/
abbrev TraceWord := BitVec 104

end Sys2Proof
end

