-- ==== Sys2Proof/Machine/CommandBytes.lean ====
section
/-! DEFINITION. The command bytes of the local request port (R188). -/

namespace Sys2Proof.Machine

/-- READ RESPONSE: its byte begins a read transaction (R159). -/
def cmdReadResponse : Byte := 1
/-- READ STATUS. -/
def cmdReadStatus : Byte := 2
/-- READ DIRECTORY ENTRY. -/
def cmdReadDirectoryEntry : Byte := 3
/-- READ REPORT. -/
def cmdReadReport : Byte := 4
/-- READ PEER INTENT. -/
def cmdReadPeerIntent : Byte := 5
/-- READ DEGREE. -/
def cmdReadDegree : Byte := 6
/-- WRITE NODE REPORT. -/
def cmdWriteNodeReport : Byte := 16
/-- WRITE SPAN REPORT. -/
def cmdWriteSpanReport : Byte := 17
/-- CLEAR LATCH. -/
def cmdClearLatch : Byte := 18
/-- SUBMIT. -/
def cmdSubmit : Byte := 32
/-- CANCEL. -/
def cmdCancel : Byte := 33
/-- RELEASE SLOT. -/
def cmdReleaseSlot : Byte := 34
/-- READ SLOT. -/
def cmdReadSlot : Byte := 35
/-- COMMIT INTENT. -/
def cmdCommitIntent : Byte := 48
/-- WITHDRAW. -/
def cmdWithdraw : Byte := 49
/-- FORCE EPOCH. -/
def cmdForceEpoch : Byte := 64
/-- START. -/
def cmdStart : Byte := 65
/-- RESTART. -/
def cmdRestart : Byte := 66
/-- MUTE. -/
def cmdMute : Byte := 67
/-- CLEAR MUTE. -/
def cmdClearMute : Byte := 68
/-- SET ENABLES. -/
def cmdSetEnables : Byte := 80
/-- CLEAR INDICATIONS. -/
def cmdClearIndications : Byte := 81
/-- READ STORE WORD. -/
def cmdReadStoreWord : Byte := 96
/-- WRITE STORE WORD. -/
def cmdWriteStoreWord : Byte := 97
/-- The value that names no command (R162, R188). -/
def cmdNone : Byte := 255

/-- Every byte that begins a transaction of its own kind; any other value names no command (R188). -/
def namedBytes : List Byte :=
  [cmdReadResponse, cmdReadStatus, cmdReadDirectoryEntry, cmdReadReport, cmdReadPeerIntent, cmdReadDegree,
   cmdWriteNodeReport, cmdWriteSpanReport, cmdClearLatch, cmdSubmit, cmdCancel, cmdReleaseSlot, cmdReadSlot,
   cmdCommitIntent, cmdWithdraw, cmdForceEpoch, cmdStart, cmdRestart, cmdMute, cmdClearMute, cmdSetEnables,
   cmdClearIndications, cmdReadStoreWord, cmdWriteStoreWord]

end Sys2Proof.Machine
end

