-- ==== Sys2Proof/Machine/Bytes.lean ====
section
/-! DEFINITION. Byte order, bit order and cyclic redundancy checks (00 Conventions, R3, R35, R185). -/

namespace Sys2Proof.Machine

/-- `k` bytes of `n`, most significant first (R185). -/
def toBytes : Nat → Nat → List Byte
  | 0, _ => []
  | k + 1, n => BitVec.ofNat 8 (n / 256 ^ k) :: toBytes k n

/-- The number that bytes spell, most significant first (R185). -/
def ofBytes (bytes : List Byte) : Nat := bytes.foldl (fun acc b => acc * 256 + b.toNat) 0

/-- One byte of a number that is sent in one byte. -/
def byte (n : Nat) : Byte := BitVec.ofNat 8 n

/-- `n` bytes from offset `i`. -/
def slice (bytes : List Byte) (i n : Nat) : List Byte := (bytes.drop i).take n

/-- The number in `n` bytes from offset `i` (R185). -/
def field (bytes : List Byte) (i n : Nat) : Nat := ofBytes (slice bytes i n)

/-- The bits of a byte, most significant first (00 Conventions). -/
def byteBits (b : Byte) : List Bool := [7, 6, 5, 4, 3, 2, 1, 0].map b.getLsbD

/-- The bits of a byte string in line order. -/
def bitsOf (bytes : List Byte) : List Bool := bytes.flatMap byteBits

/-- The byte that eight bits spell, most significant first. -/
def byteOf (a b c d e f g h : Bool) : Byte :=
  BitVec.ofNat 8 ([a, b, c, d, e, f, g, h].foldl (fun acc x => acc * 2 + x.toNat) 0)

/-- The whole bytes of a bit string; a partial byte at its end is discarded. -/
def bytesOf : List Bool → List Byte
  | a :: b :: c :: d :: e :: f :: g :: h :: rest => byteOf a b c d e f g h :: bytesOf rest
  | _ => []

/-- One bit into a CRC register of `w` bits with polynomial `poly` (leading term left out). -/
def crcBit {w : Nat} (poly : BitVec w) (reg : BitVec w) (bit : Bool) : BitVec w :=
  if reg.msb != bit then (reg <<< 1) ^^^ poly else reg <<< 1

/-- The CRC of an SC frame (R3): x^16 + x^12 + x^5 + 1, preset to all ones, not inverted. -/
def crc16 (bytes : List Byte) : BitVec 16 := (bitsOf bytes).foldl (crcBit 0x1021) 0xFFFF

/-- The CRC of a trace word over bits in line order (R35): x^8 + x^2 + x + 1, preset to all ones, not inverted. -/
def crc8 (bits : List Bool) : BitVec 8 := bits.foldl (crcBit 0x07) 0xFF

/-- The bits of a bit vector, most significant first. -/
def bitsMsb {w : Nat} (x : BitVec w) : List Bool := (List.range w).map x.getMsbD

end Sys2Proof.Machine
end

