-- ==== Sys2Proof/Machine/Lines.lean ====
section
/-! DEFINITION. What the pins carry: Manchester bits on the SC and trace lines (R1, R34), the clocked bits of the request port (R159, R183). -/

namespace Sys2Proof.Machine

/-- The levels of a bit, one for each half of its bit period, true high: a 1 falls at mid-bit, a 0 rises (R1, R34). -/
def bitLevels (b : Bool) : List Bool := [b, !b]

/-- Bits as a line carries them, two levels a bit (R1): between two equal bits the line moves at the bit boundary of itself. -/
def manchester (bits : List Bool) : List Bool := bits.flatMap bitLevels

/-- The bits that levels carry, up to the first bit period without a mid-bit transition, a code violation (R1, R4, R37). -/
def manchesterBits : List Bool → List Bool
  | a :: b :: rest => if a = b then [] else a :: manchesterBits rest
  | _ => []

/-- The trace word that the first `104` bits spell, first bit most significant (R34); none when fewer were decoded (R37). -/
def wordOfBits (bits : List Bool) : Option TraceWord :=
  if 104 ≤ bits.length then some (BitVec.ofNat 104 ((bits.take 104).foldl (fun n b => 2 * n + b.toNat) 0)) else none

/-- The word heard in 104 bit periods of a trace line, none when one of them is a code violation (R37). -/
def heardWord (levels : List Bool) : Option TraceWord := wordOfBits (manchesterBits levels)

/-- The levels of chip select, clock and data-in at one moment (R183). -/
structure SpiLevels where
  cs  : Bool
  sck : Bool
  sdi : Bool
  deriving DecidableEq, Repr

/-- The bits of one transaction (R159, SPI mode 0): data-in is sampled on each rising edge of the clock while chip select is low, and
the transaction ends where chip select is deasserted. `sck` is the level of the clock before the first moment. -/
def sampledBits (sck : Bool) : List SpiLevels → List Bool
  | [] => []
  | x :: rest =>
    if x.cs then []
    else if !sck && x.sck then x.sdi :: sampledBits x.sck rest else sampledBits x.sck rest

/-- The bits of the transaction that the pins carry from the assertion of chip select; the clock idles low (R159). -/
def transactionBits (pins : List SpiLevels) : List Bool := sampledBits false pins

/-- The level of data-out at each moment of a transaction that sends `out` (R159): the first bit is valid from the assertion of chip
select, and data-out moves on at each falling edge of the clock. -/
def dataOutLevels (sck : Bool) (out : List Bool) : List SpiLevels → List Bool
  | [] => []
  | x :: rest =>
    if x.cs then []
    else
      let left := if sck && !x.sck then out.tail else out
      left.headD false :: dataOutLevels x.sck left rest

end Sys2Proof.Machine
end

