-- ==== Sys2Proof/Syntax.lean ====
section
/-! DEFINITION. The commands and events of the part: one constructor per row of spec/opcode_table.json. -/

namespace Sys2Proof

/-- What the word receiver of a degree has heard in HUNT (R37): the levels of its receive line TRRX (R183), two for each bit period that it
compared, the latest last. -/
structure HuntHeard where
  degree : Nat
  levels : List Bool
  deriving DecidableEq, Repr

/-- A command or event of the part. `rest` is what an LRP transaction carries after its command byte: the payload length and
the payload as clocked, whole bytes (R159, R160). `strap` is the level of NUM2 to NUM0 "read at that moment" (R26). -/
inductive Instr where
  /-- R184: RESET held low, or power-on. -/
  | deviceReset
  /-- R177, R184: the release of RESET; the load begins. -/
  | resetRelease
  /-- R179: the 20 ms load ends. -/
  | loadEnd
  /-- R17: one sample of the MUTE pin and of LOL0 to LOL7 (`lol` bit d is pin LOLd; true and 1 are high, R183). -/
  | pinSample (mute : Bool) (lol : DegreeSet)
  /-- R1, R7: carrier onset on the SC receive line. -/
  | frameStart
  /-- R1, R11: carrier end on the SC receive line. -/
  | carrierEnd
  /-- R1, R4, R5: decoding of the episode ends. `levels` are the levels of SCRX (R183) from carrier onset on, two for each bit period, true
  high; what stands after the end of decoding may be left in, it is ignored. -/
  | episodeEnd (levels : List Bool)
  /-- R7: the dark timer expires. -/
  | darkTimerExpiry
  /-- R10: the SCT takes a frame into service. -/
  | takeIntoService
  /-- R11: the quiet gap has passed. -/
  | quietGapExpiry
  /-- R12: the last bit of the frame is sent. -/
  | sendEnd
  /-- R12: the echo check closes. -/
  | echoCheckClose
  /-- R20: the DIR takes the oldest frame of the receive queue. -/
  | takeReceivedFrame (strap : BitVec 3)
  /-- R22: the lifetime of a peer's directory entry reaches zero. -/
  | peerLifetimeExpiry (number : Nat)
  /-- R27: the claim-round timer expires. -/
  | claimRoundTimerExpiry
  /-- R29: the no-number timer expires. -/
  | noNumberTimerExpiry (strap : BitVec 3)
  /-- R36: a trace word begins on a degree. -/
  | traceWordSend (degree : Nat)
  /-- R37: the sync pattern matches in HUNT, at the end of what was heard. -/
  | traceSyncMatch (heard : HuntHeard)
  /-- R34, R37: a trace word is judged. `levels` are the levels of TRRX (R183) over the bit periods of the word, up to its end or a code
  violation: in LOCKED all 104, its sync pattern first, and after a match in HUNT the 88 that follow. -/
  | traceWordJudgement (degree : Nat) (levels : List Bool)
  /-- R37: the hunt timer of a degree expires. -/
  | huntTimerExpiry (degree : Nat)
  /-- R55: the qualifier timer of a degree expires. -/
  | qualifierTimerExpiry (degree : Nat)
  /-- R67: the hold-down timer expires. -/
  | holdDownExpiry
  /-- R68: the refresh timer of the own report expires. -/
  | refreshTimerExpiry
  /-- R86: the epoch timer expires. -/
  | epochTimerExpiry
  /-- R83: the lifetime of a staging peer-intent entry reaches zero. -/
  | peerIntentLifetimeExpiry (place : Nat)
  /-- R134: the PEN settles the best entry of the frontier. -/
  | settlement
  /-- R149: the window timer of a slot's intent expires. -/
  | windowTimerExpiry (slot : Nat)
  /-- R150: the refresh timer of a slot's intent expires. -/
  | intentRefreshExpiry (slot : Nat)
  /-- R180: the store-busy timer expires. -/
  | storeBusyExpiry
  /-- R163: a read transaction that clocks `count` whole bytes after its first byte. -/
  | readResponse (count : Nat)
  /-- R159, R160: a transaction that carries no whole byte, or a command transaction that ends while a command is being taken; `bits` are
  the bits clocked. -/
  | ignoredTransaction (bits : List Bool)
  /-- R161: a transaction whose command byte names no command. -/
  | unknownCommand (command : Byte) (rest : List Byte)
  /-- R164. -/
  | readStatus (rest : List Byte)
  /-- R165. -/
  | readDirectoryEntry (rest : List Byte)
  /-- R165. -/
  | readDegree (rest : List Byte)
  /-- R166. -/
  | readReport (rest : List Byte)
  /-- R166. -/
  | readPeerIntent (rest : List Byte)
  /-- R49. -/
  | writeNodeReport (rest : List Byte)
  /-- R51. -/
  | writeSpanReport (rest : List Byte)
  /-- R58. -/
  | clearLatch (rest : List Byte)
  /-- R98. -/
  | submit (rest : List Byte)
  /-- R102. -/
  | cancel (rest : List Byte)
  /-- R103. -/
  | releaseSlot (rest : List Byte)
  /-- R104. -/
  | readSlot (rest : List Byte)
  /-- R147. -/
  | commitIntent (rest : List Byte)
  /-- R155. -/
  | withdraw (rest : List Byte)
  /-- R87. -/
  | forceEpoch (rest : List Byte)
  /-- R167. -/
  | start (rest : List Byte) (strap : BitVec 3)
  /-- R169. -/
  | restart (rest : List Byte)
  /-- R15. -/
  | mute (rest : List Byte)
  /-- R15. -/
  | clearMute (rest : List Byte)
  /-- R172. -/
  | setEnables (rest : List Byte)
  /-- R171. -/
  | clearIndications (rest : List Byte)
  /-- R181. -/
  | readStoreWord (rest : List Byte)
  /-- R180. -/
  | writeStoreWord (rest : List Byte)
  /-- R177: the load reads the next store word. -/
  | loadWordRead
  /-- R87, R89: an epoch transfer ends. -/
  | epochTransferEnd
  deriving DecidableEq, Repr

end Sys2Proof
end

