-- ==== Sys2Proof/Decode.lean ====
section
/-! DEFINITION. Commands from words of the table (it gives no row bits) and from what the port's pins carry (R159, R161, R183, R188). -/

namespace Sys2Proof

/-- The command a word spells by the table's bits: no row of spec/opcode_table.json has bits. -/
def decodeTableWord (_ _ : Nat) : Option Instr := none

/-- The row of a command byte with the bytes after it (R188); `strap` is the level START reads (R26). -/
def decodeCommand (strap : BitVec 3) (command : Byte) (rest : List Byte) : Instr :=
  if command = Machine.cmdReadResponse then .readResponse rest.length
  else if command = Machine.cmdReadStatus then .readStatus rest
  else if command = Machine.cmdReadDirectoryEntry then .readDirectoryEntry rest
  else if command = Machine.cmdReadReport then .readReport rest
  else if command = Machine.cmdReadPeerIntent then .readPeerIntent rest
  else if command = Machine.cmdReadDegree then .readDegree rest
  else if command = Machine.cmdWriteNodeReport then .writeNodeReport rest
  else if command = Machine.cmdWriteSpanReport then .writeSpanReport rest
  else if command = Machine.cmdClearLatch then .clearLatch rest
  else if command = Machine.cmdSubmit then .submit rest
  else if command = Machine.cmdCancel then .cancel rest
  else if command = Machine.cmdReleaseSlot then .releaseSlot rest
  else if command = Machine.cmdReadSlot then .readSlot rest
  else if command = Machine.cmdCommitIntent then .commitIntent rest
  else if command = Machine.cmdWithdraw then .withdraw rest
  else if command = Machine.cmdForceEpoch then .forceEpoch rest
  else if command = Machine.cmdStart then .start rest strap
  else if command = Machine.cmdRestart then .restart rest
  else if command = Machine.cmdMute then .mute rest
  else if command = Machine.cmdClearMute then .clearMute rest
  else if command = Machine.cmdSetEnables then .setEnables rest
  else if command = Machine.cmdClearIndications then .clearIndications rest
  else if command = Machine.cmdReadStoreWord then .readStoreWord rest
  else if command = Machine.cmdWriteStoreWord then .writeStoreWord rest
  else .unknownCommand command rest

/-- The row of a transaction of these clocked bits (R159): its bytes come most significant bit first and are counted whole, a partial byte
at the end is discarded; without a whole byte it is ignored, else the first byte decides its kind. -/
def decodeTransaction (strap : BitVec 3) (bits : List Bool) : Instr :=
  match Machine.bytesOf bits with
  | [] => .ignoredTransaction bits
  | command :: rest => decodeCommand strap command rest

/-- The row of the transaction that the pins of the port carry from the assertion of chip select to its deassertion (R159). -/
def decodePins (strap : BitVec 3) (pins : List Machine.SpiLevels) : Instr := decodeTransaction strap (Machine.transactionBits pins)

/-- The bytes of a row that is a command transaction; other rows have none. -/
def encodeTransaction : Instr → Option (List Byte)
  | .deviceReset => none
  | .resetRelease => none
  | .loadEnd => none
  | .pinSample _ _ => none
  | .frameStart => none
  | .carrierEnd => none
  | .episodeEnd _ => none
  | .darkTimerExpiry => none
  | .takeIntoService => none
  | .quietGapExpiry => none
  | .sendEnd => none
  | .echoCheckClose => none
  | .takeReceivedFrame _ => none
  | .peerLifetimeExpiry _ => none
  | .claimRoundTimerExpiry => none
  | .noNumberTimerExpiry _ => none
  | .traceWordSend _ => none
  | .traceSyncMatch _ => none
  | .traceWordJudgement _ _ => none
  | .huntTimerExpiry _ => none
  | .qualifierTimerExpiry _ => none
  | .holdDownExpiry => none
  | .refreshTimerExpiry => none
  | .epochTimerExpiry => none
  | .peerIntentLifetimeExpiry _ => none
  | .settlement => none
  | .windowTimerExpiry _ => none
  | .intentRefreshExpiry _ => none
  | .storeBusyExpiry => none
  | .readResponse _ => none
  | .ignoredTransaction _ => none
  | .unknownCommand command rest => some (command :: rest)
  | .readStatus rest => some (Machine.cmdReadStatus :: rest)
  | .readDirectoryEntry rest => some (Machine.cmdReadDirectoryEntry :: rest)
  | .readDegree rest => some (Machine.cmdReadDegree :: rest)
  | .readReport rest => some (Machine.cmdReadReport :: rest)
  | .readPeerIntent rest => some (Machine.cmdReadPeerIntent :: rest)
  | .writeNodeReport rest => some (Machine.cmdWriteNodeReport :: rest)
  | .writeSpanReport rest => some (Machine.cmdWriteSpanReport :: rest)
  | .clearLatch rest => some (Machine.cmdClearLatch :: rest)
  | .submit rest => some (Machine.cmdSubmit :: rest)
  | .cancel rest => some (Machine.cmdCancel :: rest)
  | .releaseSlot rest => some (Machine.cmdReleaseSlot :: rest)
  | .readSlot rest => some (Machine.cmdReadSlot :: rest)
  | .commitIntent rest => some (Machine.cmdCommitIntent :: rest)
  | .withdraw rest => some (Machine.cmdWithdraw :: rest)
  | .forceEpoch rest => some (Machine.cmdForceEpoch :: rest)
  | .start rest _ => some (Machine.cmdStart :: rest)
  | .restart rest => some (Machine.cmdRestart :: rest)
  | .mute rest => some (Machine.cmdMute :: rest)
  | .clearMute rest => some (Machine.cmdClearMute :: rest)
  | .setEnables rest => some (Machine.cmdSetEnables :: rest)
  | .clearIndications rest => some (Machine.cmdClearIndications :: rest)
  | .readStoreWord rest => some (Machine.cmdReadStoreWord :: rest)
  | .writeStoreWord rest => some (Machine.cmdWriteStoreWord :: rest)
  | .loadWordRead => none
  | .epochTransferEnd => none

end Sys2Proof
end

