-- ==== Sys2Proof/Config.lean ====
section
/-! DEFINITION. What the spec fixes for every part (capacities, periods) and the one value it leaves free (R13). -/

namespace Sys2Proof.Config

/-- The value the pseudorandom generator draws (R13): seed, number of earlier draws, attempt count. DESIGN CHOICE, log 4:
"The range of each draw is fixed; which value in it is drawn is not", so the value is free; the draw takes it modulo the range. -/
opaque backoffDraw : Uid → Nat → Nat → Nat

/-- Stations of one network (R19). -/
def stations : Nat := 48
/-- Degrees of one station (00 Conventions). -/
def degrees : Nat := 8
/-- Places of a peer-intent table (R77). -/
def intentPlaces : Nat := 32
/-- Path slots (R95). -/
def slots : Nat := 8
/-- QUEUED slots at most (R99). -/
def queueDepth : Nat := 4
/-- Frames of the transmit queue (R9). -/
def txDepth : Nat := 8
/-- Frames of the receive queue (R6). -/
def rxDepth : Nat := 8
/-- Outcomes of the validity history (R7). -/
def historyDepth : Nat := 16
/-- Invalid outcomes that leave ALIGNED (R7). -/
def historyLimit : Nat := 6
/-- Consecutive valid frames that enter ALIGNED (R7). -/
def goodRunTarget : Nat := 8
/-- Attempts of one frame (R13). -/
def attempts : Nat := 8
/-- References of the frontier (R131). -/
def frontierDepth : Nat := 256
/-- Numbers of the missed list (R74). -/
def missedDepth : Nat := 4
/-- Store words (R175). -/
def storeWords : Nat := 70
/-- Equal samples that accept a pin level (R17). -/
def pinRun : Nat := 4
/-- Claim rounds before MEMBER (R27). -/
def claimRounds : Nat := 3
/-- Hops of a path (R136). -/
def maxHops : Nat := 16
/-- Regenerations of a path (R138). -/
def maxRegens : Nat := 2

/-- The channel value ANY (00 Conventions). -/
def anyChannel : Nat := 64
/-- The station-number value for "no number" (00 Conventions). -/
def noNumber : Nat := 255

/-- Dark timer, ms (R7). -/
def darkMs : Nat := 5000
/-- One contention slot, ms (R11). -/
def slotMs : Nat := 1
/-- Echo check after the last bit, ms (R12). -/
def echoMs : Nat := 1
/-- Claim round, ms (R27). -/
def roundMs : Nat := 40
/-- Hunt timer, ms (R37). -/
def huntMs : Nat := 13
/-- Unit of the qualifier, ms (R53). -/
def qualifierMs : Nat := 250
/-- Hold-down, ms (R66). -/
def holdDownMs : Nat := 500
/-- Unit of the epoch period, ms (R85). -/
def epochUnitMs : Nat := 10
/-- Intent window, ms (R149). -/
def windowMs : Nat := 80
/-- Store write, ms (R180). -/
def storeMs : Nat := 10
/-- Load, ms (R177). -/
def loadMs : Nat := 20

/-- Ceiling of a stored per-element noise, nu (R112). -/
def noiseMax : Nat := 1000000
/-- Ceiling of segment noise and of total latency (R117). -/
def sumMax : Nat := 16777215
/-- Ceiling of cost (R117). -/
def costMax : Nat := 1048575

end Sys2Proof.Config
end

