-- ==== Sys2Proof/Machine/Types.lean ====
section
/-! DEFINITION. The records and name sets of the part's blocks, each after the rule that lists its fields. -/

namespace Sys2Proof.Machine

/-- A timer: `none` stopped, `some r` running with `r` ms left (0: due). -/
abbrev Timer := Option Nat

/-- Station states (R25). -/
inductive Station where
  | loading | standby | joining | member | noNumber | faulted
  deriving DecidableEq, Repr

/-- SCR channel states (R7). -/
inductive Channel where
  | dark | seeking | aligned
  deriving DecidableEq, Repr

/-- The fifteen indications (R170). -/
inductive Indication where
  | requestDone | resultInvalid | intentHeld | intentLost | epoch | peerChange | numberChange | degreeChange
  | marginChange | channelChange | rxDrop | txAbandon | muted | peerIntentFull | storeFault
  deriving DecidableEq, Repr

/-- Status codes of a response (R162). -/
inductive Status where
  | ok | deferred | badLength | badCommand | badField | badState | badEndpoints | badExclusion | badClass | badRef
  | tagInUse | noSlot | queueFull | notMember | overlap | pinActive | storeBusy
  deriving DecidableEq, Repr

/-- A (station, degree) end of a fibre pair (R92). -/
structure End where
  station : Nat
  degree  : Nat
  deriving DecidableEq, Repr

/-- A (span, channel) pair; the span by its end at the lower station number (R77, R92). -/
structure Pair where
  station : Nat
  degree  : Nat
  channel : Nat
  deriving DecidableEq, Repr

/-- A link entry of a station report (R63, R187). -/
structure Link where
  degree    : Nat
  nbrUid    : Uid
  nbrDegree : Nat
  noise     : Nat
  latency   : Nat
  cost      : Nat
  degraded  : Bool
  confirmed : Bool
  lit       : ChannelSet
  deriving DecidableEq, Repr

/-- A station report (R62, R187). `missed` holds the four places of the missed list, 255 in an empty place. -/
structure Report where
  seq        : BitVec 16
  domain     : Nat
  impaired   : Bool
  passNoise  : Nat
  regens     : Nat
  capability : ChannelSet
  missed     : List Nat
  links      : List Link
  deriving DecidableEq, Repr

/-- The body of an SC frame (R2, R187). -/
inductive Body where
  | claim (requested : Nat) (mode : Nat)
  | report (r : Report)
  | intent (id : Nat) (priority : Nat) (pairs : List Pair)
  | release (id : Nat)
  deriving DecidableEq, Repr

/-- A valid SC frame: the header fields the DIR reads, and the body (R2, R187). -/
structure Frame where
  uid      : Uid
  number   : Nat
  lifetime : Nat
  body     : Body
  deriving DecidableEq, Repr

/-- The outcome of one receive episode (R5). `bytes` are the bytes of the frame after the delimiter. -/
inductive Episode where
  | invalid
  | valid (bytes : List Byte) (frame : Frame)
  deriving DecidableEq, Repr

/-- Phase of the frame in service (R11, R12). In WAIT, `gap` runs while the quiet gap does, and is stopped while carrier is
present or the mute flag is set. In SEND, `decided` is an outcome already decided (true: completed). -/
inductive Phase where
  | wait (gap : Timer)
  | send (decided : Option Bool)
  | echo (left : Nat)
  deriving DecidableEq, Repr

/-- The outstanding-echo record: the frame in service (R10). `bytes` run from the delimiter to the last CRC byte. -/
structure Service where
  body     : Body
  bytes    : List Byte
  attempts : Nat
  backoff  : Nat
  phase    : Phase
  deriving DecidableEq, Repr

/-- SC transmitter (R9 to R16). `queue` is in age order, oldest first. -/
structure Sct where
  queue   : List Body
  service : Option Service
  mute    : Bool
  seed    : Uid
  draws   : Nat
  deriving DecidableEq, Repr

/-- SC receiver (R4 to R8). `history` holds outcomes, oldest first, true for a valid frame. -/
structure Scr where
  channel   : Channel
  history   : List Bool
  goodRun   : Nat
  darkTimer : Timer
  rxQueue   : List Frame
  carrier   : Bool
  decoding  : Bool
  deriving DecidableEq, Repr

/-- A directory entry that is not empty (R19): a peer with its lifetime left in ms, or the own entry. -/
inductive DirEntry where
  | peer (uid : Uid) (left : Nat)
  | own (uid : Uid)
  deriving DecidableEq, Repr

/-- Station directory and join state (R19, R25 to R30). -/
structure Dir where
  entries       : List (Option DirEntry)
  station       : Station
  candidate     : Option Nat
  rounds        : Nat
  yielded       : List Nat
  preferred     : Nat
  roundTimer    : Timer
  noNumberTimer : Timer
  deriving DecidableEq, Repr

/-- The identity a trace word carries (R34). -/
structure Identity where
  uid    : Uid
  degree : Nat
  deriving DecidableEq, Repr

/-- A candidate identity with its good-word count (R40, R42). -/
structure Candidate where
  id   : Identity
  good : Nat
  deriving DecidableEq, Repr

/-- Trace state of a degree (3.3, R40 to R44): what a degree holds in each state. -/
inductive Trace where
  | unequipped
  | dark
  | searching (cand : Option Candidate)
  | traced (nbr : Identity) (number : Nat) (farEnd : Bool) (cand : Option Candidate) (bad : Nat)
  deriving DecidableEq, Repr

/-- Word receiver of a degree (R37): not judging; in HUNT with the hunt timer; a word found in HUNT being received; LOCKED. -/
inductive Receiver where
  | idle
  | hunt (left : Nat)
  | found
  | locked
  deriving DecidableEq, Repr

/-- One degree of the tracer (R34 to R47). `txWord` is the word on the transmit line, `none` when the line is dark. -/
structure Degree where
  trace    : Trace
  receiver : Receiver
  txWord   : Option TraceWord
  deriving DecidableEq, Repr

/-- A judged trace word (R37). -/
inductive Judgement where
  | invalid
  | valid (id : Identity) (number : Nat) (farEnd : Bool)
  deriving DecidableEq, Repr

/-- Margin monitor of a degree (R53 to R58). `held`: its expiry fell in LOADING and waits for the load's end (R59). -/
inductive Monitor where
  | clear
  | pending (left : Nat) (held : Bool)
  | degraded (latchHeld : Bool)
  deriving DecidableEq, Repr

/-- Span-monitor values of one degree (R48). -/
structure SpmDegree where
  lit     : ChannelSet
  cost    : Nat
  latency : Nat
  noise   : Nat
  monitor : Monitor
  deriving DecidableEq, Repr

/-- Span monitor (R48). -/
structure Spm where
  degrees   : List SpmDegree
  passNoise : Nat
  regens    : Nat
  deriving DecidableEq, Repr

/-- Report originator (R62 to R76). `seq` is the number the next origination carries. -/
structure Org where
  seq           : BitVec 16
  missed        : List Nat
  holdDown      : Timer
  refresh       : Timer
  pendingChange : Bool
  deriving DecidableEq, Repr

/-- A held station report with the unique ID of its sender (R77). -/
structure StationReport where
  uid    : Uid
  report : Report
  deriving DecidableEq, Repr

/-- A peer-intent entry (R77). -/
structure PeerIntent where
  uid      : Uid
  id       : Nat
  priority : Nat
  pairs    : List Pair
  deriving DecidableEq, Repr

/-- A staging peer-intent entry with its lifetime left in ms (R83). -/
structure StagedIntent where
  entry : PeerIntent
  left  : Nat
  deriving DecidableEq, Repr

/-- A span of the span table (R91, R92). -/
structure Span where
  low      : End
  high     : End
  noise    : Nat
  latency  : Nat
  cost     : Nat
  degraded : Bool
  lit      : ChannelSet
  deriving DecidableEq, Repr

/-- What waits for the end of an epoch transfer: an expiry of the epoch timer or a FORCE EPOCH (R89). -/
inductive EpochAsk where
  | expiry
  | force
  deriving DecidableEq, Repr

/-- Topology database (R77 to R94). -/
structure Tdb where
  staging        : List (Option StationReport)
  active         : List (Option StationReport)
  stagingIntents : List (Option StagedIntent)
  activeIntents  : List (Option PeerIntent)
  spans          : List Span
  dirty          : Bool
  epoch          : BitVec 16
  epochTimer     : Timer
  pendingEpoch   : Bool
  transferring   : Bool
  held           : List EpochAsk
  deriving DecidableEq, Repr

/-- Search policies (R98). -/
inductive Policy where
  | firstFit | leastCost
  deriving DecidableEq, Repr

/-- An item of the exclusion list (R98). -/
inductive Exclusion where
  | station (n : Nat)
  | atEnd (e : End)
  deriving DecidableEq, Repr

/-- A path request (R98). -/
structure Request where
  source        : Nat
  destination   : Nat
  cls           : Nat
  policy        : Policy
  allowDegraded : Bool
  allowRegen    : Bool
  avoidImpaired : Bool
  priority      : Nat
  hint          : Option Nat
  exclusions    : List Exclusion
  diverse       : Option Nat
  deriving DecidableEq, Repr

/-- What a slot that is not FREE keeps from its SUBMIT (R95). -/
structure Job where
  tag     : Nat
  request : Request
  refTag  : Option Nat
  deriving DecidableEq, Repr

/-- Fail reasons (R95). -/
inductive FailReason where
  | noPath | endpointUnknown | refLost
  deriving DecidableEq, Repr

/-- Invalid reasons (R95). -/
inductive InvalidReason where
  | spanGone | spanDegraded | channelTaken | budgetExceeded | latencyExceeded | regenGone
  deriving DecidableEq, Repr

/-- A hop (R95). -/
structure Hop where
  src     : Nat
  degree  : Nat
  dst     : Nat
  channel : Nat
  regen   : Bool
  deriving DecidableEq, Repr

/-- Totals of one segment (R95). -/
structure Segment where
  noise  : Nat
  passes : Nat
  margin : Nat
  deriving DecidableEq, Repr

/-- A found path with its totals (R95). -/
structure PathResult where
  hops     : List Hop
  segments : List Segment
  cost     : Nat
  latency  : Nat
  regens   : Nat
  pruned   : Bool
  deriving DecidableEq, Repr

/-- State of a slot with the fields present in it (R95, R96). -/
inductive SlotState where
  | free
  | queued (job : Job)
  | running (job : Job) (epoch : BitVec 16)
  | found (job : Job) (epoch : BitVec 16) (result : PathResult)
  | invalid (job : Job) (epoch : BitVec 16) (result : PathResult) (why : InvalidReason)
  | failed (job : Job) (epoch : BitVec 16) (why : FailReason) (pruned : Bool)
  deriving DecidableEq, Repr

/-- Lost reasons (R145). -/
inductive LostReason where
  | outranked | notSent | renumbered
  deriving DecidableEq, Repr

/-- The intent part of a slot (R145). -/
inductive Intent where
  | none
  | claiming (priority : Nat) (pairs : List Pair) (window : Timer) (refresh : Nat)
  | held (priority : Nat) (pairs : List Pair) (refresh : Nat)
  | lost (why : LostReason) (priority : Nat) (pairs : List Pair)
  deriving DecidableEq, Repr

/-- A path slot (R95). -/
structure Slot where
  state  : SlotState
  intent : Intent
  deriving DecidableEq, Repr

/-- A search state: station and channel, 64 for ANY (R129). -/
structure SearchState where
  station : Nat
  channel : Nat
  deriving DecidableEq, Repr

/-- The predecessor of a label; the leaving degree is absent in a regeneration label (R130). -/
structure Pred where
  station : Nat
  channel : Nat
  degree  : Option Nat
  deriving DecidableEq, Repr

/-- A label (R129). -/
structure Label where
  cost    : Nat
  noise   : Nat
  passes  : Nat
  latency : Nat
  regens  : Nat
  hops    : Nat
  first   : Option Nat
  pred    : Option Pred
  deriving DecidableEq, Repr

/-- A reached search state with its label (R129). -/
structure Reached where
  state : SearchState
  label : Label
  deriving DecidableEq, Repr

/-- Path engine (R123 to R144). The label table as two lists: `settled` (latest first) and `frontier` (TENTATIVE, best key
first, R131); a state in neither is UNREACHED (R129). -/
structure Pen where
  searching   : Option Nat
  settled     : List Reached
  frontier    : List Reached
  pruned      : Bool
  settlements : Nat
  diverse     : List End
  ownPairs    : List Pair
  deriving DecidableEq, Repr

/-- Local request port (R159 to R163): command buffer, whether a command is being taken, response buffer, and the bytes sent on data-out
in the latest transaction. -/
structure Lrp where
  commandBuffer : List Byte
  taking        : Bool
  command       : Byte
  number        : BitVec 8
  status        : Status
  clamped       : Bool
  payload       : List Byte
  dataOut       : List Byte
  deriving DecidableEq, Repr

/-- Notification block (R170 to R173). -/
structure Ntf where
  indications : Mask
  enables     : Mask
  deriving DecidableEq, Repr

/-- A stored word: 32 data bits and the check bits c6 to c0 (R175, R186). -/
structure StoreWord where
  data  : Word
  check : BitVec 7
  deriving DecidableEq, Repr

/-- Outcome of decoding a store word (R176). -/
inductive LoadOutcome where
  | clean | corrected | uncorrectable
  deriving DecidableEq, Repr

/-- Monitor parameters of a degree (R53). -/
structure MonitorParams where
  threshold  : Nat
  hysteresis : Nat
  qualifier  : Nat
  latch      : Bool
  deriving DecidableEq, Repr

/-- A class entry (R113). -/
structure ClassEntry where
  home       : Nat
  budget     : Nat
  maxPasses  : Nat
  maxLatency : Nat
  regenCost  : Nat
  penalty    : Nat
  channels   : ChannelSet
  deriving DecidableEq, Repr

/-- The working parameters (R178). -/
structure Params where
  base       : Nat
  domain     : Nat
  equipped   : DegreeSet
  refresh    : Nat
  epoch      : Nat
  lifetime   : Nat
  capability : ChannelSet
  degrees    : List MonitorParams
  classes    : List ClassEntry
  uid        : Uid
  deriving DecidableEq, Repr

/-- A store write in progress (R180). -/
structure StoreWrite where
  word : Nat
  data : Word
  left : Nat
  deriving DecidableEq, Repr

/-- Parameter store (R175 to R182). -/
structure Psr where
  store     : List StoreWord
  busy      : Option StoreWrite
  outcomes  : List LoadOutcome
  working   : Params
  loadTimer : Timer
  loadIndex : Nat
  firstLoad : Bool
  deriving DecidableEq, Repr

/-- Filter of one pin (R17): accepted level, and the run of samples that differ from it (level, length). -/
structure PinState where
  accepted : Option Bool
  run      : Option (Bool × Nat)
  deriving DecidableEq, Repr

/-- Pin filter (R17). -/
structure Pins where
  mute : PinState
  lol  : List PinState
  deriving DecidableEq, Repr

end Sys2Proof.Machine
end

