-- ==== Sys2Proof/Machine/Frames.lean ====
section
/-! DEFINITION. Layouts of SC frames and trace words, and how they are read from their lines (R2 to R5, R34, R35, R37, R187). -/

namespace Sys2Proof.Machine

/-- The start delimiter byte (R187). -/
def delimiter : Byte := 0xB6
/-- CLAIM mode JOINING (R187). -/
def modeJoining : Nat := 1
/-- CLAIM mode DEFENDING (R187). -/
def modeDefending : Nat := 2
/-- The sync pattern of a trace word (R187). -/
def syncPattern : BitVec 16 := 0x1F35

/-- The preamble: 16 bits that alternate, 1 first (R2). -/
def preambleBits : List Bool :=
  [true, false, true, false, true, false, true, false, true, false, true, false, true, false, true, false]

/-- The kind byte of a body (R187). -/
def kindOf : Body → Nat
  | .claim _ _ => 1
  | .report _ => 2
  | .intent _ _ _ => 3
  | .release _ => 4

/-- A pair in line order (R187). -/
def encodePair (p : Pair) : List Byte := [byte p.station, byte p.degree, byte p.channel]

/-- A link entry, 24 bytes (R187). -/
def encodeLink (l : Link) : List Byte :=
  [byte (l.degree * 16 + l.nbrDegree)] ++ toBytes 8 l.nbrUid.toNat ++ toBytes 3 l.noise ++ toBytes 2 l.latency
    ++ toBytes 2 (l.degraded.toNat * 2 ^ 15 + l.confirmed.toNat * 2 ^ 14 + l.cost) ++ toBytes 8 l.lit.toNat

/-- A REPORT body, 21 + 24 m bytes (R187). -/
def encodeReport (r : Report) : List Byte :=
  toBytes 2 r.seq.toNat ++ [byte r.domain, byte r.impaired.toNat] ++ toBytes 3 r.passNoise ++ [byte r.regens]
    ++ toBytes 8 r.capability.toNat ++ r.missed.map byte ++ [byte r.links.length] ++ r.links.flatMap encodeLink

/-- A frame body in line order (R187). -/
def encodeBody : Body → List Byte
  | .claim requested mode => [byte requested, byte mode]
  | .report r => encodeReport r
  | .intent id priority pairs => [byte id, byte priority, byte pairs.length] ++ pairs.flatMap encodePair
  | .release id => [byte id]

/-- The header and body of a frame (R187). -/
def encodeContent (f : Frame) : List Byte :=
  let body := encodeBody f.body
  [byte (kindOf f.body)] ++ toBytes 2 body.length ++ toBytes 8 f.uid.toNat ++ [byte f.number, byte f.lifetime] ++ body

/-- A frame after its delimiter: header, body and CRC, most significant CRC byte first (R2, R3). -/
def encodeFrame (f : Frame) : List Byte :=
  let content := encodeContent f
  content ++ toBytes 2 (crc16 content).toNat

/-- The bits a frame puts on the line (R2): preamble, delimiter, header, body, CRC. -/
def lineBits (bytes : List Byte) : List Bool := preambleBits ++ bitsOf bytes

/-- A pair read from three bytes (R187). -/
def decodePair (b : List Byte) : Pair := { station := field b 0 1, degree := field b 1 1, channel := field b 2 1 }

/-- `n` pairs. -/
def decodePairs : Nat → List Byte → List Pair
  | 0, _ => []
  | n + 1, b => decodePair (b.take 3) :: decodePairs n (b.drop 3)

/-- A link entry read from 24 bytes (R187). -/
def decodeLink (b : List Byte) : Link :=
  { degree := field b 0 1 / 16
    nbrDegree := field b 0 1 % 16
    nbrUid := BitVec.ofNat 64 (field b 1 8)
    noise := field b 9 3
    latency := field b 12 2
    cost := field b 14 2 % 2 ^ 14
    degraded := (field b 14 2).testBit 15
    confirmed := (field b 14 2).testBit 14
    lit := BitVec.ofNat 64 (field b 16 8) }

/-- `m` link entries. -/
def decodeLinks : Nat → List Byte → List Link
  | 0, _ => []
  | m + 1, b => decodeLink (b.take 24) :: decodeLinks m (b.drop 24)

/-- A REPORT body as received (R187), before the clamps of R72. Flag bits 7 to 1 are ignored. The link entries keep the order received,
ascending or not: DESIGN CHOICE, log 29. -/
def decodeReport (b : List Byte) : Report :=
  { seq := BitVec.ofNat 16 (field b 0 2)
    domain := field b 2 1
    impaired := (field b 3 1).testBit 0
    passNoise := field b 4 3
    regens := field b 7 1
    capability := BitVec.ofNat 64 (field b 8 8)
    missed := (slice b 16 4).map BitVec.toNat
    links := decodeLinks (field b 20 1) (b.drop 21) }

/-- The body of a frame of kind `kind` and `len` body bytes, when kind, length and count field agree (R5). -/
def decodeBody (kind len : Nat) (b : List Byte) : Option Body :=
  match kind with
  | 1 => if len = 2 then some (.claim (field b 0 1) (field b 1 1)) else none
  | 2 => if field b 20 1 ≤ 8 ∧ len = 21 + 24 * field b 20 1 then some (.report (decodeReport b)) else none
  | 3 => if 1 ≤ field b 2 1 ∧ field b 2 1 ≤ 16 ∧ len = 3 + 3 * field b 2 1 then
      some (.intent (field b 0 1) (field b 1 1) (decodePairs (field b 2 1) (b.drop 3)))
    else none
  | 4 => if len = 1 then some (.release (field b 0 1)) else none
  | _ => none

/-- Classification of the bytes after the delimiter (R4, R5). Bytes after the last CRC byte are ignored. -/
def classifyBytes (b : List Byte) : Episode :=
  let len := field b 1 2
  if b.length < 13 + len + 2 then .invalid
  else
    match decodeBody (field b 0 1) len (slice b 13 len) with
    | none => .invalid
    | some body =>
      if field b (13 + len) 2 = (crc16 (b.take (13 + len))).toNat then
        .valid (b.take (13 + len + 2))
          { uid := BitVec.ofNat 64 (field b 3 8), number := field b 11 1, lifetime := field b 12 1, body := body }
      else .invalid

/-- The bits after the first delimiter that begins within the next `n` bit positions (R4). -/
def afterDelimiter : Nat → List Bool → Option (List Bool)
  | 0, _ => none
  | n + 1, bits =>
    if bits.take 8 = byteBits delimiter then some (bits.drop 8)
    else match bits with
      | [] => none
      | _ :: rest => afterDelimiter n rest

/-- Classification of an episode from its decoded bits (R4, R5): the delimiter must end within the first 32 bits. -/
def classifyEpisode (bits : List Bool) : Episode :=
  match afterDelimiter 25 bits with
  | none => .invalid
  | some rest => classifyBytes (bytesOf rest)

/-- The 80 bits of a trace word that its CRC covers (R35). -/
def traceContent (uid : Uid) (number : Nat) (degree : Nat) (notTraced : Bool) : BitVec 80 :=
  (uid ++ BitVec.ofNat 8 number ++ BitVec.ofNat 4 degree ++ BitVec.ofBool notTraced ++ (0#3) : BitVec (64 + 8 + 4 + 1 + 3))

/-- A trace word (R34, R187): sync, content, CRC; the first flag bit is far-end-not-traced, the spare flags are 0. -/
def encodeTraceWord (uid : Uid) (number : Nat) (degree : Nat) (notTraced : Bool) : TraceWord :=
  let content := traceContent uid number degree notTraced
  (syncPattern ++ content ++ crc8 (bitsMsb content) : BitVec (16 + 80 + 8))

/-- Classification of an episode from the levels of the receive line (R1, R4, R5): its bits up to the first code violation. -/
def classifyLine (levels : List Bool) : Episode := classifyEpisode (manchesterBits levels)

/-- The sync field of a trace word (R34). -/
def wordSync (w : TraceWord) : BitVec 16 := w.extractLsb' 88 16

/-- The sync pattern in line order (R34, R187). -/
def syncBits : List Bool := bitsMsb syncPattern

/-- HUNT (R37): each new run of 16 decoded bits is compared with the sync pattern, at every bit position. `run` holds the latest bits
decoded without a code violation, up to 16, oldest first. Answers the levels left after the first match, none without one. -/
def huntSync (run : List Bool) : List Bool → Option (List Bool)
  | a :: b :: rest =>
    if a = b then huntSync [] rest
    else
      let now := (run ++ [a]).drop (run.length + 1 - syncBits.length)
      if now = syncBits then some rest else huntSync now rest
  | _ => none

/-- The word found in HUNT (R37): the sync pattern that matched, then the next 88 bits; none when one of these is a code violation. -/
def heardAfterSync (levels : List Bool) : Option TraceWord := heardWord (manchester syncBits ++ levels)

/-- The judgement of a complete trace word after its sync pattern (R37): the CRC checks, the degree field is 0 to 7, the
unique ID is not the part's own. The spare flags are ignored. -/
def judgeWord (own : Uid) (w : TraceWord) : Judgement :=
  let content : BitVec 80 := w.extractLsb' 8 80
  let uid : Uid := content.extractLsb' 16 64
  let degree := (content.extractLsb' 4 4).toNat
  if crc8 (bitsMsb content) = w.extractLsb' 0 8 ∧ degree < Config.degrees ∧ uid ≠ own then
    .valid { uid := uid, degree := degree } (content.extractLsb' 8 8).toNat (content.getLsbD 3)
  else .invalid

end Sys2Proof.Machine
end

