-- ==== Sys2Proof/Machine/Ecc.lean ====
section
/-! DEFINITION. The check bits of a store word and its decoding (R176, R186). -/

namespace Sys2Proof.Machine

/-- The positions 1 to 38 that hold data bits, in ascending order: every position that is no power of two (R186). -/
def dataPositions : List Nat :=
  [3, 5, 6, 7, 9, 10, 11, 12, 13, 14, 15, 17, 18, 19, 20, 21, 22, 23, 24, 25, 26, 27, 28, 29, 30, 31, 33, 34, 35, 36, 37, 38]

/-- The exclusive-or of a list of bits. -/
def parity (bits : List Bool) : Bool := bits.foldl (fun a b => a != b) false

/-- The data bits with their positions. -/
def placedData (data : Word) : List (Nat × Bool) := dataPositions.zipIdx.map fun x => (x.1, data.getLsbD x.2)

/-- c_i for i from 0 to 5: the exclusive-or of the data bits whose position has bit i set (R186). -/
def hammingBit (data : Word) (i : Nat) : Bool :=
  parity (((placedData data).filter fun x => x.1.testBit i).map fun x => x.2)

/-- The number that bits spell, bit 0 first. -/
def numberOfBits : List Bool → Nat
  | [] => 0
  | b :: rest => b.toNat + 2 * numberOfBits rest

/-- The check bits c6 to c0 of a data word (R186). -/
def checkBits (data : Word) : BitVec 7 :=
  let c := (List.range 6).map (hammingBit data)
  let c6 := parity ((List.range 32).map data.getLsbD ++ c)
  BitVec.ofNat 7 (numberOfBits (c ++ [c6]))

/-- A word with fresh check bits (R180). -/
def freshWord (data : Word) : StoreWord := { data := data, check := checkBits data }

/-- s of R186: bit i is the stored c_i exclusive-or the recomputed c_i, for i from 0 to 5. -/
def syndrome (w : StoreWord) : Nat := ((w.check ^^^ checkBits w.data).setWidth 6).toNat

/-- p of R186: the exclusive-or of all 39 stored bits. -/
def wordParity (w : StoreWord) : Bool :=
  parity ((List.range 32).map w.data.getLsbD ++ (List.range 7).map w.check.getLsbD)

/-- The data with the bit at position `p` inverted; a check-bit position leaves the data (R176). -/
def flipPosition (data : Word) (p : Nat) : Word :=
  match dataPositions.findIdx? (fun q => q == p) with
  | some j => data ^^^ (1#32 <<< j)
  | none => data

/-- Outcome and delivered data of reading a word (R176, R186). -/
def readWord (w : StoreWord) : LoadOutcome × Word :=
  match wordParity w, syndrome w with
  | false, 0 => (.clean, w.data)
  | true, 0 => (.corrected, w.data)
  | true, s => if s ≤ 38 then (.corrected, flipPosition w.data s) else (.uncorrectable, w.data)
  | false, _ => (.uncorrectable, w.data)

/-- The worse of two load outcomes (R177). -/
def worseOutcome : LoadOutcome → LoadOutcome → LoadOutcome
  | .uncorrectable, _ => .uncorrectable
  | _, .uncorrectable => .uncorrectable
  | .corrected, _ => .corrected
  | _, .corrected => .corrected
  | .clean, .clean => .clean

/-- The worst of a list of load outcomes (R177). -/
def worstOutcome (l : List LoadOutcome) : LoadOutcome := l.foldl worseOutcome .clean

end Sys2Proof.Machine
end

