-- ==== Sys2Proof/Machine/Params.lean ====
section
/-! DEFINITION. The working parameters: store word map, clamps and defaults (R178, R186). -/

namespace Sys2Proof.Machine

/-- Bits `hi` to `lo` of a data word as a number (R186). -/
def bits (w : Word) (hi lo : Nat) : Nat := (w.extractLsb' lo (hi - lo + 1)).toNat

/-- The 64-bit value whose upper half is `hi` (R186). -/
def join64 (hi lo : Word) : BitVec 64 := (hi ++ lo : BitVec (32 + 32))

/-- A value with a floor and a ceiling. -/
def clamp (lo hi n : Nat) : Nat := if n < lo then lo else if hi < n then hi else n

/-- Defaults of a degree's monitor parameters (R178). -/
def defaultMonitor : MonitorParams := { threshold := 20000, hysteresis := 2000, qualifier := 2, latch := false }

/-- Defaults of a class entry (R178): class 0 is usable, classes 1 to 7 are not. -/
def defaultClass (c : Nat) : ClassEntry :=
  if c = 0 then
    { home := 0, budget := 31623, maxPasses := 8, maxLatency := 0, regenCost := 100, penalty := 1000, channels := BitVec.allOnes 64 }
  else { home := 0, budget := 0, maxPasses := 0, maxLatency := 0, regenCost := 0, penalty := 0, channels := 0 }

/-- What a load delivers for one word: its data, or nothing when it is UNCORRECTABLE and its fields take their defaults (R178). -/
def delivered (store : List StoreWord) (n : Nat) : Option Word :=
  match store[n]? with
  | some w => match readWord w with
    | (.uncorrectable, _) => none
    | (_, data) => some data
  | none => none

/-- A field of a delivered word, or its default (R178). -/
def fieldOr (word : Option Word) (f : Word → Nat) (dflt : Nat) : Nat :=
  match word with
  | some w => f w
  | none => dflt

/-- A channel set of two words; each half defaults on its own, since each word is decoded on its own (R178, R186). -/
def channelsOr (hi lo : Option Word) (dflt : ChannelSet) : ChannelSet :=
  join64 (hi.getD (dflt.extractLsb' 32 32)) (lo.getD (dflt.extractLsb' 0 32))

/-- The data of a word as read: corrected when decoding corrects it (R178, unique ID row). -/
def dataRead (store : List StoreWord) (n : Nat) : Word :=
  match store[n]? with
  | some w => (readWord w).2
  | none => 0

/-- The working unique ID of a store: words 0 and 1, the data bits as read when uncorrectable (R175, R178). -/
def storedUid (store : List StoreWord) : Uid := join64 (dataRead store 0) (dataRead store 1)

/-- Monitor parameters of degree `d` (R178, R186). -/
def loadMonitor (store : List StoreWord) (d : Nat) : MonitorParams :=
  let w := delivered store (6 + 2 * d)
  let h := delivered store (7 + 2 * d)
  { threshold := fieldOr w (fun x => clamp 1 Config.noiseMax (bits x 31 12)) defaultMonitor.threshold
    hysteresis := fieldOr h (fun x => bits x 15 0) defaultMonitor.hysteresis
    qualifier := fieldOr w (fun x => clamp 0 7 (bits x 11 8)) defaultMonitor.qualifier
    latch := match w with
      | some x => x.getLsbD 0
      | none => defaultMonitor.latch }

/-- Entry of class `c` (R178, R186). -/
def loadClass (store : List StoreWord) (c : Nat) : ClassEntry :=
  let w := fun i => delivered store (22 + 6 * c + i)
  let dflt := defaultClass c
  { home := fieldOr (w 0) (fun x => bits x 31 28) dflt.home
    maxPasses := fieldOr (w 0) (fun x => clamp 0 15 (bits x 27 23)) dflt.maxPasses
    regenCost := fieldOr (w 0) (fun x => bits x 11 0) dflt.regenCost
    budget := fieldOr (w 1) (fun x => clamp 0 Config.noiseMax (bits x 23 0)) dflt.budget
    maxLatency := fieldOr (w 2) (fun x => bits x 23 0) dflt.maxLatency
    penalty := fieldOr (w 3) (fun x => clamp 0 Config.noiseMax (bits x 23 0)) dflt.penalty
    channels := channelsOr (w 4) (w 5) dflt.channels }

/-- The working parameters a load builds from the store (R178). -/
def loadParams (store : List StoreWord) : Params :=
  let w2 := delivered store 2
  let w3 := delivered store 3
  { base := fieldOr w2 (fun x => bits x 31 24 % Config.stations) 0
    domain := fieldOr w2 (fun x => bits x 23 20) 0
    equipped := match w2 with
      | some x => x.extractLsb' 12 8
      | none => 0b00000011
    refresh := fieldOr w2 (fun x => clamp 1 60 (bits x 11 4)) 10
    epoch := fieldOr w3 (fun x => clamp 1 255 (bits x 31 24)) 50
    lifetime := fieldOr w3 (fun x => clamp 3 255 (bits x 23 16)) 30
    capability := channelsOr (delivered store 4) (delivered store 5) (BitVec.allOnes 64)
    degrees := (List.range Config.degrees).map (loadMonitor store)
    classes := (List.range Config.slots).map (loadClass store)
    uid := storedUid store }

/-- The defaults of R178, in force after a device reset until the load ends (R177). The unique ID's default is the data bits as read; before the
first load has read them the model takes what a read of words 0 and 1 delivers, corrected where it corrects: DESIGN CHOICE, log 28. -/
def defaultParams (store : List StoreWord) : Params :=
  { base := 0
    domain := 0
    equipped := 0b00000011
    refresh := 10
    epoch := 50
    lifetime := 30
    capability := BitVec.allOnes 64
    degrees := List.replicate Config.degrees defaultMonitor
    classes := (List.range Config.slots).map defaultClass
    uid := storedUid store }

/-- Two data words of a degree that spell the defaults (R175, R186). -/
def deliveredDegree : List Word := [20000 <<< 12 ||| 2 <<< 8, 2000]

/-- Six data words of a class that spell its defaults (R175, R186). -/
def deliveredClass (c : Nat) : List Word :=
  let e := defaultClass c
  [BitVec.ofNat 32 (e.home * 2 ^ 28 + e.maxPasses * 2 ^ 23 + e.regenCost), BitVec.ofNat 32 e.budget,
   BitVec.ofNat 32 e.maxLatency, BitVec.ofNat 32 e.penalty, e.channels.extractLsb' 32 32, e.channels.extractLsb' 0 32]

/-- The unique ID of the part at first power-on. DESIGN CHOICE, log 3: it is factory-programmed (R175) and no rule gives a value. -/
def factoryUid : Uid := 0x8000000000000000

/-- The store as delivered (R175): the unique ID, then the defaults of R178, with correct check bits. The data bits that belong to no field
(R186) are 0: DESIGN CHOICE, log 3. -/
def deliveredStore : List StoreWord :=
  ([factoryUid.extractLsb' 32 32, factoryUid.extractLsb' 0 32, 0b11 <<< 12 ||| 10 <<< 4, 50 <<< 24 ||| 30 <<< 16,
    BitVec.allOnes 32, BitVec.allOnes 32]
    ++ (List.range Config.degrees).flatMap (fun _ => deliveredDegree)
    ++ (List.range Config.slots).flatMap deliveredClass).map freshWord

end Sys2Proof.Machine
end

