-- ==== Sys2Proof/Machine/State.lean ====
section
/-! DEFINITION. The state of the part (plain data), its value after a device reset, and why a step can stop. -/

namespace Sys2Proof.Machine

/-- Faults of a step. The spec names none: a refused command answers a status (R161, 00 Conventions), an invalid frame is
discarded (R5), an uncorrectable store word leads to FAULTED, which is ordinary state (R179). No constructor, so no meaning faults. -/
inductive Fault where
  deriving DecidableEq, Repr

/-- Refusals of a step. -/
inductive Refusal where
  /-- Raised by an arm of `exec` whose command has no meaning yet; no arm does so now. Safe: the model stops where the part goes on. -/
  | notModelled (mnemonic : String)
  deriving DecidableEq, Repr

/-- The whole state of the part, block by block (00 Blocks of the part), and the queue of waiting commands.
`pending` is the model's own; `inReset` says that the part is held in device reset (R184). -/
structure State where
  pending  : List Instr
  inReset  : Bool
  scr      : Scr
  sct      : Sct
  pins     : Pins
  dir      : Dir
  degrees  : List Degree
  spm      : Spm
  org      : Org
  tdb      : Tdb
  slots    : List Slot
  reqQueue : List Nat
  pen      : Pen
  lrp      : Lrp
  ntf      : Ntf
  psr      : Psr
  deriving DecidableEq, Repr

/-- SCR after a device reset (R18). -/
def Scr.deviceReset : Scr :=
  { channel := .dark, history := [], goodRun := 0, darkTimer := none, rxQueue := [], carrier := false, decoding := false }

/-- SCT after a device reset (R18). The generator's state before its seeding: DESIGN CHOICE, log 4. -/
def Sct.deviceReset : Sct := { queue := [], service := none, mute := false, seed := 0, draws := 0 }

/-- A pin's filter after a device reset (R17, R18). -/
def PinState.deviceReset : PinState := { accepted := none, run := none }

/-- Pin filter after a device reset (R17, R18). -/
def Pins.deviceReset : Pins :=
  { mute := PinState.deviceReset, lol := List.replicate Config.degrees PinState.deviceReset }

/-- DIR after either reset (R33). -/
def Dir.deviceReset : Dir :=
  { entries := List.replicate Config.stations none, station := .loading, candidate := none, rounds := 0, yielded := [],
    preferred := 0, roundTimer := none, noNumberTimer := none }

/-- A degree of the tracer after a device reset (R47). -/
def Degree.deviceReset : Degree := { trace := .unequipped, receiver := .idle, txWord := none }

/-- Span-monitor values of a degree after a device reset (R61). -/
def SpmDegree.deviceReset : SpmDegree := { lit := 0, cost := 1, latency := 0, noise := 0, monitor := .clear }

/-- SPM after a device reset (R61). -/
def Spm.deviceReset : Spm :=
  { degrees := List.replicate Config.degrees SpmDegree.deviceReset, passNoise := 0, regens := 0 }

/-- ORG after either reset (R76). -/
def Org.deviceReset : Org := { seq := 1, missed := [], holdDown := none, refresh := none, pendingChange := false }

/-- TDB after either reset (R94). -/
def Tdb.deviceReset : Tdb :=
  { staging := List.replicate Config.stations none, active := List.replicate Config.stations none,
    stagingIntents := List.replicate Config.intentPlaces none, activeIntents := List.replicate Config.intentPlaces none,
    spans := [], dirty := false, epoch := 0, epochTimer := none, pendingEpoch := false, transferring := false, held := [] }

/-- A slot after either reset (R111, R158). -/
def Slot.deviceReset : Slot := { state := .free, intent := .none }

/-- PEN after a device reset (R144). -/
def Pen.deviceReset : Pen :=
  { searching := none, settled := [], frontier := [], pruned := false, settlements := 0, diverse := [], ownPairs := [] }

/-- LRP after a device reset (R174). -/
def Lrp.deviceReset : Lrp :=
  { commandBuffer := [], taking := false, command := cmdNone, number := 0, status := .ok, clamped := false, payload := [], dataOut := [] }

/-- NTF after a device reset (R174). -/
def Ntf.deviceReset : Ntf := { indications := 0, enables := 0 }

/-- PSR after a device reset (R182): the store is kept, a write in progress is abandoned. -/
def Psr.deviceReset (store : List StoreWord) : Psr :=
  { store := store, busy := none, outcomes := List.replicate Config.storeWords .clean, working := defaultParams store,
    loadTimer := none, loadIndex := 0, firstLoad := true }

/-- The part held in device reset (R184): every block at its device-reset state; the store and the queue of commands are kept. -/
def State.heldInReset (store : List StoreWord) (pending : List Instr) : State :=
  { pending := pending, inReset := true, scr := Scr.deviceReset, sct := Sct.deviceReset, pins := Pins.deviceReset,
    dir := Dir.deviceReset, degrees := List.replicate Config.degrees Degree.deviceReset, spm := Spm.deviceReset,
    org := Org.deviceReset, tdb := Tdb.deviceReset, slots := List.replicate Config.slots Slot.deviceReset, reqQueue := [],
    pen := Pen.deviceReset, lrp := Lrp.deviceReset, ntf := Ntf.deviceReset, psr := Psr.deviceReset store }

/-- The part at the release of a device reset: LOADING, and the load begins (R177, R184). -/
def State.released (s : State) : State :=
  { s with inReset := false, psr := { s.psr with loadTimer := some Config.loadMs, loadIndex := 0 } }

/-- The machine right after reset: a part as delivered (R175), at the release of its first device reset (R184, log 2). -/
def State.reset : State := (State.heldInReset deliveredStore []).released

end Sys2Proof.Machine
end

