-- ==== Sys2Proof/Machine/Flags.lean ====
section
/-! DEFINITION. Indication positions, status and state codes, and every flag that is computed from the state. -/

namespace Sys2Proof.Machine

/-- Position of an indication in a mask (R185). -/
def Indication.position : Indication → Nat
  | .requestDone => 0
  | .resultInvalid => 1
  | .intentHeld => 2
  | .intentLost => 3
  | .epoch => 4
  | .peerChange => 5
  | .numberChange => 6
  | .degreeChange => 7
  | .marginChange => 8
  | .channelChange => 9
  | .rxDrop => 10
  | .txAbandon => 11
  | .muted => 12
  | .peerIntentFull => 13
  | .storeFault => 14

/-- The mask that names one indication (R185). -/
def Indication.mask (i : Indication) : Mask := 1#16 <<< i.position

/-- A mask names a position that is none of the fifteen indications: position 15 (R171, R172, R185). -/
def namesNoIndication (m : Mask) : Bool := m.getLsbD 15

/-- The byte of a status code (R188). -/
def Status.code : Status → Nat
  | .ok => 0
  | .deferred => 1
  | .badLength => 2
  | .badCommand => 3
  | .badField => 4
  | .badState => 5
  | .badEndpoints => 6
  | .badExclusion => 7
  | .badClass => 8
  | .badRef => 9
  | .tagInUse => 10
  | .noSlot => 11
  | .queueFull => 12
  | .notMember => 13
  | .overlap => 14
  | .pinActive => 15
  | .storeBusy => 16

/-- The byte of a station state (R188). -/
def Station.code : Station → Nat
  | .loading => 0
  | .standby => 1
  | .joining => 2
  | .member => 3
  | .noNumber => 4
  | .faulted => 5

/-- The byte of a channel state (R188). -/
def Channel.code : Channel → Nat
  | .dark => 0
  | .seeking => 1
  | .aligned => 2

/-- The byte of a load outcome (R188). -/
def LoadOutcome.code : LoadOutcome → Nat
  | .clean => 0
  | .corrected => 1
  | .uncorrectable => 2

/-- The byte of a trace state (R188). -/
def Trace.code : Trace → Nat
  | .unequipped => 0
  | .dark => 1
  | .searching _ => 2
  | .traced _ _ _ _ _ => 3

/-- The byte of a filtered level (R188): none 0, deasserted 1, asserted 2. -/
def levelCode : Option Bool → Nat
  | none => 0
  | some false => 1
  | some true => 2

/-- The byte of a monitor state (R188). -/
def Monitor.code : Monitor → Nat
  | .clear => 0
  | .pending _ _ => 1
  | .degraded _ => 2

/-- The byte of a slot state (R188). -/
def SlotState.code : SlotState → Nat
  | .free => 0
  | .queued _ => 1
  | .running _ _ => 2
  | .found _ _ _ => 3
  | .invalid _ _ _ _ => 4
  | .failed _ _ _ _ => 5

/-- The byte of a fail reason (R188). -/
def FailReason.code : FailReason → Nat
  | .noPath => 1
  | .endpointUnknown => 2
  | .refLost => 3

/-- The byte of an invalid reason (R188). -/
def InvalidReason.code : InvalidReason → Nat
  | .spanGone => 4
  | .spanDegraded => 5
  | .channelTaken => 6
  | .budgetExceeded => 7
  | .latencyExceeded => 8
  | .regenGone => 9

/-- The byte of an intent state (R188). -/
def Intent.code : Intent → Nat
  | .none => 0
  | .claiming _ _ _ _ => 1
  | .held _ _ _ => 2
  | .lost _ _ _ => 3

/-- The byte of a lost reason (R188). -/
def LostReason.code : LostReason → Nat
  | .outranked => 1
  | .notSent => 2
  | .renumbered => 3

/-- The byte of a policy (R188). -/
def Policy.code : Policy → Nat
  | .firstFit => 0
  | .leastCost => 1

/-- NOTIFY is asserted exactly when an enabled indication is set (R173). -/
def State.notify (s : State) : Bool := decide (s.ntf.indications &&& s.ntf.enables ≠ 0)

/-- The level of the NOTIFY pin, true high: low while asserted (R183). -/
def State.notifyPin (s : State) : Bool := !s.notify

/-- The own number: the candidate while MEMBER, 255 in every other state (R25). -/
def State.ownNumber (s : State) : Nat :=
  match s.dir.station, s.dir.candidate with
  | .member, some n => n
  | _, _ => Config.noNumber

/-- The part's own unique ID: the working unique ID (R177, R178). -/
def State.ownUid (s : State) : Uid := s.psr.working.uid

/-- The impaired flag: set in DARK and in SEEKING (R8). -/
def State.impaired (s : State) : Bool := decide (s.scr.channel ≠ .aligned)

/-- The SCT transmits in JOINING and MEMBER (R14). -/
def State.transmits (s : State) : Bool := decide (s.dir.station = .joining ∨ s.dir.station = .member)

/-- The DIR takes frames, the trace words are sent and the epoch timer runs in these four states (R20, R36, R85). -/
def State.active (s : State) : Bool :=
  decide (s.dir.station = .standby ∨ s.dir.station = .joining ∨ s.dir.station = .member ∨ s.dir.station = .noNumber)

/-- A command is being taken: its transaction has ended and its response does not yet stand in the buffer (R160). -/
def State.beingTaken (s : State) : Bool := s.lrp.taking

/-- A degree is equipped in every trace state but UNEQUIPPED (3.3). -/
def Trace.equipped : Trace → Bool
  | .unequipped => false
  | _ => true

/-- A degree hears: equipped and in SEARCHING or TRACED (R37). -/
def Trace.hears : Trace → Bool
  | .searching _ => true
  | .traced _ _ _ _ _ => true
  | _ => false

/-- The neighbour identity of a confirmed degree: TRACED with the far-end flag clear (R44). -/
def Trace.confirmedNbr : Trace → Option Identity
  | .traced nbr _ false _ _ => some nbr
  | _ => none

/-- The neighbour identity, held in TRACED only (3.3). -/
def Trace.nbr : Trace → Option Identity
  | .traced nbr _ _ _ _ => some nbr
  | _ => none

/-- What DEGREE_CHANGE watches: trace state, neighbour identity, confirmation (R45). -/
def Trace.watched (t : Trace) : Nat × Option Identity × Option Identity := (t.code, t.nbr, t.confirmedNbr)

/-- A monitor is DEGRADED (R52). -/
def Monitor.isDegraded : Monitor → Bool
  | .degraded _ => true
  | _ => false

/-- The latch-held flag; it is set in DEGRADED only (R57). -/
def Monitor.latchHeld : Monitor → Bool
  | .degraded h => h
  | _ => false

/-- A standing intent: CLAIMING or HELD (R145). -/
def Intent.stands : Intent → Bool
  | .claiming _ _ _ _ => true
  | .held _ _ _ => true
  | _ => false

/-- An intent is HELD (R107, R109). -/
def Intent.isHeld : Intent → Bool
  | .held _ _ _ => true
  | _ => false

/-- The pair list an intent holds (R145). -/
def Intent.pairs : Intent → List Pair
  | .none => []
  | .claiming _ ps _ _ => ps
  | .held _ ps _ => ps
  | .lost _ _ ps => ps

/-- The priority an intent holds; absent in NONE and sent as 0 (R145, R188). -/
def Intent.priority : Intent → Nat
  | .none => 0
  | .claiming p _ _ _ => p
  | .held p _ _ => p
  | .lost _ p _ => p

/-- The pairs of a standing intent, none otherwise (R125, R147). -/
def Intent.standingPairs (i : Intent) : List Pair := if i.stands then i.pairs else []

/-- The tag a slot holds, in every state except FREE (R97). -/
def SlotState.tag : SlotState → Option Nat
  | .free => none
  | .queued j => some j.tag
  | .running j _ => some j.tag
  | .found j _ _ => some j.tag
  | .invalid j _ _ _ => some j.tag
  | .failed j _ _ _ => some j.tag

/-- A slot is FREE. -/
def SlotState.isFree : SlotState → Bool
  | .free => true
  | _ => false

/-- A slot is QUEUED. -/
def SlotState.isQueued : SlotState → Bool
  | .queued _ => true
  | _ => false

/-- A slot is RUNNING. -/
def SlotState.isRunning : SlotState → Bool
  | .running _ _ => true
  | _ => false

/-- The hop list of a FOUND or INVALID slot (R95). -/
def SlotState.hops : SlotState → Option (List Hop)
  | .found _ _ r => some r.hops
  | .invalid _ _ r _ => some r.hops
  | _ => none

/-- Some slot is RUNNING (R86, R100). -/
def State.anyRunning (s : State) : Bool := s.slots.any fun x => x.state.isRunning

/-- The unique ID of a directory entry (R19). -/
def DirEntry.uid : DirEntry → Uid
  | .peer u _ => u
  | .own u => u

/-- The own flag of a directory entry (R19). -/
def DirEntry.isOwn : DirEntry → Bool
  | .peer _ _ => false
  | .own _ => true

/-- The echo check is open: SEND with no outcome yet, or ECHO (R12). -/
def Service.checkOpen (v : Service) : Bool :=
  match v.phase with
  | .wait _ => false
  | .send d => d.isNone
  | .echo _ => true

/-- SCTX: the levels of the transmit line in SEND, two for each bit of the frame; none while it is dark (R1, R12, R183). -/
def State.scTx (s : State) : Option (List Bool) :=
  match s.sct.service with
  | some v => match v.phase with
    | .send _ => some (manchester (lineBits v.bytes))
    | _ => none
  | none => none

/-- TRTX: the levels of a degree's trace line while a word is on it; none while it is dark (R34, R36, R183). -/
def Degree.trTx (x : Degree) : Option (List Bool) := x.txWord.map fun w => manchester (bitsMsb w)

/-- A sequence number is newer than the held one (00 Conventions, R73). -/
def newerSeq (held received : BitVec 16) : Bool := decide (1 ≤ (received - held).toNat ∧ (received - held).toNat ≤ 32767)

end Sys2Proof.Machine
end

