-- ==== Sys2Proof/Machine/Ops.lean ====
section
/-! DEFINITION. The operations the blocks share: tables, timers, saturation, indications, responses of the request port. -/

namespace Sys2Proof.Machine

/-- The place `i` of a table; an index outside it reads as empty. -/
def place {α : Type} (table : List (Option α)) (i : Nat) : Option α := (table[i]?).getD none

/-- A saturating sum (R117). -/
def satAdd (ceiling a b : Nat) : Nat := if ceiling < a + b then ceiling else a + b

/-- One millisecond off a running timer; a timer at 0 is due and waits for its row (log 14). -/
def tickTimer : Timer → Timer
  | none => none
  | some n => some (n - 1)

/-- Whole seconds left, rounded up: a timer of whole seconds (R19, R83). -/
def wholeSeconds (ms : Nat) : Nat := (ms + 999) / 1000

/-- Removes the first element that passes a test. -/
def removeFirst {α : Type} (p : α → Bool) : List α → List α
  | [] => []
  | x :: xs => if p x then xs else x :: removeFirst p xs

/-- Replaces the first element that passes a test, in place. -/
def replaceFirst {α : Type} (p : α → Bool) (y : α) : List α → List α
  | [] => []
  | x :: xs => if p x then y :: xs else x :: replaceFirst p y xs

/-- The last `n` elements. -/
def lastN {α : Type} (n : Nat) (l : List α) : List α := l.drop (l.length - n)

/-- An indication is raised: set whether it was clear or set before (R170). -/
def raise (i : Indication) (s : State) : State :=
  { s with ntf := { s.ntf with indications := s.ntf.indications ||| i.mask } }

/-- An indication raised when a condition holds. -/
def raiseIf (c : Bool) (i : Indication) (s : State) : State := if c then raise i s else s

/-- A row acts only while the part is not held in device reset: "every block holds its device-reset state" (R184). -/
def live (f : State → State) (s : State) : State := if s.inReset then s else f s

/-- The response of a command replaces the whole response buffer; its number is one more (R162). The command has been taken, and the
command buffer is emptied (R160). -/
def respond (command : Byte) (status : Status) (clamped : Bool) (payload : List Byte) (s : State) : State :=
  { s with lrp := { s.lrp with commandBuffer := [], taking := false, command := command, number := s.lrp.number + 1,
                               status := status, clamped := clamped, payload := payload } }

/-- OK with a payload. -/
def respondOk (command : Byte) (payload : List Byte) (s : State) : State := respond command .ok false payload s

/-- A refusal: it carries no payload and changes nothing else (R161, R162). -/
def refuse (command : Byte) (status : Status) (s : State) : State := respond command status false [] s

/-- Data-out carries 0 through the `n` bytes of a command transaction (R159). -/
def clockZeros (n : Nat) (s : State) : State := { s with lrp := { s.lrp with dataOut := List.replicate n 0 } }

/-- A transaction is ignored: the command buffer is emptied, the response buffer stands (R160). -/
def ignore (s : State) : State := { s with lrp := { s.lrp with commandBuffer := [] } }

/-- A command transaction of `n` bytes ends (R159, R160): in device reset the LRP takes none, while a command is being taken it is
ignored; otherwise it is taken. -/
def endTransaction (n : Nat) (act : State → State) (s : State) : State :=
  let s := clockZeros n s
  if s.inReset then s else if s.beingTaken then ignore s else act s

/-- A command transaction that is taken (R161): the length checks are made first, before a FORCE EPOCH waits for a transfer
(DESIGN CHOICE, log 25), and the command acts on its payload. `rest` is the length byte and the payload. -/
def takeCommand (command : Byte) (lengthAgrees : List Byte → Bool) (rest : List Byte) (act : List Byte → State → State)
    (s : State) : State :=
  endTransaction (rest.length + 1) (fun s =>
    match rest with
    | [] => refuse command .badLength s
    | len :: payload =>
      if payload.length = len.toNat ∧ lengthAgrees payload = true then act payload s
      else refuse command .badLength s) s

/-- The fixed payload length of a command (R161, R188). -/
def hasLength (n : Nat) (payload : List Byte) : Bool := decide (payload.length = n)

/-- The slot `i`. -/
def State.slot (s : State) (i : Nat) : Option Slot := s.slots[i]?

/-- The record of the slot `i`. -/
def State.slotState (s : State) (i : Nat) : Option SlotState :=
  match s.slots[i]? with
  | some x => some x.state
  | none => none

/-- Sets the record of a slot, leaving its intent. -/
def setSlotState (i : Nat) (st : SlotState) (s : State) : State :=
  { s with slots := s.slots.modify i fun x => { x with state := st } }

/-- Sets the intent part of a slot, leaving its record. -/
def setIntent (i : Nat) (t : Intent) (s : State) : State :=
  { s with slots := s.slots.modify i fun x => { x with intent := t } }

/-- Frees a slot: tag, request, outcome and totals are cleared and its intent is NONE (R95, R96, R103). -/
def freeSlot (i : Nat) (s : State) : State :=
  { s with slots := s.slots.modify i fun _ => { state := .free, intent := .none } }

/-- Sets the trace record of a degree. -/
def setDegree (d : Nat) (x : Degree) (s : State) : State := { s with degrees := s.degrees.set d x }

/-- Sets the span-monitor values of a degree. -/
def setSpmDegree (d : Nat) (x : SpmDegree) (s : State) : State := { s with spm := { s.spm with degrees := s.spm.degrees.set d x } }

/-- The report a station-report table holds under a number. -/
def reportUnder (table : List (Option StationReport)) (n : Nat) : Option Report := (place table n).map fun x => x.report

/-- The directory entry under a number; a number with one is held (R19). -/
def State.entry (s : State) (n : Nat) : Option DirEntry := place s.dir.entries n

/-- The number under which the directory holds a unique ID (R19: at most one). -/
def State.numberOf (s : State) (u : Uid) : Option Nat :=
  s.dir.entries.findIdx? fun e => (e.map DirEntry.uid) == some u

/-- The filtered LOL level of a degree: the level the pin filter has accepted (R38). -/
def State.lolLevel (s : State) (d : Nat) : Option Bool := (s.pins.lol[d]?).bind fun p => p.accepted

/-- The class entry of a class (R113); a class outside 0 to 7 reads as an unusable one. -/
def State.classOf (s : State) (c : Nat) : ClassEntry := (s.psr.working.classes[c]?).getD (defaultClass 1)

/-- The monitor parameters of a degree (R53). -/
def State.monitorParams (s : State) (d : Nat) : MonitorParams := (s.psr.working.degrees[d]?).getD defaultMonitor

/-- The pairs every standing own intent holds, on every slot other than `i` (R107, R125, R147). -/
def State.otherIntentPairs (s : State) (i : Nat) : List Pair :=
  (s.slots.zipIdx.filter fun x => x.2 != i).flatMap fun x => x.1.intent.standingPairs

end Sys2Proof.Machine
end

