-- ==== Sys2Proof/Machine/Operands.lean ====
section
/-! DEFINITION. The operand forms of the request port: payloads of commands (R49, R98, R188). -/

namespace Sys2Proof.Machine

/-- The byte at an offset of a payload; checked lengths make it present. -/
def payloadByte (p : List Byte) (i : Nat) : Nat := field p i 1

/-- A table selector (R166, R188): STAGING 0, ACTIVE 1; any other is refused. -/
inductive Table where
  | staging | active
  deriving DecidableEq, Repr

/-- The selector a byte names. -/
def selectTable (n : Nat) : Option Table :=
  if n = 0 then some .staging else if n = 1 then some .active else none

/-- The values of one WRITE NODE REPORT for one degree (R49, R188). -/
structure NodeDegreeValues where
  lit     : ChannelSet
  cost    : Nat
  latency : Nat
  deriving DecidableEq, Repr

/-- A WRITE NODE REPORT payload (R49, R188). -/
structure NodeReport where
  enable    : BitVec 32
  degrees   : List NodeDegreeValues
  passNoise : Nat
  regens    : Nat
  deriving DecidableEq, Repr

/-- Reads a WRITE NODE REPORT payload of 112 bytes (R188). -/
def decodeNodeReport (p : List Byte) : NodeReport :=
  { enable := BitVec.ofNat 32 (field p 0 4)
    degrees := (List.range Config.degrees).map fun d =>
      { lit := BitVec.ofNat 64 (field p (4 + 13 * d) 8)
        cost := field p (12 + 13 * d) 2
        latency := field p (14 + 13 * d) 3 }
    passNoise := field p 108 3
    regens := field p 111 1 }

/-- The enable set names a position that is none of the 26 fields: positions 26 to 31 (R49, R188). -/
def NodeReport.namesNoField (r : NodeReport) : Bool := decide (r.enable.extractLsb' 26 6 ≠ 0)

/-- Presence byte of a SUBMIT payload (R188). -/
def submitPresence (p : List Byte) : Nat := payloadByte p 7
/-- A hint byte is marked (R188). -/
def submitHasHint (p : List Byte) : Bool := (submitPresence p).testBit 0
/-- A diverse-from index byte is marked (R188). -/
def submitHasDiverse (p : List Byte) : Bool := (submitPresence p).testBit 1
/-- The exclusion count of the presence byte (R188). -/
def submitCount (p : List Byte) : Nat := submitPresence p / 16

/-- The length of a SUBMIT payload agrees with its presence byte (R98 check 1, R188). -/
def submitLength (p : List Byte) : Bool :=
  decide (8 ≤ p.length) &&
    decide (p.length = 8 + (submitHasHint p).toNat + (submitHasDiverse p).toNat + 2 * submitCount p)

/-- Offset of the first exclusion item (R188). -/
def submitItemsAt (p : List Byte) : Nat := 8 + (submitHasHint p).toNat + (submitHasDiverse p).toNat

/-- The exclusion items as carried: station number and degree byte (R188). -/
def submitItems (p : List Byte) : List (Nat × Nat) :=
  (List.range (submitCount p)).map fun i =>
    (payloadByte p (submitItemsAt p + 2 * i), payloadByte p (submitItemsAt p + 2 * i + 1))

/-- The hint as carried. -/
def submitHint (p : List Byte) : Option Nat := if submitHasHint p then some (payloadByte p 8) else none

/-- The diverse-from index as carried; it follows the hint byte when that is marked (R188). -/
def submitDiverse (p : List Byte) : Option Nat :=
  if submitHasDiverse p then some (payloadByte p (8 + (submitHasHint p).toNat)) else none

/-- An item whose degree byte is 255 is a station item, any other an end item (R188). -/
def decodeExclusion (item : Nat × Nat) : Exclusion :=
  if item.2 = 255 then .station item.1 else .atEnd { station := item.1, degree := item.2 }

/-- Check 3 of R98: a field of the SUBMIT payload is out of range. -/
def submitFieldBad (p : List Byte) : Bool :=
  decide (payloadByte p 0 = 0) || decide (47 < payloadByte p 1) || decide (47 < payloadByte p 2) || decide (7 < payloadByte p 3)
    || decide (1 < payloadByte p 4) || decide (7 < payloadByte p 6)
    || (submitHint p).any (fun h => decide (63 < h)) || decide (4 < submitCount p)
    || (submitItems p).any (fun x => decide (47 < x.1) || (decide (7 < x.2) && decide (x.2 ≠ 255)))
    || (submitDiverse p).any (fun i => decide (7 < i))

/-- The request of a SUBMIT payload whose fields are in range (R98, R188). -/
def submitRequest (p : List Byte) : Request :=
  { source := payloadByte p 1
    destination := payloadByte p 2
    cls := payloadByte p 3
    policy := if payloadByte p 4 = 0 then .firstFit else .leastCost
    allowDegraded := (payloadByte p 5).testBit 0
    allowRegen := (payloadByte p 5).testBit 1
    avoidImpaired := (payloadByte p 5).testBit 2
    priority := payloadByte p 6
    hint := submitHint p
    exclusions := (submitItems p).map decodeExclusion
    diverse := submitDiverse p }

/-- Check 5 of R98: a station item names the source or the destination. -/
def Request.excludesEndpoint (r : Request) : Bool :=
  r.exclusions.any fun x => match x with
    | .station n => decide (n = r.source ∨ n = r.destination)
    | .atEnd _ => false

/-- A mask of indication positions (R185). -/
def decodeMask (p : List Byte) : Mask := BitVec.ofNat 16 (field p 0 2)

/-- The 32 data bits of WRITE STORE WORD (R188). -/
def decodeStoreData (p : List Byte) : Word := BitVec.ofNat 32 (field p 1 4)

end Sys2Proof.Machine
end

