-- ==== Sys2Proof/Machine/Sct.lean ====
section
/-! DEFINITION. The transmit queue, what the INT does with the SCT's reports, the frame in service, and mute (R9 to R16, R148 to R151). -/

namespace Sys2Proof.Machine

/-- A CLAIM. -/
def Body.isClaim : Body → Bool
  | .claim _ _ => true
  | _ => false

/-- A REPORT. -/
def Body.isReport : Body → Bool
  | .report _ => true
  | _ => false

/-- An INTENT of the intent id `i`. -/
def Body.isIntentOf (i : Nat) : Body → Bool
  | .intent id _ _ => id == i
  | _ => false

/-- An INTENT or a RELEASE: one class of R10. -/
def Body.isIntentClass : Body → Bool
  | .intent _ _ _ => true
  | .release _ => true
  | _ => false

/-- What became of a frame handed over (R9). -/
inductive HandOver where
  | queued
  | droppedQuietly
  | abandoned
  deriving DecidableEq, Repr

/-- Checks 5 to 8 of R9. -/
def enqueueNew (queue : List Body) (f : Body) : List Body × HandOver :=
  if queue.length < Config.txDepth then (queue ++ [f], .queued)
  else if f.isReport then (queue, .droppedQuietly)
  else if queue.any Body.isReport then (removeFirst Body.isReport queue ++ [f], .queued)
  else (queue, .abandoned)

/-- The ordered checks of R9. The queue is in age order; a frame that replaces another keeps its place. -/
def enqueue (queue : List Body) (f : Body) : List Body × HandOver :=
  match f with
  | .claim _ _ =>
    if queue.any Body.isClaim then (replaceFirst Body.isClaim f queue, .queued) else enqueueNew queue f
  | .report _ =>
    if queue.any Body.isReport then (replaceFirst Body.isReport f queue, .queued) else enqueueNew queue f
  | .intent id _ _ =>
    if queue.any (Body.isIntentOf id) then (replaceFirst (Body.isIntentOf id) f queue, .queued) else enqueueNew queue f
  | .release id =>
    if queue.any (Body.isIntentOf id) then (removeFirst (Body.isIntentOf id) queue ++ [f], .queued) else enqueueNew queue f

/-- Sets the transmit queue. -/
def setTxQueue (q : List Body) (s : State) : State := { s with sct := { s.sct with queue := q } }

/-- Sets the outstanding-echo record. -/
def setService (v : Option Service) (s : State) : State := { s with sct := { s.sct with service := v } }

/-- A CLAIM, REPORT or RELEASE is handed to the SCT (R9). In the other station states it is discarded without indication. -/
def handOverPlain (f : Body) (s : State) : State :=
  if s.transmits then
    raiseIf ((enqueue s.sct.queue f).2 == .abandoned) .txAbandon (setTxQueue (enqueue s.sct.queue f).1 s)
  else s

/-- An own intent that stands becomes LOST; its timers stop and INTENT_LOST is raised (R151, R153, R156). -/
def loseIntent (i : Nat) (why : LostReason) (s : State) : State :=
  match s.slot i with
  | some x => if x.intent.stands then raise .intentLost (setIntent i (.lost why x.intent.priority x.intent.pairs) s) else s
  | none => s

/-- A report of the SCT matches the intent of its slot (R149). -/
def reportMatches (i priority : Nat) (pairs : List Pair) (s : State) : Bool :=
  match s.slot i with
  | some x => x.intent.stands && x.intent.priority == priority && x.intent.pairs == pairs
  | none => false

/-- A not-sent report (R151): a matching intent becomes LOST, NOT_SENT, and a RELEASE is handed over. -/
def notSent (i priority : Nat) (pairs : List Pair) (s : State) : State :=
  if reportMatches i priority pairs s then handOverPlain (.release i) (loseIntent i .notSent s) else s

/-- A frame is handed to the SCT (R9); an INTENT dropped from a full queue is reported to the INT as not sent. -/
def handOver (f : Body) (s : State) : State :=
  let t := handOverPlain f s
  match f with
  | .intent i priority pairs =>
    if s.transmits && (enqueue s.sct.queue f).2 == .abandoned then notSent i priority pairs t else t
  | _ => t

/-- A completion report (R149): it starts the stopped window timer of a matching CLAIMING intent. -/
def completionReport (i priority : Nat) (pairs : List Pair) (s : State) : State :=
  match s.slot i with
  | some x =>
    match x.intent with
    | .claiming p ps none refresh =>
      if p = priority ∧ ps = pairs then setIntent i (.claiming p ps (some Config.windowMs) refresh) s else s
    | _ => s
  | none => s

/-- The INT announces a standing intent (R148). -/
def announce (i : Nat) (s : State) : State :=
  match s.slot i with
  | some x => if x.intent.stands then handOver (.intent i x.intent.priority x.intent.pairs) s else s
  | none => s

/-- A RELEASE frame for an intent id is handed over (R151, R153, R155, R156). -/
def announceRelease (i : Nat) (s : State) : State := handOverPlain (.release i) s

/-- The refresh period of an intent, ms (R150). -/
def State.intentPeriod (s : State) : Nat := 1000 * Nat.max 1 (s.psr.working.lifetime / 3)

/-- The SCT takes the first frame in class order, the oldest within its class (R10): that frame, and the queue without it. -/
def nextInClass (queue : List Body) : Option (Body × List Body) :=
  match queue.find? Body.isClaim with
  | some f => some (f, removeFirst Body.isClaim queue)
  | none =>
    match queue.find? Body.isIntentClass with
    | some f => some (f, removeFirst Body.isIntentClass queue)
    | none => (queue.find? Body.isReport).map fun f => (f, removeFirst Body.isReport queue)

/-- The header the SCT fills for a frame entering service (R10): own unique ID, own number (255 in JOINING), lifetime. -/
def State.fillFrame (s : State) (body : Body) : Frame :=
  { uid := s.ownUid, number := s.ownNumber, lifetime := 4 * s.psr.working.refresh, body := body }

/-- WAIT from its start (R11): the gap of 1 + b slots runs when the line is dark and the mute flag is clear. -/
def State.startWait (s : State) (v : Service) : Service :=
  { v with phase := .wait (if s.scr.carrier || s.sct.mute then none else some ((1 + v.backoff) * Config.slotMs)) }

/-- The queue is emptied and the frame in service discarded; no TX_ABANDON and no report results (R14, R18). -/
def clearSct (s : State) : State := setService none (setTxQueue [] s)

/-- A CLAIM was abandoned, or cut off by mute (R27): in JOINING a new CLAIM for the candidate is handed over. -/
def claimAbandoned (s : State) : State :=
  match s.dir.station, s.dir.candidate with
  | .joining, some c => handOverPlain (.claim c modeJoining) s
  | _, _ => s

/-- A CLAIM was completed (R27): the claim-round timer starts when it names the candidate in JOINING. With the mute
flag set the timer stands at its start, for no round is timed then: DESIGN CHOICE, log 26. -/
def claimCompleted (requested : Nat) (s : State) : State :=
  if s.dir.station = .joining ∧ s.dir.candidate = some requested then
    { s with dir := { s.dir with roundTimer := some Config.roundMs } }
  else s

/-- The SCT reports that a frame was not sent: an INTENT to the INT, a CLAIM to the DIR (R13, R16). -/
def reportNotSent (f : Body) (s : State) : State :=
  match f with
  | .intent i priority pairs => notSent i priority pairs s
  | .claim _ _ => claimAbandoned s
  | _ => s

/-- An attempt is completed (R12): the frame leaves service and its completion is reported. -/
def completeAttempt (v : Service) (s : State) : State :=
  let t := setService none s
  match v.body with
  | .claim requested _ => claimCompleted requested t
  | .intent i priority pairs => completionReport i priority pairs t
  | _ => t

/-- The backoff drawn after the failed attempt `a` (R13): a free value from 0 to 2^min(a, 6) - 1. -/
def State.drawBackoff (s : State) (a : Nat) : Nat := Config.backoffDraw s.sct.seed s.sct.draws a % 2 ^ Nat.min a 6

/-- An attempt has failed (R13): the frame is abandoned at the eighth, or waits again with a new backoff. -/
def failAttempt (v : Service) (s : State) : State :=
  if Config.attempts ≤ v.attempts + 1 then reportNotSent v.body (raise .txAbandon (setService none s))
  else
    let w := s.startWait { v with attempts := v.attempts + 1, backoff := s.drawBackoff (v.attempts + 1) }
    { s with sct := { s.sct with service := some w, draws := s.sct.draws + 1 } }

/-- A decided attempt takes its outcome (R12, R13). -/
def resolveAttempt (completed : Bool) (v : Service) (s : State) : State :=
  if completed then completeAttempt v s else failAttempt v s

/-- An episode decides the attempt while the check is open (R12): in SEND the outcome waits for the end of SEND. -/
def decideAttempt (completed : Bool) (s : State) : State :=
  match s.sct.service with
  | some v =>
    match v.phase with
    | .send none => setService (some { v with phase := .send (some completed) }) s
    | .echo _ => resolveAttempt completed v s
    | _ => s
  | none => s

/-- What the mute flag does to the frame in service when it becomes set (R16). -/
def muteService (s : State) : State :=
  match s.sct.service with
  | some v =>
    match v.phase with
    | .wait _ => setService (some { v with phase := .wait none }) s
    | .send _ => reportNotSent v.body (setService none s)
    | .echo _ => s
  | none => s

/-- The mute flag is set; MUTED is raised when it was clear (R15, R16). -/
def setMute (s : State) : State :=
  if s.sct.mute then s else muteService (raise .muted { s with sct := { s.sct with mute := true } })

/-- The mute flag is cleared; a suspended WAIT begins again from its start (R11, R15). -/
def unmute (s : State) : State :=
  if s.sct.mute then
    let t := { s with sct := { s.sct with mute := false } }
    match t.sct.service with
    | some v => match v.phase with
      | .wait _ => setService (some (t.startWait v)) t
      | _ => t
    | none => t
  else s

/-- The frame in service enters SEND when its quiet gap has passed (R11). -/
def enterSend (s : State) : State :=
  match s.sct.service with
  | some v =>
    match v.phase with
    | .wait (some _) =>
      if s.scr.carrier = false ∧ s.sct.mute = false ∧ s.transmits = true then
        setService (some { v with phase := .send none }) s
      else s
    | _ => s
  | none => s

/-- A frame enters service when the conditions of R10 hold. -/
def takeService (s : State) : State :=
  if s.sct.service = none ∧ s.transmits = true ∧ s.sct.mute = false then
    match nextInClass s.sct.queue with
    | some (f, rest) =>
      let v : Service := { body := f, bytes := delimiter :: encodeFrame (s.fillFrame f), attempts := 0, backoff := 0,
                           phase := .wait none }
      setService (some (s.startWait v)) (setTxQueue rest s)
    | none => s
  else s

/-- SEND ends (R12): a decided outcome takes effect, otherwise the frame enters ECHO. -/
def endSend (s : State) : State :=
  match s.sct.service with
  | some v =>
    match v.phase with
    | .send (some completed) => resolveAttempt completed v s
    | .send none => setService (some { v with phase := .echo Config.echoMs }) s
    | _ => s
  | none => s

/-- The echo check closes with no deciding episode: the attempt fails (R12). -/
def closeEcho (s : State) : State :=
  match s.sct.service with
  | some v =>
    match v.phase with
    | .echo _ => failAttempt v s
    | _ => s
  | none => s

/-- TAKE_INTO_SERVICE (R10). -/
def execTakeIntoService (s : State) : Host.Outcome State Fault Refusal := .next (live takeService s)

/-- QUIET_GAP_EXPIRY (R11). -/
def execQuietGapExpiry (s : State) : Host.Outcome State Fault Refusal := .next (live enterSend s)

/-- SEND_END (R12). -/
def execSendEnd (s : State) : Host.Outcome State Fault Refusal := .next (live endSend s)

/-- ECHO_CHECK_CLOSE (R12). -/
def execEchoCheckClose (s : State) : Host.Outcome State Fault Refusal := .next (live closeEcho s)

end Sys2Proof.Machine
end

