-- ==== Sys2Proof/Machine/Search.lean ====
section
/-! DEFINITION. The path search: graph, free channels, labels, keys, frontier, one settlement, the hop list (R112 to R142). -/

namespace Sys2Proof.Machine

/-- What a search reads and does not change (R123): active view, request, class entry, the two copies. -/
structure SearchEnv where
  tdb      : Tdb
  req      : Request
  cls      : ClassEntry
  diverse  : List End
  ownPairs : List Pair

/-- The far end of a span whose one end is `e` (R126). -/
def Span.across (sp : Span) (e : End) : Option End :=
  if sp.low = e then some sp.high else if sp.high = e then some sp.low else none

/-- The span that stands at an end, with its far end (R91, R126): each end belongs to at most one span. -/
def spanAt (spans : List Span) (e : End) : Option (End × Span) :=
  spans.findSome? fun sp => (sp.across e).map fun far => (far, sp)

/-- The (span, channel) pair of a span (R92). -/
def Span.pair (sp : Span) (k : Nat) : Pair := { station := sp.low.station, degree := sp.low.degree, channel := k }

/-- Tests 1 and 2 of R107 and R128: both end stations can carry the channel, and the class allows it. -/
def channelCarried (t : Tdb) (cls : ClassEntry) (sp : Span) (k : Nat) : Bool :=
  ((reportUnder t.active sp.low.station).any fun r => r.capability.getLsbD k)
    && ((reportUnder t.active sp.high.station).any fun r => r.capability.getLsbD k)
    && cls.channels.getLsbD k

/-- An active peer-intent entry that passes `counts` holds the pair (R93). -/
def peerHolds (t : Tdb) (counts : PeerIntent → Bool) (pair : Pair) : Bool :=
  t.activeIntents.any fun x => x.any fun e => counts e && e.pairs.contains pair

/-- A channel is free on a span for the search (R128). -/
def SearchEnv.free (env : SearchEnv) (sp : Span) (k : Nat) : Bool :=
  channelCarried env.tdb env.cls sp k && !sp.lit.getLsbD k && !peerHolds env.tdb (fun _ => true) (sp.pair k)
    && !env.ownPairs.contains (sp.pair k)

/-- A span is excluded from the search (R126). -/
def SearchEnv.spanExcluded (env : SearchEnv) (sp : Span) : Bool :=
  (sp.degraded && !env.req.allowDegraded)
    || (env.req.exclusions.contains (.atEnd sp.low) || env.req.exclusions.contains (.atEnd sp.high))
    || (env.diverse.contains sp.low || env.diverse.contains sp.high)

/-- A station is excluded from the search; the source and the destination never are (R127). -/
def SearchEnv.stationExcluded (env : SearchEnv) (w : Nat) : Bool :=
  w != env.req.source && w != env.req.destination
    && (env.req.exclusions.contains (.station w)
      || (env.req.avoidImpaired && (reportUnder env.tdb.active w).any fun r => r.impaired))

/-- The usable, non-excluded spans that leave a station, in ascending order of the leaving degree (R126, R134). -/
def SearchEnv.leaving (env : SearchEnv) (v : Nat) : List (Nat × End × Span) :=
  (List.range Config.degrees).filterMap fun d =>
    match spanAt env.tdb.spans { station := v, degree := d } with
    | some (far, sp) => if env.spanExcluded sp then none else some (d, far, sp)
    | none => none

/-- A regeneration label: its predecessor has no leaving degree (R130). -/
def Label.isRegen (l : Label) : Bool := l.pred.any fun p => p.degree.isNone

/-- A label starts its segment: the source label, or the regeneration label of its station (R114). -/
def Label.startsSegment (l : Label) : Bool := l.pred.isNone || l.isRegen

/-- The pass-through term of a station for a class (R114). -/
def passTerm (t : Tdb) (cls : ClassEntry) (v : Nat) : Nat :=
  match reportUnder t.active v with
  | some r => r.passNoise + (if r.domain = cls.home then 0 else cls.penalty)
  | none => 0

/-- The label of an extension from a settled label over a span on channel `k` (R115, R130, R135). -/
def SearchEnv.extend (env : SearchEnv) (e : Reached) (d : Nat) (sp : Span) (k : Nat) : Label :=
  let l := e.label
  let crossed := if l.startsSegment then l.noise else satAdd Config.sumMax l.noise (passTerm env.tdb env.cls e.state.station)
  { cost := satAdd Config.costMax l.cost sp.cost
    noise := satAdd Config.sumMax crossed sp.noise
    passes := if l.startsSegment then l.passes else l.passes + 1
    latency := satAdd Config.sumMax l.latency sp.latency
    regens := l.regens
    hops := l.hops + 1
    first := match l.pred with
      | none => some k
      | some _ => l.first
    pred := some { station := e.state.station, channel := e.state.channel, degree := some d } }

/-- The regeneration label offered at a settled label (R116, R138). -/
def SearchEnv.regenerate (env : SearchEnv) (e : Reached) : Label :=
  { e.label with cost := satAdd Config.costMax e.label.cost env.cls.regenCost
                 noise := 0
                 passes := 0
                 regens := e.label.regens + 1
                 pred := some { station := e.state.station, channel := e.state.channel, degree := none } }

/-- The label a SETTLED state holds. -/
def settledAt (settled : List Reached) (st : SearchState) : Option Reached := settled.find? fun x => x.state == st

/-- The predecessor chain of a label (R130): itself, its predecessor, and so on back to the source label. -/
def chain (settled : List Reached) : Nat → Reached → List Reached
  | 0, e => [e]
  | n + 1, e =>
    match e.label.pred with
    | none => [e]
    | some p =>
      match settledAt settled { station := p.station, channel := p.channel } with
      | some e' => e :: chain settled n e'
      | none => [e]

/-- The chain of a label in a label table; a chain is no longer than the table. -/
def Pen.chainOf (x : Pen) (e : Reached) : List Reached := chain x.settled x.settled.length e

/-- The channel rank (R132). -/
def channelRank (hint : Option Nat) (k : Nat) : Nat :=
  if k = Config.anyChannel then 65
  else match hint with
    | some h => if k = h then 0 else k + 1
    | none => k

/-- The rank of a first-segment channel; none ranks as ANY (R132). -/
def firstRank (hint first : Option Nat) : Nat := channelRank hint (first.getD Config.anyChannel)

/-- The key of a label (R133), component by component; a leaving degree of none ranks after 7, an absent predecessor after 47. -/
def key (req : Request) (x : Reached) : List Nat :=
  let l := x.label
  let station := match l.pred with
    | some p => p.station
    | none => Config.stations
  let degree := match l.pred.bind fun p => p.degree with
    | some d => d
    | none => Config.degrees
  match req.policy with
  | .leastCost => [l.cost, l.regens, l.noise, l.latency, channelRank req.hint x.state.channel, station, degree]
  | .firstFit =>
    [firstRank req.hint l.first, l.cost, l.regens, l.noise, l.latency, station, degree, channelRank req.hint x.state.channel]

/-- Keys are compared component by component; the lower value is the better key (R133). -/
def better : List Nat → List Nat → Bool
  | [], [] => false
  | [], _ :: _ => true
  | _ :: _, [] => false
  | a :: as, b :: bs => if a < b then true else if b < a then false else better as bs

/-- A label is better than another by the request's policy. -/
def SearchEnv.better (env : SearchEnv) (x y : Reached) : Bool := Machine.better (key env.req x) (key env.req y)

/-- The frontier with a reference placed at the position its key gives (R131). -/
def SearchEnv.insert (env : SearchEnv) (x : Reached) : List Reached → List Reached
  | [] => [x]
  | y :: ys => if env.better x y then x :: y :: ys else y :: env.insert x ys

/-- The last entry of the frontier: the worst (R131). -/
def worst (frontier : List Reached) : Option Reached := frontier.getLast?

/-- A new label meets the place of its state (R137); entry to a full frontier is by eviction (R139). -/
def SearchEnv.offer (env : SearchEnv) (x : Reached) (p : Pen) : Pen :=
  if (settledAt p.settled x.state).isSome then p
  else
    match p.frontier.find? fun y => y.state == x.state with
    | some y =>
      if env.better x y then { p with frontier := env.insert x (removeFirst (fun z => z.state == x.state) p.frontier) } else p
    | none =>
      if p.frontier.length < Config.frontierDepth then { p with frontier := env.insert x p.frontier }
      else
        match worst p.frontier with
        | some y =>
          if env.better x y then { p with frontier := env.insert x p.frontier.dropLast, pruned := true }
          else { p with pruned := true }
        | none => p

/-- The checks of R136: the extension is refused when one applies. -/
def SearchEnv.refuses (env : SearchEnv) (stations : List Nat) (w : Nat) (l : Label) : Bool :=
  (stations.contains w || env.stationExcluded w)
    || decide (Config.maxHops < l.hops)
    || decide (env.cls.budget < l.noise)
    || decide (env.cls.maxPasses < l.passes)
    || (decide (env.cls.maxLatency ≠ 0) && decide (env.cls.maxLatency < l.latency))

/-- The channels an extension tries (R135): every free channel from ANY, the label's own channel otherwise. -/
def SearchEnv.tried (env : SearchEnv) (e : Reached) (sp : Span) : List Nat :=
  if e.state.channel = Config.anyChannel then (List.range 64).filter (env.free sp)
  else if env.free sp e.state.channel then [e.state.channel] else []

/-- The extensions from a settled label over one span (R135 to R137). -/
def SearchEnv.extendOver (env : SearchEnv) (e : Reached) (stations : List Nat) (p : Pen) (way : Nat × End × Span) : Pen :=
  (env.tried e way.2.2).foldl (fun p k =>
    let l := env.extend e way.1 way.2.2 k
    if env.refuses stations way.2.1.station l then p
    else env.offer { state := { station := way.2.1.station, channel := k }, label := l } p) p

/-- The conditions under which a settled label offers a regeneration (R138). -/
def SearchEnv.mayRegenerate (env : SearchEnv) (e : Reached) : Bool :=
  decide (e.state.channel ≠ Config.anyChannel) && decide (e.state.station ≠ env.req.source)
    && decide (e.state.station ≠ env.req.destination) && env.req.allowRegen
    && ((reportUnder env.tdb.active e.state.station).any fun r => decide (1 ≤ r.regens))
    && decide (e.label.regens < Config.maxRegens)

/-- The regeneration offered at a settled label (R138). -/
def SearchEnv.offerRegen (env : SearchEnv) (e : Reached) (p : Pen) : Pen :=
  if env.mayRegenerate e then
    env.offer { state := { station := e.state.station, channel := Config.anyChannel }, label := env.regenerate e } p
  else p

/-- The work of a settlement that does not end at the destination (R134): extensions, then the regeneration. -/
def SearchEnv.work (env : SearchEnv) (e : Reached) (p : Pen) : Pen :=
  let stations := (p.chainOf e).map fun x => x.state.station
  env.offerRegen e ((env.leaving e.state.station).foldl (env.extendOver e stations) p)

/-- The source label (R124). -/
def sourceLabel : Label :=
  { cost := 0, noise := 0, passes := 0, latency := 0, regens := 0, hops := 0, first := none, pred := none }

/-- The PEN prepared for a search (R124): copies taken, table cleared, the source label alone in the frontier. -/
def Pen.prepared (slot source : Nat) (diverse : List End) (ownPairs : List Pair) : Pen :=
  { searching := some slot, settled := [],
    frontier := [{ state := { station := source, channel := Config.anyChannel }, label := sourceLabel }],
    pruned := false, settlements := 0, diverse := diverse, ownPairs := ownPairs }

/-- The best entry is settled (R134). -/
def Pen.settle (p : Pen) (e : Reached) (rest : List Reached) : Pen :=
  { p with settled := e :: p.settled, frontier := rest, settlements := p.settlements + 1 }

/-- The search ends or is abandoned: idle, the copies discarded (R125, R140, R142, R143). -/
def Pen.ended (p : Pen) : Pen := { p with searching := none, diverse := [], ownPairs := [] }

/-- Whether the label before an extension in its chain is a regeneration label. -/
def fromRegen (rest : List Reached) : Bool := (rest.head?).any fun x => x.label.isRegen

/-- The hops of a chain, from the destination back (R141). -/
def hopsBack : List Reached → List Hop
  | [] => []
  | e :: rest =>
    match e.label.pred with
    | some { station := v, channel := _, degree := some d } =>
      { src := v, degree := d, dst := e.state.station, channel := e.state.channel, regen := fromRegen rest } :: hopsBack rest
    | _ => hopsBack rest

/-- The labels that end a segment, from the destination back (R120): the predecessors of the chain's regeneration labels. -/
def regenEnds : List Reached → List Label
  | x :: y :: rest => if x.label.isRegen then y.label :: regenEnds (y :: rest) else regenEnds (y :: rest)
  | _ => []

/-- The totals of one segment (R120, R142). -/
def segmentOf (budget noise passes : Nat) : Segment := { noise := noise, passes := passes, margin := budget - noise }

/-- What the PEN hands the PST when a destination label is settled (R120, R141, R142). -/
def pathOf (cls : ClassEntry) (p : Pen) (e : Reached) : PathResult :=
  let c := p.chainOf e
  { hops := (hopsBack c).reverse
    segments := ((e.label :: regenEnds c).map fun l => segmentOf cls.budget l.noise l.passes).reverse
    cost := e.label.cost
    latency := e.label.latency
    regens := e.label.regens
    pruned := p.pruned }

end Sys2Proof.Machine
end

