-- ==== Sys2Proof/Machine/Watch.lean ====
section
/-! DEFINITION. Span resolution and the result watch of an epoch transfer (R91, R92, R105 to R110, R121). -/

namespace Sys2Proof.Machine

/-- The link entry a report holds for a degree, with its confirmed flag set (R91). -/
def confirmedLink (r : Report) (d : Nat) : Option Link := r.links.find? fun l => l.degree == d && l.confirmed

/-- The span two agreeing entries make (R92): the larger values, degraded when either is, the union of the lit masks. -/
def spanOf (v w : Nat) (a b : Link) : Span :=
  { low := { station := v, degree := a.degree }
    high := { station := w, degree := b.degree }
    noise := max a.noise b.noise
    latency := max a.latency b.latency
    cost := max a.cost b.cost
    degraded := a.degraded || b.degraded
    lit := a.lit ||| b.lit }

/-- The span a confirmed entry of `v` makes with a station of a higher number, when the four conditions of R91 hold. -/
def resolveLink (s : State) (v : Nat) (a : StationReport) (l : Link) : Option Span :=
  match s.numberOf l.nbrUid with
  | some w =>
    match place s.tdb.active w with
    | some b =>
      match confirmedLink b.report l.nbrDegree with
      | some m =>
        if v < w ∧ b.uid = l.nbrUid ∧ m.nbrUid = a.uid ∧ m.nbrDegree = l.degree then some (spanOf v w l m) else none
      | none => none
    | none => none
  | none => none

/-- The spans of a station's report whose other end is at a higher number (R91): each span is made once, from its lower end. -/
def resolveStation (s : State) (v : Nat) : List Span :=
  match place s.tdb.active v with
  | some a =>
    if (s.entry v).map DirEntry.uid = some a.uid then
      (List.range Config.degrees).filterMap fun d => (confirmedLink a.report d).bind (resolveLink s v a)
    else []
  | none => []

/-- The span table of the active tables and the directory as they stand (R91). -/
def resolveSpans (s : State) : List Span := (List.range Config.stations).flatMap (resolveStation s)

/-- A peer-intent entry outranks an own intent (R107, R152): higher priority, or equal priority and lower unique ID. -/
def outranks (own : Uid) (ownPriority : Nat) (u : Uid) (priority : Nat) : Bool :=
  decide (ownPriority < priority) || (decide (priority = ownPriority) && decide (u < own))

/-- The span of a hop (R106): its one end is the leaving end, its other end is at the to station. -/
def hopSpan (t : Tdb) (h : Hop) : Option Span :=
  match spanAt t.spans { station := h.src, degree := h.degree } with
  | some (far, sp) => if far.station = h.dst then some sp else none
  | none => none

/-- A hop's channel is free on its span for a slot (R107). -/
def freeForSlot (s : State) (i : Nat) (intent : Intent) (req : Request) (sp : Span) (k : Nat) : Bool :=
  let counts : PeerIntent → Bool :=
    if intent.stands then fun e => outranks s.ownUid req.priority e.uid e.priority else fun _ => true
  channelCarried s.tdb (s.classOf req.cls) sp k
    && (intent.isHeld || !sp.lit.getLsbD k)
    && !peerHolds s.tdb counts (sp.pair k)
    && !(s.otherIntentPairs i).contains (sp.pair k)

/-- Checks 1 to 3 of R105 on one hop. -/
def hopFailure (s : State) (i : Nat) (intent : Intent) (req : Request) (h : Hop) : Option InvalidReason :=
  match hopSpan s.tdb h with
  | none => some .spanGone
  | some sp =>
    if sp.degraded ∧ req.allowDegraded = false then some .spanDegraded
    else if freeForSlot s i intent req sp h.channel then none
    else some .channelTaken

/-- A hop with the values of its span; a hop without one has failed check 1 and is not summed. -/
structure Crossing where
  hop  : Hop
  span : Span
  deriving DecidableEq, Repr

/-- The hops of a path with their spans. -/
def crossings (t : Tdb) (hops : List Hop) : List Crossing :=
  hops.filterMap fun h => (hopSpan t h).map fun sp => { hop := h, span := sp }

/-- Noise and pass-throughs of the segments of a path, last segment first, while its hops are taken in order (R108, R121): a
hop that starts a segment adds its span's noise to 0; any other first takes the pass-through term of its from station. -/
def sumSegment (t : Tdb) (cls : ClassEntry) (acc : List (Nat × Nat)) (c : Crossing) : List (Nat × Nat) :=
  match acc with
  | (noise, passes) :: rest =>
    if c.hop.regen then (satAdd Config.sumMax 0 c.span.noise, 0) :: (noise, passes) :: rest
    else
      (satAdd Config.sumMax (satAdd Config.sumMax noise (passTerm t cls c.hop.src)) c.span.noise, passes + 1) :: rest
  | [] => [(satAdd Config.sumMax 0 c.span.noise, 0)]

/-- Noise and pass-throughs of each segment, in order from the source (R108, R121). -/
def sumSegments (t : Tdb) (cls : ClassEntry) (path : List Crossing) : List (Nat × Nat) :=
  (path.foldl (sumSegment t cls) []).reverse

/-- The recomputed latency of a path (R121). -/
def sumLatency (path : List Crossing) : Nat := path.foldl (fun acc c => satAdd Config.sumMax acc c.span.latency) 0

/-- The recomputed cost of a path (R121): the spans' costs, and the regeneration cost for each flagged hop. -/
def sumCost (cls : ClassEntry) (path : List Crossing) : Nat :=
  path.foldl (fun acc c =>
    satAdd Config.costMax (if c.hop.regen then satAdd Config.costMax acc cls.regenCost else acc) c.span.cost) 0

/-- Check 4 of R105: the budget test and the pass-through test of a segment (R118, R119). -/
def segmentPasses (cls : ClassEntry) (x : Nat × Nat) : Bool := decide (x.1 ≤ cls.budget) && decide (x.2 ≤ cls.maxPasses)

/-- Check 5 of R105: the latency test (R119). -/
def latencyPasses (cls : ClassEntry) (latency : Nat) : Bool := decide (cls.maxLatency = 0) || decide (latency ≤ cls.maxLatency)

/-- Check 6 of R105 on one hop (R109). -/
def regenPasses (t : Tdb) (intent : Intent) (h : Hop) : Bool :=
  !h.regen || intent.isHeld || ((reportUnder t.active h.src).any fun r => decide (1 ≤ r.regens))

/-- The first check of R105 that a slot's path fails against the new view, or none. -/
def pathFailure (s : State) (i : Nat) (intent : Intent) (req : Request) (hops : List Hop) : Option InvalidReason :=
  let cls := s.classOf req.cls
  let path := crossings s.tdb hops
  match hops.findSome? (hopFailure s i intent req) with
  | some why => some why
  | none =>
    if !(sumSegments s.tdb cls path).all (segmentPasses cls) then some .budgetExceeded
    else if !latencyPasses cls (sumLatency path) then some .latencyExceeded
    else if !hops.all (regenPasses s.tdb intent) then some .regenGone
    else none

/-- The totals of a path that passed, brought up to date (R110). -/
def refreshTotals (s : State) (req : Request) (r : PathResult) : PathResult :=
  let cls := s.classOf req.cls
  let path := crossings s.tdb r.hops
  { r with segments := (sumSegments s.tdb cls path).map fun x => segmentOf cls.budget x.1 x.2
           cost := sumCost cls path
           latency := sumLatency path }

/-- The watch of one slot (R105, R110): only a FOUND slot is evaluated. -/
def watchSlot (s : State) (i : Nat) (x : Slot) : Slot :=
  match x.state with
  | .found job epoch r =>
    match pathFailure s i x.intent job.request r.hops with
    | some why => { x with state := .invalid job epoch r why }
    | none => { x with state := .found job epoch (refreshTotals s job.request r) }
  | _ => x

/-- A slot is INVALID. -/
def SlotState.isInvalid : SlotState → Bool
  | .invalid _ _ _ _ => true
  | _ => false

/-- The result watch (R105): every slot against the new view; RESULT_INVALID when at least one becomes INVALID. -/
def resultWatch (s : State) : State :=
  let after := s.slots.zipIdx.map fun y => watchSlot s y.2 y.1
  let newly := (s.slots.zip after).any fun y => !y.1.state.isInvalid && y.2.state.isInvalid
  raiseIf newly .resultInvalid { s with slots := after }

end Sys2Proof.Machine
end

