-- ==== Sys2Proof/Machine/Pst.lean ====
section
/-! DEFINITION. Epoch transfers, slot starts and completions, one settlement, and the commands on slots (R85 to R104, R123 to R144). -/

namespace Sys2Proof.Machine

/-- The active copy a transfer makes (R89 steps 1, 2 and 4). -/
def Tdb.copied (t : Tdb) : Tdb :=
  { t with active := t.staging, activeIntents := t.stagingIntents.map fun x => x.map fun e => e.entry,
           epoch := t.epoch + 1, dirty := false, pendingEpoch := false, transferring := true }

/-- An epoch transfer with its result watch (R89). It ends with the row EPOCH_TRANSFER_END. -/
def transfer (s : State) : State :=
  let s := { s with tdb := s.tdb.copied }
  let s := { s with tdb := { s.tdb with spans := resolveSpans s } }
  resultWatch (raise .epoch s)

/-- The copy of the referenced slot's near ends (R125). -/
def State.diverseCopy (s : State) (req : Request) : List End :=
  match req.diverse.bind s.slot with
  | some x => (x.state.hops.getD []).map fun h => { station := h.src, degree := h.degree }
  | none => []

/-- Check 2 of R124: the referenced slot no longer holds the recorded tag, or is neither FOUND nor INVALID. -/
def State.refLost (s : State) (job : Job) : Bool :=
  match job.request.diverse with
  | none => false
  | some i =>
    match s.slot i with
    | some x => !(x.state.hops.isSome && x.state.tag == job.refTag)
    | none => true

/-- The start checks of the PEN (R124). -/
def State.startCheck (s : State) (job : Job) : Option FailReason :=
  if (reportUnder s.tdb.active job.request.source).isNone ∨ (reportUnder s.tdb.active job.request.destination).isNone then
    some .endpointUnknown
  else if s.refLost job then some .refLost
  else none

/-- Sets the PEN. -/
def setPen (p : Pen) (s : State) : State := { s with pen := p }

/-- The head of the request queue starts (R100, R124, R125): RUNNING with the PEN prepared, or FAILED at a start check, which
completes it under R101 with the pruned flag clear. -/
def startHead (i : Nat) (job : Job) (s : State) : State :=
  match s.startCheck job with
  | some why => raise .requestDone (setSlotState i (.failed job s.tdb.epoch why false) s)
  | none =>
    setPen (Pen.prepared i job.request.source (s.diverseCopy job.request) (s.otherIntentPairs i))
      (setSlotState i (.running job s.tdb.epoch) s)

/-- The start condition is judged (R100), and judged again after a slot that fails at its start (R101 step 4). The first argument
bounds the starts by the length of the queue. -/
def judgeStart : Nat → State → State
  | 0, s => s
  | n + 1, s =>
    if s.anyRunning || s.tdb.pendingEpoch then s
    else
      match s.reqQueue with
      | [] => s
      | i :: rest =>
        let t := { s with reqQueue := rest }
        match t.slotState i with
        | some (.queued job) => judgeStart n (startHead i job t)
        | _ => judgeStart n t

/-- The start condition is judged for the whole queue. -/
def startQueued (s : State) : State := judgeStart s.reqQueue.length s

/-- The RUNNING slot has left RUNNING (R88, R101 steps 3 and 4): a pending transfer takes place, then the start condition is judged. -/
def leftRunning (s : State) : State := startQueued (if s.tdb.pendingEpoch then transfer s else s)

/-- The RUNNING slot completes (R101). -/
def complete (i : Nat) (st : SlotState) (s : State) : State :=
  leftRunning (raise .requestDone (setSlotState i st (setPen s.pen.ended s)))

/-- What the PEN reads during the search of a slot (R123). -/
def State.searchEnv (s : State) (job : Job) : SearchEnv :=
  { tdb := s.tdb, req := job.request, cls := s.classOf job.request.cls, diverse := s.pen.diverse, ownPairs := s.pen.ownPairs }

/-- One settlement of the search of slot `i` (R134, R140, R141). -/
def settleSlot (i : Nat) (job : Job) (epoch : BitVec 16) (s : State) : State :=
  match s.pen.frontier with
  | [] => complete i (.failed job epoch .noPath s.pen.pruned) s
  | e :: rest =>
    let p := s.pen.settle e rest
    if e.state.station = job.request.destination then
      complete i (.found job epoch (pathOf (s.classOf job.request.cls) p e)) (setPen { p with frontier := [] } s)
    else
      let q := (s.searchEnv job).work e p
      if q.frontier.isEmpty then complete i (.failed job epoch .noPath q.pruned) (setPen q s) else setPen q s

/-- SETTLEMENT while the PEN searches a RUNNING slot (R134); an idle PEN settles nothing (R123). -/
def settle (s : State) : State :=
  match s.pen.searching with
  | some i =>
    match s.slotState i with
    | some (.running job epoch) => settleSlot i job epoch s
    | _ => s
  | none => s

/-- The epoch timer expires while no transfer runs (R86). -/
def decideExpiry (s : State) : State :=
  if s.tdb.dirty = false then s
  else if s.anyRunning then { s with tdb := { s.tdb with pendingEpoch := true } }
  else startQueued (transfer s)

/-- Sets what waits for the end of a transfer. -/
def setHeld (h : List EpochAsk) (s : State) : State := { s with tdb := { s.tdb with held := h } }

/-- The epoch timer expires (R85, R86): the next period starts; during a transfer the expiry is taken after it ends (R89). -/
def epochExpired (s : State) : State :=
  match s.tdb.epochTimer with
  | none => s
  | some _ =>
    let t := { s with tdb := { s.tdb with epochTimer := some (s.psr.working.epoch * Config.epochUnitMs) } }
    if t.tdb.transferring then setHeld (t.tdb.held ++ [.expiry]) t else decideExpiry t

/-- The payload of FORCE EPOCH: the epoch number after the command has acted (R87). -/
def State.epochPayload (s : State) : List Byte := toBytes 2 s.tdb.epoch.toNat

/-- The bytes of a FORCE EPOCH transaction, which stand in the command buffer while it is being taken (R160). -/
def forceEpochBytes : List Byte := [cmdForceEpoch, 0]

/-- FORCE EPOCH is being taken until its response stands in the buffer (R87, R160). One that waited for a transfer is being taken already,
and its bytes may have been emptied from the command buffer meanwhile. -/
def beginTaking (s : State) : State :=
  if s.beingTaken then s else { s with lrp := { s.lrp with commandBuffer := forceEpochBytes, taking := true } }

/-- FORCE EPOCH is decided while no transfer runs (R87). When it transfers, its response waits for the transfer's end (R160). -/
def decideForce (s : State) : State :=
  if s.dir.station = .loading ∨ s.dir.station = .faulted then refuse cmdForceEpoch .badState s
  else if s.tdb.dirty = false then respondOk cmdForceEpoch s.epochPayload s
  else if s.anyRunning then
    let t := { s with tdb := { s.tdb with pendingEpoch := true } }
    respond cmdForceEpoch .deferred false t.epochPayload t
  else startQueued (transfer (beginTaking s))

/-- FORCE EPOCH after its length check (R87); during a transfer it is decided after the transfer ends (R89). The length check comes before
that wait, in `takeCommand`: DESIGN CHOICE, log 25. -/
def forceEpoch (_ : List Byte) (s : State) : State :=
  if s.tdb.transferring then beginTaking (setHeld (s.tdb.held ++ [.force]) s) else decideForce s

/-- What waited for the end of a transfer is taken, oldest first, until one of it begins a transfer again (R89). -/
def takeHeld : List EpochAsk → State → State
  | [], s => setHeld [] s
  | .expiry :: rest, s =>
    if s.tdb.transferring then setHeld (.expiry :: rest) s else takeHeld rest (decideExpiry s)
  | .force :: rest, s =>
    if s.tdb.transferring then setHeld (.force :: rest) s else takeHeld rest (decideForce s)

/-- The FORCE EPOCH being taken is the one whose transfer runs, not one that waits behind it. -/
def State.forceAnswered (s : State) : Bool := s.beingTaken && !s.tdb.held.contains .force

/-- An epoch transfer ends (R87, R89): a FORCE EPOCH that asked for it is answered, then what waited is taken. -/
def endTransfer (s : State) : State :=
  if s.tdb.transferring then
    let t := { s with tdb := { s.tdb with transferring := false } }
    takeHeld t.tdb.held (if t.forceAnswered then respondOk cmdForceEpoch t.epochPayload t else t)
  else s

/-- A tag is held by a slot that is not FREE (R97). -/
def State.tagInUse (s : State) (tag : Nat) : Bool := s.slots.any fun x => x.state.tag == some tag

/-- The ordered checks 3 to 10 of R98; the length was check 1. -/
def State.submitRefusal (s : State) (p : List Byte) : Option Status :=
  let r := submitRequest p
  if s.dir.station = .loading ∨ s.dir.station = .faulted then some .badState
  else if submitFieldBad p then some .badField
  else if r.source = r.destination then some .badEndpoints
  else if r.excludesEndpoint then some .badExclusion
  else if (s.classOf r.cls).budget = 0 then some .badClass
  else if s.tagInUse (payloadByte p 0) then some .tagInUse
  else if r.diverse.any (fun i => !((s.slot i).any fun x => x.state.hops.isSome)) then some .badRef
  else if !(s.slots.any fun x => x.state.isFree) then some .noSlot
  else if Config.queueDepth ≤ (s.slots.countP fun x => x.state.isQueued) then some .queueFull
  else none

/-- The job a SUBMIT leaves in its slot (R98): the tag, the request, and the tag the referenced slot holds at this moment. -/
def State.submitJob (s : State) (p : List Byte) : Job :=
  { tag := payloadByte p 0
    request := submitRequest p
    refTag := (submitRequest p).diverse.bind fun i => (s.slot i).bind fun x => x.state.tag }

/-- SUBMIT (R98): the lowest FREE slot takes the request, its index joins the queue, and the slot may start at once (R100). -/
def submit (p : List Byte) (s : State) : State :=
  match s.submitRefusal p with
  | some status => refuse cmdSubmit status s
  | none =>
    match s.slots.findIdx? fun x => x.state.isFree with
    | none => refuse cmdSubmit .noSlot s
    | some i =>
      let t := setIntent i .none (setSlotState i (.queued (s.submitJob p)) s)
      startQueued (respondOk cmdSubmit [byte i] { t with reqQueue := t.reqQueue ++ [i] })

/-- CANCEL (R102). -/
def cancel (p : List Byte) (s : State) : State :=
  let i := payloadByte p 0
  match s.slotState i with
  | none => refuse cmdCancel .badField s
  | some (.queued _) =>
    let t := freeSlot i s
    respondOk cmdCancel [] { t with reqQueue := t.reqQueue.filter fun j => j != i }
  | some (.running _ _) => respondOk cmdCancel [] (leftRunning (freeSlot i (setPen s.pen.ended s)))
  | some _ => refuse cmdCancel .badState s

/-- A standing intent ends without becoming LOST: its RELEASE is handed over (R103, R155, R156). -/
def endIntent (i : Nat) (s : State) : State :=
  match s.slot i with
  | some x => if x.intent.stands then announceRelease i (setIntent i .none s) else s
  | none => s

/-- RELEASE SLOT (R103). -/
def releaseSlot (p : List Byte) (s : State) : State :=
  let i := payloadByte p 0
  match s.slotState i with
  | none => refuse cmdReleaseSlot .badField s
  | some .free => refuse cmdReleaseSlot .badState s
  | some (.queued _) => refuse cmdReleaseSlot .badState s
  | some (.running _ _) => refuse cmdReleaseSlot .badState s
  | some _ => respondOk cmdReleaseSlot [] (freeSlot i (endIntent i s))

/-- SETTLEMENT (R134). -/
def execSettlement (s : State) : Host.Outcome State Fault Refusal := .next (live settle s)

/-- EPOCH_TIMER_EXPIRY (R86). -/
def execEpochTimerExpiry (s : State) : Host.Outcome State Fault Refusal := .next (live epochExpired s)

/-- FORCE_EPOCH (R87). -/
def execForceEpoch (rest : List Byte) (s : State) : Host.Outcome State Fault Refusal :=
  .next (takeCommand cmdForceEpoch (hasLength 0) rest forceEpoch s)

/-- EPOCH_TRANSFER_END (R87, R89). -/
def execEpochTransferEnd (s : State) : Host.Outcome State Fault Refusal := .next (live endTransfer s)

/-- SUBMIT (R98). -/
def execSubmit (rest : List Byte) (s : State) : Host.Outcome State Fault Refusal :=
  .next (takeCommand cmdSubmit submitLength rest submit s)

/-- CANCEL (R102). -/
def execCancel (rest : List Byte) (s : State) : Host.Outcome State Fault Refusal :=
  .next (takeCommand cmdCancel (hasLength 1) rest cancel s)

/-- RELEASE_SLOT (R103). -/
def execReleaseSlot (rest : List Byte) (s : State) : Host.Outcome State Fault Refusal :=
  .next (takeCommand cmdReleaseSlot (hasLength 1) rest releaseSlot s)

end Sys2Proof.Machine
end

