-- ==== Sys2Proof/Machine/Intents.lean ====
section
/-! DEFINITION. Channel intents: commitment, window, refresh, comparison with peers, endings (R145 to R156). -/

namespace Sys2Proof.Machine

/-- The pair list of a path (R146): one pair for each hop, in hop order, each named by the active span table. -/
def pathPairs (t : Tdb) (hops : List Hop) : List Pair := hops.filterMap fun h => (hopSpan t h).map fun sp => sp.pair h.channel

/-- An intent becomes CLAIMING with its window timer stopped and its refresh timer started (R147, R150). -/
def startClaim (i : Nat) (priority : Nat) (pairs : List Pair) (s : State) : State :=
  setIntent i (.claiming priority pairs none s.intentPeriod) s

/-- The path of a slot is announced as an intent (R147): the intent claims, its INTENT is handed over, the response is OK. -/
def claimPath (i : Nat) (priority : Nat) (pairs : List Pair) (s : State) : State :=
  respondOk cmdCommitIntent [] (announce i (startClaim i priority pairs s))

/-- COMMIT INTENT with a payload of 1 byte: the ordered checks of R147. -/
def commitIntent (p : List Byte) (s : State) : State :=
  let i := payloadByte p 0
  match s.slot i with
  | none => refuse cmdCommitIntent .badField s
  | some x =>
    if s.dir.station ≠ .member then refuse cmdCommitIntent .notMember s
    else
      match x.state with
      | .found job _ r =>
        if x.intent.stands then refuse cmdCommitIntent .badState s
        else if (pathPairs s.tdb r.hops).any (s.otherIntentPairs i).contains then refuse cmdCommitIntent .overlap s
        else claimPath i job.request.priority (pathPairs s.tdb r.hops) s
      | _ => refuse cmdCommitIntent .badState s

/-- WITHDRAW with a payload of 1 byte (R155). -/
def withdraw (p : List Byte) (s : State) : State :=
  let i := payloadByte p 0
  match s.slot i with
  | none => refuse cmdWithdraw .badField s
  | some x => if x.intent.stands then respondOk cmdWithdraw [] (endIntent i s) else refuse cmdWithdraw .badState s

/-- The window timer of a CLAIMING intent expires (R149): HELD, and INTENT_HELD is raised. -/
def windowExpired (i : Nat) (s : State) : State :=
  match s.slot i with
  | some x =>
    match x.intent with
    | .claiming priority pairs (some _) refresh => raise .intentHeld (setIntent i (.held priority pairs refresh) s)
    | _ => s
  | none => s

/-- The refresh timer of a standing intent started with a full period (R150); an intent that does not stand has none. -/
def Intent.refreshed (t : Intent) (period : Nat) : Intent :=
  match t with
  | .claiming priority pairs window _ => .claiming priority pairs window period
  | .held priority pairs _ => .held priority pairs period
  | t => t

/-- The refresh timer of a standing intent expires (R150): the next period starts and the intent is announced. -/
def refreshIntent (i : Nat) (s : State) : State :=
  match s.slot i with
  | some x => if x.intent.stands then announce i (setIntent i (x.intent.refreshed s.intentPeriod) s) else s
  | none => s

/-- A peer intent meets one own intent (R152): outranked it is LOST and a RELEASE is handed over (R153); winning while HELD it is
announced again (R154). -/
def compareIntent (u : Uid) (priority : Nat) (pairs : List Pair) (s : State) (i : Nat) : State :=
  match s.slot i with
  | some x =>
    if x.intent.stands && x.intent.pairs.any pairs.contains then
      if outranks s.ownUid x.intent.priority u priority then announceRelease i (loseIntent i .outranked s)
      else if x.intent.isHeld then announce i s
      else s
    else s
  | none => s

/-- A peer intent meets every own intent, in ascending order of intent id (R152). -/
def compareIntents (u : Uid) (priority : Nat) (pairs : List Pair) (s : State) : State :=
  (List.range Config.slots).foldl (compareIntent u priority pairs) s

/-- Renumbering makes every standing intent LOST, RENUMBERED, without a RELEASE (R156). -/
def loseAllIntents (s : State) : State := (List.range Config.slots).foldl (fun s i => loseIntent i .renumbered s) s

/-- COMMIT_INTENT (R147). -/
def execCommitIntent (rest : List Byte) (s : State) : Host.Outcome State Fault Refusal :=
  .next (takeCommand cmdCommitIntent (hasLength 1) rest commitIntent s)

/-- WITHDRAW (R155). -/
def execWithdraw (rest : List Byte) (s : State) : Host.Outcome State Fault Refusal :=
  .next (takeCommand cmdWithdraw (hasLength 1) rest withdraw s)

/-- WINDOW_TIMER_EXPIRY (R149). -/
def execWindowTimerExpiry (i : Nat) (s : State) : Host.Outcome State Fault Refusal := .next (live (windowExpired i) s)

/-- INTENT_REFRESH_EXPIRY (R150). -/
def execIntentRefreshExpiry (i : Nat) (s : State) : Host.Outcome State Fault Refusal := .next (live (refreshIntent i) s)

end Sys2Proof.Machine
end

