-- ==== Sys2Proof/Machine/Staging.lean ====
section
/-! DEFINITION. Changes of the staging tables and the dirty flag (R77 to R84). -/

namespace Sys2Proof.Machine

/-- A report is stored under a number, replacing whatever the place holds; dirty is set (R78, R79). -/
def stageReport (n : Nat) (u : Uid) (r : Report) (s : State) : State :=
  { s with tdb := { s.tdb with staging := s.tdb.staging.set n (some { uid := u, report := r }), dirty := true } }

/-- The report under a number is dropped; dirty is set when there was one (R78, R79). -/
def dropReport (n : Nat) (s : State) : State :=
  if (place s.tdb.staging n).isSome then
    { s with tdb := { s.tdb with staging := s.tdb.staging.set n none, dirty := true } }
  else s

/-- An entry is one of a sender's (R84). -/
def isIntentOf (u : Uid) (x : Option StagedIntent) : Bool := x.any fun e => e.entry.uid == u

/-- Every staging peer-intent entry of a unique ID is removed; dirty is set when there was one (R78, R84). -/
def dropIntentsOf (u : Uid) (s : State) : State :=
  if s.tdb.stagingIntents.any (isIntentOf u) then
    { s with tdb := { s.tdb with stagingIntents := s.tdb.stagingIntents.map (fun x => if isIntentOf u x then none else x),
                                 dirty := true } }
  else s

/-- An entry has this unique ID and intent id (R81). -/
def isIntent (u : Uid) (id : Nat) (x : Option StagedIntent) : Bool := x.any fun e => e.entry.uid == u && e.entry.id == id

/-- The place of the staging entry with a unique ID and intent id (R77: at most one). -/
def State.intentPlace (s : State) (u : Uid) (id : Nat) : Option Nat := s.tdb.stagingIntents.findIdx? (isIntent u id)

/-- Sets a place of the staging peer-intent table. -/
def setStagedIntent (p : Nat) (x : Option StagedIntent) (dirty : Bool) (s : State) : State :=
  { s with tdb := { s.tdb with stagingIntents := s.tdb.stagingIntents.set p x, dirty := dirty } }

/-- An INTENT is stored (R81): it replaces its entry, takes the lowest empty place, or finds the table full. -/
def storeIntent (e : PeerIntent) (s : State) : State :=
  let x : StagedIntent := { entry := e, left := 1000 * s.psr.working.lifetime }
  match s.intentPlace e.uid e.id with
  | some p =>
    let same := (place s.tdb.stagingIntents p).any fun o => o.entry.priority == e.priority && o.entry.pairs == e.pairs
    setStagedIntent p (some x) (s.tdb.dirty || !same) s
  | none =>
    match s.tdb.stagingIntents.findIdx? Option.isNone with
    | some p => setStagedIntent p (some x) true s
    | none => raise .peerIntentFull s

/-- A RELEASE removes the entry with its unique ID and intent id (R82). -/
def releaseIntent (u : Uid) (id : Nat) (s : State) : State :=
  match s.intentPlace u id with
  | some p => setStagedIntent p none true s
  | none => s

/-- The lifetime of a staging entry reaches zero (R83). -/
def expireIntent (p : Nat) (s : State) : State :=
  if (place s.tdb.stagingIntents p).isSome then setStagedIntent p none true s else s

/-- PEER_INTENT_LIFETIME_EXPIRY (R83). -/
def execPeerIntentLifetimeExpiry (p : Nat) (s : State) : Host.Outcome State Fault Refusal := .next (live (expireIntent p) s)

end Sys2Proof.Machine
end

