-- ==== Sys2Proof/Machine/Org.lean ====
section
/-! DEFINITION. The own report and when it is originated (R62 to R70). -/

namespace Sys2Proof.Machine

/-- The four missed-list places of a report (R62): the numbers, oldest first, then 255. -/
def missedPlaces (missed : List Nat) : List Nat :=
  (missed ++ List.replicate Config.missedDepth Config.noNumber).take Config.missedDepth

/-- The link entry of a degree that is equipped, TRACED and confirmed; none otherwise (R45, R52, R63). -/
def State.linkEntry (s : State) (d : Nat) : Option Link :=
  match (s.degrees[d]?).bind fun x => x.trace.confirmedNbr, s.spm.degrees[d]? with
  | some nbr, some m =>
    some { degree := d, nbrUid := nbr.uid, nbrDegree := nbr.degree, noise := m.noise, latency := m.latency, cost := m.cost,
           degraded := m.monitor.isDegraded, confirmed := true, lit := m.lit }
  | _, _ => none

/-- The own report, built from the values held at this moment (R62, R63). -/
def State.ownReport (s : State) : Report :=
  { seq := s.org.seq
    domain := s.psr.working.domain
    impaired := s.impaired
    passNoise := s.spm.passNoise
    regens := s.spm.regens
    capability := s.psr.working.capability
    missed := missedPlaces s.org.missed
    links := (List.range Config.degrees).filterMap s.linkEntry }

/-- The content that a change is judged on: all but the sequence number and the missed list (R64). -/
def Report.content (r : Report) : Report := { r with seq := 0, missed := [] }

/-- The ORG's state after an origination (R66, steps 4 to 6). -/
def Org.originated (o : Org) (refreshMs : Nat) : Org :=
  { seq := o.seq + 1, missed := [], holdDown := some Config.holdDownMs, refresh := some refreshMs, pendingChange := false }

/-- An origination (R66): build, stage, hand over, restart the timers, empty the missed list, advance the sequence number. -/
def originate (s : State) : State :=
  let r := s.ownReport
  let s := handOverPlain (.report r) (stageReport s.ownNumber s.ownUid r s)
  { s with org := s.org.originated (1000 * s.psr.working.refresh) }

/-- The hold-down rule (R65). -/
def originateHeldDown (s : State) : State :=
  if s.org.holdDown.isSome then { s with org := { s.org with pendingChange := true } } else originate s

/-- A request calls for a report whatever its content (R65); outside MEMBER it has no effect (R70). -/
def orgRequest (s : State) : State := if s.dir.station = .member then originateHeldDown s else s

/-- The report's content differs from the own report held in staging, or none is held (R64). -/
def State.reportChanged (s : State) : Bool :=
  match reportUnder s.tdb.staging s.ownNumber with
  | some r => decide (s.ownReport.content ≠ r.content)
  | none => true

/-- A change signal is judged when it arrives (R64); outside MEMBER it has no effect (R70). -/
def orgChange (s : State) : State :=
  if s.dir.station = .member ∧ s.reportChanged = true then originateHeldDown s else s

/-- A change signal sent when a condition holds. -/
def orgChangeIf (c : Bool) (s : State) : State := if c then orgChange s else s

/-- Departure from MEMBER: both timers stop and pending is cleared (R70). -/
def orgStop (s : State) : State :=
  { s with org := { s.org with holdDown := none, refresh := none, pendingChange := false } }

/-- A gap in a sender's sequence (R74): the number joins the missed list at its newest end, and a request is raised. -/
def recordGap (n : Nat) (s : State) : State :=
  if s.org.missed.contains n then s
  else orgRequest { s with org := { s.org with missed := lastN Config.missedDepth (s.org.missed ++ [n]) } }

/-- The hold-down timer expires (R67). -/
def holdDownExpired (s : State) : State :=
  match s.org.holdDown with
  | none => s
  | some _ =>
    if s.dir.station = .member ∧ s.org.pendingChange = true then originate s
    else { s with org := { s.org with holdDown := none } }

/-- The refresh timer expires (R68). -/
def refreshExpired (s : State) : State :=
  match s.org.refresh with
  | none => s
  | some _ => if s.dir.station = .member then originate s else s

/-- HOLD_DOWN_EXPIRY (R67). -/
def execHoldDownExpiry (s : State) : Host.Outcome State Fault Refusal := .next (live holdDownExpired s)

/-- REFRESH_TIMER_EXPIRY (R68). -/
def execRefreshTimerExpiry (s : State) : Host.Outcome State Fault Refusal := .next (live refreshExpired s)

end Sys2Proof.Machine
end

