-- ==== Sys2Proof/Machine/Dir.lean ====
section
/-! DEFINITION. The directory, joining, defence and renumbering, and what becomes of an accepted frame (R19 to R32, R71 to R75, R80). -/

namespace Sys2Proof.Machine

/-- Sets the directory entry of a number. -/
def setEntry (n : Nat) (e : Option DirEntry) (s : State) : State := { s with dir := { s.dir with entries := s.dir.entries.set n e } }

/-- The preferred number (R26). -/
def State.preferredNumber (s : State) (strap : BitVec 3) : Nat := (s.psr.working.base + strap.toNat) % Config.stations

/-- The numbers in the order preferred, preferred + 1 and so on, wrapping from 47 to 0 (R26). -/
def numbersFrom (preferred : Nat) : List Nat := (List.range Config.stations).map fun i => (preferred + i) % Config.stations

/-- The candidate of R26: the first number that is neither held nor yielded. -/
def State.chooseNumber (s : State) : Option Nat :=
  (numbersFrom s.dir.preferred).find? fun n => (s.entry n).isNone && !s.dir.yielded.contains n

/-- One own lifetime in ms (R29). -/
def State.ownLifetime (s : State) : Nat := 1000 * (4 * s.psr.working.refresh)

/-- Entry to NO_NUMBER (R14, R29). R28 returns the round count to 0 after a conflict; on entry by renumbering no rule gives it a value, and
it is 0 too: DESIGN CHOICE, log 27. -/
def enterNoNumber (s : State) : State :=
  let t := { s with dir := { s.dir with station := .noNumber, candidate := none, rounds := 0, roundTimer := none,
                                        noNumberTimer := some s.ownLifetime } }
  raise .numberChange (clearSct t)

/-- A candidate is chosen (R26): its first CLAIM is handed over, or NO_NUMBER is entered. -/
def takeCandidate (s : State) : State :=
  match s.chooseNumber with
  | some n => handOverPlain (.claim n modeJoining) { s with dir := { s.dir with candidate := some n, rounds := 0, roundTimer := none } }
  | none => enterNoNumber s

/-- Entry to JOINING with a yielded set (R26). -/
def enterJoining (strap : BitVec 3) (yielded : List Nat) (s : State) : State :=
  takeCandidate { s with dir := { s.dir with station := .joining, preferred := s.preferredNumber strap, yielded := yielded,
                                             roundTimer := none, noNumberTimer := none } }

/-- The number a frame uses (R20). -/
def Frame.number? (f : Frame) : Nat :=
  match f.body with
  | .claim requested _ => requested
  | _ => f.number

/-- A CLAIM of a given mode. -/
def Frame.isClaimMode (f : Frame) (mode : Nat) : Bool :=
  match f.body with
  | .claim _ m => m == mode
  | _ => false

/-- The checks 1 to 3 of R20 discard a frame. -/
def State.discards (s : State) (f : Frame) : Bool :=
  decide (Config.stations ≤ f.number?)
    || (f.body.isClaim && !f.isClaimMode modeJoining && !f.isClaimMode modeDefending)
    || (decide (s.dir.station = .joining) && f.isClaimMode modeJoining && decide (s.dir.candidate = some f.number?)
      && decide (s.ownUid < f.uid))

/-- A conflict in JOINING (R28). -/
def State.conflicts (s : State) (f : Frame) : Bool :=
  decide (s.dir.station = .joining) && decide (s.dir.candidate = some f.number?)
    && (if f.isClaimMode modeJoining then decide (f.uid < s.ownUid) else decide (f.uid ≠ s.ownUid))

/-- The candidate is yielded and another is chosen (R28). -/
def yieldNumber (n : Nat) (s : State) : State :=
  takeCandidate { s with dir := { s.dir with yielded := if s.dir.yielded.contains n then s.dir.yielded else s.dir.yielded ++ [n],
                                             roundTimer := none } }

/-- What a purge does to the views (R23): the report under the number and every intent of the unique ID are dropped. -/
def purgeViews (n : Nat) (u : Uid) (s : State) : State := raise .peerChange (dropIntentsOf u (dropReport n s))

/-- A peer is purged with its entry (R23); a number that no peer holds has nothing to purge. -/
def purge (n : Nat) (s : State) : State :=
  match s.entry n with
  | some (.peer u _) => purgeViews n u (setEntry n none s)
  | _ => s

/-- The entry a unique ID holds, if any, is purged (R21). -/
def purgeUid (u : Uid) (s : State) : State :=
  match s.numberOf u with
  | some m => purge m s
  | none => s

/-- The lifetime an accepted frame sets, ms: its field, taken as 4 below 4 and as 240 above 240 (R22). -/
def Frame.lifetimeMs (f : Frame) : Nat := 1000 * clamp 4 240 f.lifetime

/-- The peer entry an accepted frame leaves (R21, R22). -/
def Frame.entry (f : Frame) : DirEntry := .peer f.uid f.lifetimeMs

/-- A station is installed or entered under a number (R21). -/
def install (n : Nat) (f : Frame) (s : State) : State := raise .peerChange (setEntry n (some f.entry) s)

/-- How a frame was accepted (R21): under check 1, under checks 2 to 4, or not. -/
inductive Acceptance where
  | known | entered | discarded
  deriving DecidableEq, Repr

/-- The acceptance checks of R21 for a number that is not the part's own. -/
def accept (n : Nat) (f : Frame) (s : State) : Acceptance × State :=
  match s.entry n with
  | some (.peer u _) =>
    if u = f.uid then (.known, setEntry n (some f.entry) s)
    else if f.uid < u then (.entered, install n f (purgeUid f.uid (purge n s)))
    else (.discarded, s)
  | some (.own _) => (.discarded, s)
  | none => (.entered, install n f (purgeUid f.uid s))

/-- The form check of R71. -/
def Report.wellFormed (r : Report) : Bool :=
  r.links.all (fun l => decide (l.degree < Config.degrees) && decide (l.nbrDegree < Config.degrees))
    && decide (r.links.map fun l => l.degree).Nodup

/-- The clamps of R72 on a link entry. -/
def Link.clamped (l : Link) : Link := { l with noise := clamp 0 Config.noiseMax l.noise, cost := clamp 1 4095 l.cost }

/-- The clamps of R72. -/
def Report.clamped (r : Report) : Report :=
  { r with passNoise := clamp 0 Config.noiseMax r.passNoise
           regens := clamp 0 15 r.regens
           domain := clamp 0 15 r.domain
           missed := r.missed.map fun n => if n < Config.stations then n else Config.noNumber
           links := r.links.map Link.clamped }

/-- A stored report that names the own number raises a request (R75). -/
def examineMissed (r : Report) (s : State) : State :=
  if s.dir.station = .member ∧ r.missed.contains s.ownNumber = true then orgRequest s else s

/-- A clamped report is compared with the one held under the number (R73, R74, R75). -/
def storeReport (n : Nat) (u : Uid) (r : Report) (s : State) : State :=
  match reportUnder s.tdb.staging n with
  | none => examineMissed r (stageReport n u r s)
  | some held =>
    if newerSeq held.seq r.seq then
      let t := stageReport n u r s
      examineMissed r (if (r.seq - held.seq).toNat > 1 then recordGap n t else t)
    else s

/-- The form check of R80 on an INTENT. -/
def intentWellFormed (id priority : Nat) (pairs : List Pair) : Bool :=
  decide (id < Config.slots) && decide (priority < 8)
    && pairs.all (fun p => decide (p.station < Config.stations) && decide (p.degree < Config.degrees) && decide (p.channel < 64))
    && decide pairs.Nodup

/-- An accepted frame is dispatched by its kind (R24). -/
def dispatch (n : Nat) (how : Acceptance) (f : Frame) (s : State) : State :=
  match f.body with
  | .claim _ _ => if how = .known then purgeViews n f.uid s else s
  | .report r => if r.wellFormed then storeReport n f.uid r.clamped s else s
  | .intent id priority pairs =>
    if intentWellFormed id priority pairs then
      compareIntents f.uid priority pairs (storeIntent { uid := f.uid, id := id, priority := priority, pairs := pairs } s)
    else s
  | .release id => if id < Config.slots then releaseIntent f.uid id s else s

/-- Acceptance and dispatch (R21, R24). -/
def acceptFrame (n : Nat) (f : Frame) (s : State) : State :=
  match accept n f s with
  | (.discarded, _) => s
  | (how, t) => dispatch n how f t

/-- The part defends its number (R31); the frame is then discarded. -/
def defend (n : Nat) (s : State) : State := orgRequest (handOverPlain (.claim n modeDefending) s)

/-- The part renumbers (R32). -/
def renumber (strap : BitVec 3) (n : Nat) (s : State) : State :=
  enterJoining strap [n] (raise .numberChange (clearSct (orgStop (dropReport n (setEntry n none (loseAllIntents s))))))

/-- The own-number rule (section 2.5): a JOINING CLAIM or a higher sender is met by defence, a lower sender by renumbering, after
which the frame goes on through acceptance. -/
def ownNumberRule (strap : BitVec 3) (n : Nat) (f : Frame) (s : State) : State :=
  if f.isClaimMode modeJoining = false ∧ f.uid < s.ownUid then acceptFrame n f (renumber strap n s) else defend n s

/-- A frame taken from the receive queue (R20, R21, R28). -/
def takeFrame (strap : BitVec 3) (f : Frame) (s : State) : State :=
  let n := f.number?
  if s.discards f then s
  else
    let t := if s.conflicts f then yieldNumber n s else s
    match t.entry n with
    | some (.own _) => ownNumberRule strap n f t
    | _ => acceptFrame n f t

/-- The DIR takes the oldest frame of the receive queue (R6, R20). -/
def takeOldest (strap : BitVec 3) (s : State) : State :=
  if s.active then
    match s.scr.rxQueue with
    | f :: rest => takeFrame strap f { s with scr := { s.scr with rxQueue := rest } }
    | [] => s
  else s

/-- Entry to MEMBER (R30): the own entry, NUMBER_CHANGE, and an origination at once. -/
def enterMember (n : Nat) (s : State) : State :=
  let t := { s with dir := { s.dir with station := .member, candidate := some n, rounds := Config.claimRounds, roundTimer := none } }
  originate (raise .numberChange (setEntry n (some (.own s.ownUid)) t))

/-- A claim round is timed: its timer runs, and the mute flag is clear (R27). -/
def State.timesRound (s : State) : Bool := s.dir.roundTimer.isSome && !s.sct.mute

/-- The claim-round timer expires (R27). While the mute flag is set no round is timed, so none expires and the part stays in JOINING. -/
def roundExpired (s : State) : State :=
  match s.dir.station, s.dir.candidate, s.timesRound with
  | .joining, some n, true =>
    if s.dir.rounds + 1 < Config.claimRounds then
      handOverPlain (.claim n modeJoining) { s with dir := { s.dir with rounds := s.dir.rounds + 1, roundTimer := none } }
    else enterMember n s
  | _, _, _ => s

/-- The no-number timer expires (R29). -/
def noNumberExpired (strap : BitVec 3) (s : State) : State :=
  match s.dir.station, s.dir.noNumberTimer with
  | .noNumber, some _ => enterJoining strap [] s
  | _, _ => s

/-- START with an empty payload (R167, R168). -/
def startStation (strap : BitVec 3) (_ : List Byte) (s : State) : State :=
  if s.dir.station = .standby then respondOk cmdStart [] (enterJoining strap [] s) else refuse cmdStart .badState s

/-- TAKE_RECEIVED_FRAME (R20). -/
def execTakeReceivedFrame (strap : BitVec 3) (s : State) : Host.Outcome State Fault Refusal := .next (live (takeOldest strap) s)

/-- PEER_LIFETIME_EXPIRY (R22). -/
def execPeerLifetimeExpiry (n : Nat) (s : State) : Host.Outcome State Fault Refusal := .next (live (purge n) s)

/-- CLAIM_ROUND_TIMER_EXPIRY (R27). -/
def execClaimRoundTimerExpiry (s : State) : Host.Outcome State Fault Refusal := .next (live roundExpired s)

/-- NO_NUMBER_TIMER_EXPIRY (R29). -/
def execNoNumberTimerExpiry (strap : BitVec 3) (s : State) : Host.Outcome State Fault Refusal :=
  .next (live (noNumberExpired strap) s)

/-- START (R167). -/
def execStart (rest : List Byte) (strap : BitVec 3) (s : State) : Host.Outcome State Fault Refusal :=
  .next (takeCommand cmdStart (hasLength 0) rest (startStation strap) s)

end Sys2Proof.Machine
end

