-- ==== Sys2Proof/Machine/Dtr.lean ====
section
/-! DEFINITION. The degree tracer: trace words, judgements, trace states, confirmation (R34 to R46). -/

namespace Sys2Proof.Machine

/-- A degree takes a new trace record; a change of trace state, identity or confirmation raises DEGREE_CHANGE once and signals
the ORG once (R45). -/
def changeDegree (d : Nat) (x : Degree) (s : State) : State :=
  match s.degrees[d]? with
  | some old =>
    let moved := old.trace.watched != x.trace.watched
    orgChangeIf moved (raiseIf moved .degreeChange (setDegree d x s))
  | none => s

/-- The receiver put into HUNT with its hunt timer started (R37). -/
def Receiver.enterHunt : Receiver := .hunt Config.huntMs

/-- Entry to SEARCHING: no candidate, counts 0, the receiver in HUNT (R37, R39, R41, R43). -/
def Degree.enterSearching (x : Degree) : Degree := { x with trace := .searching none, receiver := .enterHunt }

/-- Entry to DARK: identity, flags, candidate and counts cleared; no judgements are made (R43). -/
def Degree.enterDark (x : Degree) : Degree := { x with trace := .dark, receiver := .idle }

/-- A good word of an identity that is not the neighbour's: the candidate after it (R40, R42). -/
def countGood (cand : Option Candidate) (id : Identity) : Candidate :=
  match cand with
  | some c => if c.id = id then { c with good := c.good + 1 } else { id := id, good := 1 }
  | none => { id := id, good := 1 }

/-- What a judgement does to the trace state (R40, R41, R42). -/
def Trace.judge (t : Trace) (j : Judgement) : Trace :=
  match t, j with
  | .searching cand, .valid id number farEnd =>
    let c := countGood cand id
    if 3 ≤ c.good then .traced id number farEnd none 0 else .searching (some c)
  | .searching _, .invalid => .searching none
  | .traced nbr number farEnd cand _, .valid id number' farEnd' =>
    if id = nbr then .traced nbr number' farEnd' none 0
    else
      let c := countGood cand id
      if 3 ≤ c.good then .traced id number' farEnd' none 0 else .traced nbr number farEnd (some c) 0
  | .traced nbr number farEnd _ bad, .invalid =>
    if 4 ≤ bad + 1 then .searching none else .traced nbr number farEnd none (bad + 1)
  | t, _ => t

/-- TRACED was lost (R41). -/
def lostTrace (before after : Trace) : Bool := before.nbr.isSome && after.nbr.isNone

/-- A judgement acts on a degree (R40 to R42); the receiver is left in `r`, or enters HUNT when the degree enters SEARCHING (R37). -/
def Degree.judge (x : Degree) (j : Judgement) (r : Receiver) : Degree :=
  let t := x.trace.judge j
  { x with trace := t, receiver := if lostTrace x.trace t then .enterHunt else r }

/-- The receiver of a degree runs: the degree hears and the station state is not FAULTED (R37, R46). -/
def State.receiverRuns (s : State) (x : Degree) : Bool := x.trace.hears && s.dir.station != .faulted

/-- The levels heard in HUNT end with the first run of 16 decoded bits that is the sync pattern (R37). -/
def matchesSync (levels : List Bool) : Bool := huntSync [] levels == some []

/-- In HUNT the sync pattern matches at the end of the levels heard: the hunt timer stops while the word is received (R37). -/
def matchSync (d : Nat) (levels : List Bool) (s : State) : State :=
  match s.degrees[d]? with
  | some x =>
    match x.receiver with
    | .hunt _ => if s.receiverRuns x && matchesSync levels then setDegree d { x with receiver := .found } s else s
    | _ => s
  | none => s

/-- The judgement of a word heard, and the mode it leads to (R37): a complete word is judged and leads to LOCKED, a code violation is an
invalid word and leads to HUNT. -/
def judgementOf (own : Uid) (heard : Option TraceWord) : Judgement × Receiver :=
  match heard with
  | some w => (judgeWord own w, .locked)
  | none => (.invalid, .enterHunt)

/-- What the word receiver makes of the levels of the word in progress (R37): found in HUNT, the 88 bits after the sync pattern; in
LOCKED, 104 bits, where a wrong sync pattern is an invalid word and leads to HUNT. In no other mode is a word in progress. -/
def Receiver.judges (r : Receiver) (own : Uid) (levels : List Bool) : Option (Judgement × Receiver) :=
  match r with
  | .found => some (judgementOf own (heardAfterSync levels))
  | .locked => some (judgementOf own ((heardWord levels).filter fun w => wordSync w == syncPattern))
  | .idle => none
  | .hunt _ => none

/-- The word in progress is judged and acts on the degree (R37, R40 to R42). -/
def judgeHeard (d : Nat) (levels : List Bool) (s : State) : State :=
  match s.degrees[d]? with
  | some x =>
    match x.receiver.judges s.ownUid levels with
    | some (j, r) => if s.receiverRuns x then changeDegree d (x.judge j r) s else s
    | none => s
  | none => s

/-- The hunt timer expires: one invalid word, and the timer starts again (R37). -/
def huntExpired (d : Nat) (s : State) : State :=
  match s.degrees[d]? with
  | some x =>
    match x.receiver with
    | .hunt _ => if s.receiverRuns x then changeDegree d (x.judge .invalid .enterHunt) s else s
    | _ => s
  | none => s

/-- The trace word a degree sends, built from the state at this moment (R36). -/
def State.buildWord (s : State) (d : Nat) (t : Trace) : TraceWord := encodeTraceWord s.ownUid s.ownNumber d t.nbr.isNone

/-- A trace word begins on an equipped degree in STANDBY, JOINING, MEMBER or NO_NUMBER (R36). -/
def sendWord (d : Nat) (s : State) : State :=
  match s.degrees[d]? with
  | some x => if s.active && x.trace.equipped then setDegree d { x with txWord := some (s.buildWord d x.trace) } s else s
  | none => s

/-- An acceptance on the LOL pin of a degree acts on its trace state, except in FAULTED (R38, R43). -/
def lolAccepted (d : Nat) (asserted : Bool) (s : State) : State :=
  if s.dir.station = .faulted then s
  else
    match s.degrees[d]? with
    | some x =>
      match x.trace, asserted with
      | .searching _, true => changeDegree d x.enterDark s
      | .traced _ _ _ _ _, true => changeDegree d x.enterDark s
      | .dark, false => changeDegree d x.enterSearching s
      | _, _ => s
    | none => s

/-- The equipped set acts on one degree at the end of a load (R39). -/
def applyEquipped (s : State) (d : Nat) : State :=
  match s.degrees[d]? with
  | some x =>
    match s.psr.working.equipped.getLsbD d, x.trace with
    | true, .unequipped => changeDegree d (if s.lolLevel d = some true then x.enterDark else x.enterSearching) s
    | true, _ => s
    | false, .unequipped => s
    | false, _ => changeDegree d { trace := .unequipped, receiver := .idle, txWord := none } s
  | none => s

/-- The receiver of a degree is put into HUNT, with its candidate and counts cleared; a TRACED degree keeps its identity (R46). -/
def Degree.rehunt (x : Degree) : Degree :=
  match x.trace with
  | .searching _ => { x with trace := .searching none, receiver := .enterHunt }
  | .traced nbr number farEnd _ _ => { x with trace := .traced nbr number farEnd none 0, receiver := .enterHunt }
  | _ => x

/-- A degree is brought up to date with its filtered level at the RESTART that leaves FAULTED (R46). -/
def catchUp (s : State) (d : Nat) : State :=
  match s.degrees[d]? with
  | some x =>
    let moved := match x.trace with
      | .dark => if s.lolLevel d = some true then x else x.enterSearching
      | .searching _ => if s.lolLevel d = some true then x.enterDark else x
      | .traced _ _ _ _ _ => if s.lolLevel d = some true then x.enterDark else x
      | .unequipped => x
    changeDegree d moved.rehunt s
  | none => s

/-- The trace transmit lines go dark; a word in progress is cut off (R36). -/
def cutTraceLines (s : State) : State := { s with degrees := s.degrees.map fun x => { x with txWord := none } }

/-- The first words begin on every equipped degree when sending begins (R36). -/
def beginWords (s : State) : State := (List.range Config.degrees).foldl (fun s d => sendWord d s) s

/-- TRACE_WORD_SEND (R36). -/
def execTraceWordSend (d : Nat) (s : State) : Host.Outcome State Fault Refusal := .next (live (sendWord d) s)

/-- TRACE_SYNC_MATCH (R37). -/
def execTraceSyncMatch (heard : HuntHeard) (s : State) : Host.Outcome State Fault Refusal :=
  .next (live (matchSync heard.degree heard.levels) s)

/-- TRACE_WORD_JUDGEMENT (R37). -/
def execTraceWordJudgement (d : Nat) (levels : List Bool) (s : State) : Host.Outcome State Fault Refusal :=
  .next (live (judgeHeard d levels) s)

/-- HUNT_TIMER_EXPIRY (R37). -/
def execHuntTimerExpiry (d : Nat) (s : State) : Host.Outcome State Fault Refusal := .next (live (huntExpired d) s)

end Sys2Proof.Machine
end

