-- ==== Sys2Proof/Machine/Lrp.lean ====
section
/-! DEFINITION. The request port: reads of the response buffer, transactions of no command, the read commands, indications (R159 to R166,
R170 to R172, R188). -/

namespace Sys2Proof.Machine

/-- The bytes of the response buffer in the order they are sent (R162, R188). The flags byte has bit 0, CLAMPED; its bits 7 to 1 are 0:
DESIGN CHOICE, log 17. -/
def Lrp.response (x : Lrp) : List Byte :=
  [x.command, byte x.number.toNat, byte x.status.code, byte x.clamped.toNat, byte x.payload.length] ++ x.payload

/-- `n` bytes of a buffer that is sent again from its first byte when it ends (R163). -/
def repeated (buffer : List Byte) (n : Nat) : List Byte := (List.range n).map fun i => (buffer[i % buffer.length]?).getD 0

/-- The bit on data-out at clock `k` of a transaction whose first byte is `first` (R159, R163): 0 through the first byte; then, in a read,
the response buffer again and again, most significant bit first, in a partial byte too; held low in device reset. -/
def State.sdoBit (s : State) (first : Byte) (k : Nat) : Bool :=
  if s.inReset || first != cmdReadResponse || k < 8 then false
  else ((bitsOf s.lrp.response)[(k - 8) % (8 * s.lrp.response.length)]?).getD false

/-- Sets the bytes sent on data-out. -/
def sendOut (b : List Byte) (s : State) : State := { s with lrp := { s.lrp with dataOut := b } }

/-- A read transaction of `count` bytes after its first (R159, R163): the first byte sent is 0, then the response buffer, again and
again. In device reset data-out is held low. It is served whether or not a command is being taken (R160). -/
def readResponse (count : Nat) (s : State) : State :=
  if s.inReset then clockZeros (count + 1) s else sendOut (0 :: repeated s.lrp.response count) s

/-- A transaction of these whole bytes is ignored (R159, R160): it carries none, or it carries a command while another is being taken. A
read is never ignored. -/
def State.ignores (s : State) (bytes : List Byte) : Bool :=
  match bytes with
  | [] => true
  | command :: _ => s.beingTaken && command != cmdReadResponse

/-- A transaction that is ignored, as clocked (R159, R160): no command is taken, the response buffer is unchanged, the command buffer is
emptied, and data-out carries 0. A transaction that is not ignored is no such row (log 1). -/
def ignoreTransaction (bits : List Bool) (s : State) : State :=
  if s.inReset then clockZeros (bytesOf bits).length s
  else if s.ignores (bytesOf bits) then ignore (clockZeros (bytesOf bits).length s) else s

/-- A command byte that names no command is refused before any length check (R161, check 1). -/
def refuseUnknown (command : Byte) (rest : List Byte) (s : State) : State :=
  if namedBytes.contains command then s
  else endTransaction (rest.length + 1) (refuse command .badCommand) s

/-- Bits of a flags byte of a response payload, bit 0 first (R188). The bits that R188 does not name are 0: DESIGN CHOICE, log 17. -/
def flags (b : List Bool) : Byte := byte (numberOfBits b)

/-- The payload of READ STATUS (R164, R188). -/
def State.statusPayload (s : State) : List Byte :=
  [byte s.dir.station.code, byte s.ownNumber, byte s.scr.channel.code, flags [s.sct.mute, s.tdb.dirty, s.tdb.pendingEpoch]]
    ++ toBytes 2 s.tdb.epoch.toNat ++ s.slots.map (fun x => byte x.state.code)
    ++ toBytes 2 s.ntf.indications.toNat ++ toBytes 2 s.ntf.enables.toNat ++ [byte (worstOutcome s.psr.outcomes).code]

/-- READ STATUS (R164). -/
def readStatus (_ : List Byte) (s : State) : State := respondOk cmdReadStatus s.statusPayload s

/-- The payload of a directory entry (R165, R188). -/
def entryPayload : Option DirEntry → List Byte
  | none => byte 0 :: toBytes 8 0 ++ [byte 0]
  | some (.peer u left) => byte 1 :: toBytes 8 u.toNat ++ [byte (wholeSeconds left)]
  | some (.own u) => byte 3 :: toBytes 8 u.toNat ++ [byte 0]

/-- READ DIRECTORY ENTRY with a payload of 1 byte (R165). -/
def readDirectoryEntry (p : List Byte) (s : State) : State :=
  let n := payloadByte p 0
  if n < Config.stations then respondOk cmdReadDirectoryEntry (entryPayload (s.entry n)) s
  else refuse cmdReadDirectoryEntry .badField s

/-- The candidate identity of a degree with its good-word count (R45). -/
def Trace.candidate : Trace → Option Candidate
  | .searching c => c
  | .traced _ _ _ c _ => c
  | _ => none

/-- The bad-word count of a degree (R45). -/
def Trace.badCount : Trace → Nat
  | .traced _ _ _ _ bad => bad
  | _ => 0

/-- The neighbour number of a degree, 255 when none (R45, R188). -/
def Trace.nbrNumber : Trace → Nat
  | .traced _ n _ _ _ => n
  | _ => Config.noNumber

/-- The far-end flag of a degree, held in TRACED (R45). -/
def Trace.farEnd : Trace → Bool
  | .traced _ _ f _ _ => f
  | _ => false

/-- An identity in 9 bytes: unique ID, degree; absent as 0 (R188). -/
def identityBytes (id : Option Identity) : List Byte :=
  match id with
  | some x => toBytes 8 x.uid.toNat ++ [byte x.degree]
  | none => toBytes 8 0 ++ [byte 0]

/-- The time left on a qualifier timer, 65,535 when there is none (R60, R188). -/
def Monitor.remaining : Monitor → Nat
  | .pending left _ => left
  | _ => 65535

/-- The payload of READ DEGREE (R165, R188). -/
def degreePayload (x : Degree) (level : Option Bool) (m : SpmDegree) (passNoise regens : Nat) : List Byte :=
  let cand := x.trace.candidate
  [byte x.trace.code, byte (levelCode level),
   flags [x.trace.nbr.isSome, x.trace.farEnd, x.trace.confirmedNbr.isSome, cand.isSome, m.monitor.latchHeld]]
    ++ identityBytes x.trace.nbr ++ [byte x.trace.nbrNumber]
    ++ identityBytes (cand.map fun c => c.id) ++ [byte ((cand.map fun c => c.good).getD 0), byte x.trace.badCount]
    ++ toBytes 8 m.lit.toNat ++ toBytes 2 m.cost ++ toBytes 2 m.latency ++ toBytes 3 m.noise
    ++ [byte m.monitor.code] ++ toBytes 2 m.monitor.remaining ++ toBytes 3 passNoise ++ [byte regens]

/-- READ DEGREE with a payload of 1 byte (R165). -/
def readDegree (p : List Byte) (s : State) : State :=
  let d := payloadByte p 0
  match s.degrees[d]?, s.spm.degrees[d]? with
  | some x, some m => respondOk cmdReadDegree (degreePayload x (s.lolLevel d) m s.spm.passNoise s.spm.regens) s
  | _, _ => refuse cmdReadDegree .badField s

/-- The payload of READ REPORT (R93, R188). The link entries stand in the order in which they are stored, which for a peer's report is the
order received, ascending or not: DESIGN CHOICE, log 29. -/
def reportPayload : Option StationReport → List Byte
  | none => [byte 0]
  | some x => byte 1 :: toBytes 8 x.uid.toNat ++ encodeReport x.report

/-- The station-report table a selector names. -/
def Tdb.reports (t : Tdb) : Table → List (Option StationReport)
  | .staging => t.staging
  | .active => t.active

/-- READ REPORT with a payload of 2 bytes (R166). -/
def readReport (p : List Byte) (s : State) : State :=
  let n := payloadByte p 1
  match selectTable (payloadByte p 0) with
  | none => refuse cmdReadReport .badField s
  | some table =>
    if n < Config.stations then respondOk cmdReadReport (reportPayload (place (s.tdb.reports table) n)) s
    else refuse cmdReadReport .badField s

/-- The peer intent in a place of a table, with its lifetime left in seconds, 0 for the active table (R93, R188). -/
def Tdb.intentAt (t : Tdb) (table : Table) (p : Nat) : Option (PeerIntent × Nat) :=
  match table with
  | .staging => (place t.stagingIntents p).map fun x => (x.entry, wholeSeconds x.left)
  | .active => (place t.activeIntents p).map fun x => (x, 0)

/-- Pairs with their count (R188). -/
def pairBytes (ps : List Pair) : List Byte := byte ps.length :: ps.flatMap encodePair

/-- The payload of READ PEER INTENT (R93, R188). -/
def State.intentPayload (s : State) : Option (PeerIntent × Nat) → List Byte
  | none => [byte 0]
  | some (x, left) =>
    byte 1 :: toBytes 8 x.uid.toNat
      ++ [byte ((s.numberOf x.uid).getD Config.noNumber), byte x.id, byte x.priority, byte left] ++ pairBytes x.pairs

/-- READ PEER INTENT with a payload of 2 bytes (R166). -/
def readPeerIntent (p : List Byte) (s : State) : State :=
  let n := payloadByte p 1
  match selectTable (payloadByte p 0) with
  | none => refuse cmdReadPeerIntent .badField s
  | some table =>
    if n < Config.intentPlaces then respondOk cmdReadPeerIntent (s.intentPayload (s.tdb.intentAt table n)) s
    else refuse cmdReadPeerIntent .badField s

/-- An exclusion item in 2 bytes (R188). -/
def exclusionBytes : Exclusion → List Byte
  | .station n => [byte n, byte Config.noNumber]
  | .atEnd e => [byte e.station, byte e.degree]

/-- The request part of READ SLOT, 18 bytes (R188). -/
def jobBytes (j : Job) : List Byte :=
  let r := j.request
  [byte r.source, byte r.destination, byte r.cls, byte r.policy.code,
   flags [r.allowDegraded, r.allowRegen, r.avoidImpaired], byte r.priority, byte (r.hint.getD Config.noNumber),
   byte (r.diverse.getD Config.noNumber), byte (j.refTag.getD 0), byte r.exclusions.length]
    ++ (r.exclusions.flatMap exclusionBytes ++ List.replicate 8 (byte Config.noNumber)).take 8

/-- A hop in 5 bytes (R188). -/
def hopBytes (h : Hop) : List Byte := [byte h.src, byte h.degree, byte h.dst, byte h.channel, flags [h.regen]]

/-- A segment in 7 bytes (R188). -/
def segmentBytes (x : Segment) : List Byte := toBytes 3 x.noise ++ [byte x.passes] ++ toBytes 3 x.margin

/-- The result parts of READ SLOT: hops, segments, path totals (R188). -/
def resultBytes (r : PathResult) : List Byte :=
  byte r.hops.length :: r.hops.flatMap hopBytes ++ byte r.segments.length :: r.segments.flatMap segmentBytes
    ++ toBytes 3 r.cost ++ toBytes 3 r.latency ++ [byte r.regens]

/-- The result parts where no path is held: counts 0, totals 0 (R188). -/
def noResult : PathResult := { hops := [], segments := [], cost := 0, latency := 0, regens := 0, pruned := false }

/-- The lost reason byte (R188). -/
def Intent.lostCode : Intent → Nat
  | .lost why _ _ => why.code
  | _ => 0

/-- The intent parts of READ SLOT (R104, R157, R188). -/
def intentBytes (t : Intent) : List Byte := [byte t.code, byte t.lostCode, byte t.priority] ++ pairBytes t.pairs

/-- The record of a slot that is not FREE (R104, R188). -/
def recordBytes (state : Nat) (j : Job) (epoch : BitVec 16) (reason : Nat) (settlements : Nat) (r : PathResult) (t : Intent) :
    List Byte :=
  [byte state, byte j.tag] ++ jobBytes j ++ toBytes 2 epoch.toNat ++ [byte reason, byte r.pruned.toNat] ++ toBytes 2 settlements
    ++ resultBytes r ++ intentBytes t

/-- The payload of READ SLOT (R104, R188). -/
def State.slotPayload (s : State) (x : Slot) : List Byte :=
  let code := x.state.code
  match x.state with
  | .free => [byte code]
  | .queued j => recordBytes code j 0 0 0 noResult x.intent
  | .running j e => recordBytes code j e 0 s.pen.settlements noResult x.intent
  | .found j e r => recordBytes code j e 0 0 r x.intent
  | .invalid j e r why => recordBytes code j e why.code 0 r x.intent
  | .failed j e why pruned => recordBytes code j e why.code 0 { noResult with pruned := pruned } x.intent

/-- READ SLOT with a payload of 1 byte (R104). -/
def readSlot (p : List Byte) (s : State) : State :=
  match s.slot (payloadByte p 0) with
  | some x => respondOk cmdReadSlot (s.slotPayload x) s
  | none => refuse cmdReadSlot .badField s

/-- Sets the notification block. -/
def setNtf (x : Ntf) (s : State) : State := { s with ntf := x }

/-- SET ENABLES with a payload of 2 bytes (R172). -/
def setEnables (p : List Byte) (s : State) : State :=
  let m := decodeMask p
  if namesNoIndication m then refuse cmdSetEnables .badField s
  else respondOk cmdSetEnables [] (setNtf { s.ntf with enables := m } s)

/-- CLEAR INDICATIONS with a payload of 2 bytes (R171). -/
def clearIndications (p : List Byte) (s : State) : State :=
  let m := decodeMask p
  if namesNoIndication m then refuse cmdClearIndications .badField s
  else
    let left := s.ntf.indications &&& ~~~m
    respondOk cmdClearIndications (toBytes 2 left.toNat) (setNtf { s.ntf with indications := left } s)

/-- READ_RESPONSE (R163). -/
def execReadResponse (count : Nat) (s : State) : Host.Outcome State Fault Refusal := .next (readResponse count s)

/-- IGNORED_TRANSACTION (R159, R160). -/
def execIgnoredTransaction (bits : List Bool) (s : State) : Host.Outcome State Fault Refusal := .next (ignoreTransaction bits s)

/-- UNKNOWN_COMMAND (R161). -/
def execUnknownCommand (command : Byte) (rest : List Byte) (s : State) : Host.Outcome State Fault Refusal :=
  .next (refuseUnknown command rest s)

/-- READ_STATUS (R164). -/
def execReadStatus (rest : List Byte) (s : State) : Host.Outcome State Fault Refusal :=
  .next (takeCommand cmdReadStatus (hasLength 0) rest readStatus s)

/-- READ_DIRECTORY_ENTRY (R165). -/
def execReadDirectoryEntry (rest : List Byte) (s : State) : Host.Outcome State Fault Refusal :=
  .next (takeCommand cmdReadDirectoryEntry (hasLength 1) rest readDirectoryEntry s)

/-- READ_DEGREE (R165). -/
def execReadDegree (rest : List Byte) (s : State) : Host.Outcome State Fault Refusal :=
  .next (takeCommand cmdReadDegree (hasLength 1) rest readDegree s)

/-- READ_REPORT (R166). -/
def execReadReport (rest : List Byte) (s : State) : Host.Outcome State Fault Refusal :=
  .next (takeCommand cmdReadReport (hasLength 2) rest readReport s)

/-- READ_PEER_INTENT (R166). -/
def execReadPeerIntent (rest : List Byte) (s : State) : Host.Outcome State Fault Refusal :=
  .next (takeCommand cmdReadPeerIntent (hasLength 2) rest readPeerIntent s)

/-- READ_SLOT (R104). -/
def execReadSlot (rest : List Byte) (s : State) : Host.Outcome State Fault Refusal :=
  .next (takeCommand cmdReadSlot (hasLength 1) rest readSlot s)

/-- SET_ENABLES (R172). -/
def execSetEnables (rest : List Byte) (s : State) : Host.Outcome State Fault Refusal :=
  .next (takeCommand cmdSetEnables (hasLength 2) rest setEnables s)

/-- CLEAR_INDICATIONS (R171). -/
def execClearIndications (rest : List Byte) (s : State) : Host.Outcome State Fault Refusal :=
  .next (takeCommand cmdClearIndications (hasLength 2) rest clearIndications s)

end Sys2Proof.Machine
end

