-- ==== Sys2Proof/Machine/Scr.lean ====
section
/-! DEFINITION. The SC receiver: channel alignment, routing of episodes, carrier (R1, R4 to R8, R11). -/

namespace Sys2Proof.Machine

/-- The channel state changes (R8): CHANNEL_CHANGE is raised, and a change of the impaired flag is signalled to the ORG. -/
def setChannel (scr : Scr) (s : State) : State :=
  let t := { s with scr := scr }
  orgChangeIf (t.impaired != s.impaired) (raiseIf (scr.channel != s.scr.channel) .channelChange t)

/-- An episode's outcome is recorded (R7). -/
def Scr.record (x : Scr) (valid : Bool) : Scr :=
  match x.channel with
  | .dark => x
  | .seeking =>
    if valid then
      if Config.goodRunTarget ≤ x.goodRun + 1 then
        { x with channel := .aligned, goodRun := Config.goodRunTarget, history := [] }
      else { x with goodRun := x.goodRun + 1 }
    else { x with goodRun := 0 }
  | .aligned =>
    let history := lastN Config.historyDepth (x.history ++ [valid])
    if Config.historyLimit ≤ history.countP (fun v => !v) then { x with channel := .seeking, goodRun := 0, history := history }
    else { x with history := history }

/-- A frame start (R7): the dark timer restarts, DARK becomes SEEKING, and decoding of an episode begins (R4). -/
def Scr.frameStart (x : Scr) : Scr :=
  { x with carrier := true, decoding := true, darkTimer := some Config.darkMs,
           channel := match x.channel with
             | .dark => .seeking
             | .seeking => .seeking
             | .aligned => .aligned }

/-- The dark timer expires (R7): DARK, history empty, good run 0, timer stopped. -/
def Scr.darkExpired (x : Scr) : Scr := { x with channel := .dark, history := [], goodRun := 0, darkTimer := none }

/-- Carrier onset ends a running quiet gap; the wait begins again after carrier (R11). -/
def stopGap (s : State) : State :=
  match s.sct.service with
  | some v =>
    match v.phase with
    | .wait _ => setService (some { v with phase := .wait none }) s
    | _ => s
  | none => s

/-- Carrier onset (R1, R7, R11): the first transition after the line has been dark, so none while carrier is present (log 1). In FAULTED
nothing is decoded and the channel state and dark timer stand frozen (R4). -/
def startFrame (s : State) : State :=
  if s.scr.carrier then s
  else
    let t := stopGap s
    if t.dir.station = .faulted then { t with scr := { t.scr with carrier := true } }
    else setChannel t.scr.frameStart t

/-- Carrier end (R1, R11): a waiting frame begins its quiet gap, unless the mute flag suspends it. -/
def endCarrier (s : State) : State :=
  if s.scr.carrier then
    let t := { s with scr := { s.scr with carrier := false } }
    match t.sct.service with
    | some v =>
      match v.phase with
      | .wait _ => setService (some (t.startWait v)) t
      | _ => t
    | none => t
  else s

/-- A valid frame of a peer arrives at the receive queue (R6). -/
def receiveFrame (f : Frame) (s : State) : State :=
  if s.active then
    if s.scr.rxQueue.length < Config.rxDepth then { s with scr := { s.scr with rxQueue := s.scr.rxQueue ++ [f] } }
    else raise .rxDrop s
  else s

/-- A classified episode is routed (R5): an invalid frame or an echo goes to the echo check (R12), a peer's frame to the queue. -/
def routeEpisode (e : Episode) (s : State) : State :=
  match e with
  | .invalid => decideAttempt false s
  | .valid bytes f =>
    if f.uid = s.ownUid then
      match s.sct.service with
      | some v => decideAttempt (v.bytes == delimiter :: bytes) s
      | none => s
    else receiveFrame f s

/-- An episode is valid (R5). -/
def Episode.isValid : Episode → Bool
  | .invalid => false
  | .valid _ _ => true

/-- Decoding of an episode ends (R1, R4, R5): the levels of the receive line are decoded, and the episode is classified once, recorded
and routed. In FAULTED nothing is decoded. -/
def endEpisode (levels : List Bool) (s : State) : State :=
  if s.scr.decoding = true ∧ s.dir.station ≠ .faulted then
    let e := classifyLine levels
    routeEpisode e (setChannel ({ s.scr with decoding := false }.record e.isValid) s)
  else s

/-- The dark timer expires (R7); it is frozen in FAULTED (R4). -/
def darkExpired (s : State) : State :=
  if s.scr.darkTimer.isSome = true ∧ s.dir.station ≠ .faulted then setChannel s.scr.darkExpired s else s

/-- FRAME_START (R7). -/
def execFrameStart (s : State) : Host.Outcome State Fault Refusal := .next (live startFrame s)

/-- CARRIER_END (R11). -/
def execCarrierEnd (s : State) : Host.Outcome State Fault Refusal := .next (live endCarrier s)

/-- EPISODE_END (R5). -/
def execEpisodeEnd (levels : List Bool) (s : State) : Host.Outcome State Fault Refusal := .next (live (endEpisode levels) s)

/-- DARK_TIMER_EXPIRY (R7). -/
def execDarkTimerExpiry (s : State) : Host.Outcome State Fault Refusal := .next (live darkExpired s)

end Sys2Proof.Machine
end

