-- ==== Sys2Proof/Machine/Pins.lean ====
section
/-! DEFINITION. The pin filter and the mute commands (R15, R17). -/

namespace Sys2Proof.Machine

/-- The length of the run after a sample that differs from the accepted level (R17). -/
def PinState.runLength (p : PinState) (level : Bool) : Nat :=
  match p.run with
  | some (l, n) => if l = level then n + 1 else 1
  | none => 1

/-- A sample is accepted as a new level (R17): it differs from the accepted level and completes a run of 4. -/
def PinState.accepts (p : PinState) (level : Bool) : Bool :=
  decide (p.accepted ≠ some level) && decide (Config.pinRun ≤ p.runLength level)

/-- A pin's filter after a sample (R17). -/
def PinState.sample (p : PinState) (level : Bool) : PinState :=
  if p.accepted = some level then { p with run := none }
  else if p.accepts level then { accepted := some level, run := none }
  else { p with run := some (level, p.runLength level) }

/-- All filters after one sample of the nine pins (R17). -/
def Pins.sample (p : Pins) (mute : Bool) (lol : DegreeSet) : Pins :=
  { mute := p.mute.sample mute, lol := p.lol.zipIdx.map fun x => x.1.sample (lol.getLsbD x.2) }

/-- The acceptance of one LOL pin is delivered to the DTR (R17, R38). -/
def deliverLol (lol : DegreeSet) (s : State) (x : PinState × Nat) : State :=
  if x.1.accepts (lol.getLsbD x.2) then lolAccepted x.2 (lol.getLsbD x.2) s else s

/-- One sample (R17): the filters move, then the acceptances are delivered, MUTE first, then LOL0 to LOL7 (log 10). -/
def samplePins (mute : Bool) (lol : DegreeSet) (s : State) : State :=
  let t := { s with pins := s.pins.sample mute lol }
  s.pins.lol.zipIdx.foldl (deliverLol lol) (if s.pins.mute.accepts mute && mute then setMute t else t)

/-- MUTE (R15). -/
def muteCommand (_ : List Byte) (s : State) : State := respondOk cmdMute [] (setMute s)

/-- CLEAR MUTE (R15): refused unless the filtered level of MUTE is deasserted. -/
def clearMuteCommand (_ : List Byte) (s : State) : State :=
  if s.pins.mute.accepted = some false then respondOk cmdClearMute [] (unmute s) else refuse cmdClearMute .pinActive s

/-- PIN_SAMPLE (R17). -/
def execPinSample (mute : Bool) (lol : DegreeSet) (s : State) : Host.Outcome State Fault Refusal :=
  .next (live (samplePins mute lol) s)

/-- MUTE (R15). -/
def execMute (rest : List Byte) (s : State) : Host.Outcome State Fault Refusal :=
  .next (takeCommand cmdMute (hasLength 0) rest muteCommand s)

/-- CLEAR_MUTE (R15). -/
def execClearMute (rest : List Byte) (s : State) : Host.Outcome State Fault Refusal :=
  .next (takeCommand cmdClearMute (hasLength 0) rest clearMuteCommand s)

end Sys2Proof.Machine
end

