-- ==== Sys2Proof/Machine/Spm.lean ====
section
/-! DEFINITION. Node reports, span reports and the margin monitor (R48 to R60). -/

namespace Sys2Proof.Machine

/-- The release level L (R53). -/
def MonitorParams.release (p : MonitorParams) : Nat := if p.hysteresis < p.threshold then p.threshold - p.hysteresis else 0

/-- Entry to DEGRADED: latch-held is set from the working latch (R57). -/
def MonitorParams.degrade (p : MonitorParams) : Monitor := .degraded p.latch

/-- A span report with value `n` acts on a monitor (R54, R55, R56). -/
def Monitor.report (m : Monitor) (p : MonitorParams) (n : Nat) : Monitor :=
  match m with
  | .clear =>
    if n ≤ p.threshold then .clear
    else if p.qualifier = 0 then p.degrade
    else .pending (p.qualifier * Config.qualifierMs) false
  | .pending left held => if n ≤ p.threshold then .clear else .pending left held
  | .degraded latchHeld => if n ≤ p.release ∧ latchHeld = false then .clear else .degraded latchHeld

/-- The qualifier timer of a PENDING degree expires, with the latest `n` (R55). -/
def Monitor.expire (m : Monitor) (p : MonitorParams) (n : Nat) : Monitor :=
  match m with
  | .pending _ _ => if p.threshold < n then p.degrade else .clear
  | m => m

/-- CLEAR LATCH acts on a monitor with the latest `n` (R58). -/
def Monitor.clearLatch (m : Monitor) (p : MonitorParams) (n : Nat) : Monitor :=
  match m with
  | .degraded true => if n ≤ p.release then .clear else .degraded false
  | m => m

/-- A degree takes a new noise load and monitor: MARGIN_CHANGE is raised when it enters or leaves DEGRADED, and the ORG is
signalled once when the load or DEGRADED changed (R52, R57). -/
def changeMonitor (d : Nat) (noise : Nat) (m : Monitor) (s : State) : State :=
  match s.spm.degrees[d]? with
  | some x =>
    let moved := x.monitor.isDegraded != m.isDegraded
    orgChangeIf (moved || x.noise != noise)
      (raiseIf moved .marginChange (setSpmDegree d { x with noise := noise, monitor := m } s))
  | none => s

/-- The payload of WRITE SPAN REPORT and CLEAR LATCH (R51, R58, R188). -/
def State.monitorPayload (s : State) (d : Nat) : List Byte :=
  match s.spm.degrees[d]? with
  | some x => [byte x.monitor.code, byte x.monitor.latchHeld.toNat]
  | none => []

/-- Clamp of an admin cost (R50, R72). -/
def clampCost (n : Nat) : Nat := clamp 1 4095 n

/-- Clamp of a noise value (R50, R72). -/
def clampNoise (n : Nat) : Nat := clamp 0 Config.noiseMax n

/-- One degree's values after WRITE NODE REPORT (R49, R50): each enabled field is clamped and replaces the held value. -/
def SpmDegree.nodeWrite (x : SpmDegree) (enable : BitVec 32) (d : Nat) (v : NodeDegreeValues) : SpmDegree :=
  { x with lit := if enable.getLsbD (3 * d) then v.lit else x.lit
           cost := if enable.getLsbD (3 * d + 1) then clampCost v.cost else x.cost
           latency := if enable.getLsbD (3 * d + 2) then clamp 0 65535 v.latency else x.latency }

/-- The values of a degree in a node report; a degree the payload does not reach has none. -/
def NodeReport.valuesOf (r : NodeReport) (d : Nat) : NodeDegreeValues := (r.degrees[d]?).getD { lit := 0, cost := 1, latency := 0 }

/-- The span monitor after WRITE NODE REPORT: all replacements together (R49). -/
def Spm.nodeWrite (x : Spm) (r : NodeReport) : Spm :=
  { degrees := x.degrees.zipIdx.map fun y => y.1.nodeWrite r.enable y.2 (r.valuesOf y.2)
    passNoise := if r.enable.getLsbD 24 then clampNoise r.passNoise else x.passNoise
    regens := if r.enable.getLsbD 25 then clamp 0 15 r.regens else x.regens }

/-- At least one enabled value was clamped: the value held differs from the value written (R50). -/
def NodeReport.clamped (r : NodeReport) : Bool :=
  (r.degrees.zipIdx.any fun y =>
    (r.enable.getLsbD (3 * y.2 + 1) && clampCost y.1.cost != y.1.cost)
      || (r.enable.getLsbD (3 * y.2 + 2) && clamp 0 65535 y.1.latency != y.1.latency))
    || (r.enable.getLsbD 24 && clampNoise r.passNoise != r.passNoise)
    || (r.enable.getLsbD 25 && clamp 0 15 r.regens != r.regens)

/-- WRITE NODE REPORT with a payload of 112 bytes (R49, R52). -/
def writeNodeReport (p : List Byte) (s : State) : State :=
  let r := decodeNodeReport p
  if s.dir.station = .loading then refuse cmdWriteNodeReport .badState s
  else if r.namesNoField then refuse cmdWriteNodeReport .badField s
  else
    let after := s.spm.nodeWrite r
    respond cmdWriteNodeReport .ok r.clamped [] (orgChangeIf (after != s.spm) { s with spm := after })

/-- WRITE SPAN REPORT with a payload of 4 bytes (R51). -/
def writeSpanReport (p : List Byte) (s : State) : State :=
  let d := payloadByte p 0
  let written := field p 1 3
  if s.dir.station = .loading then refuse cmdWriteSpanReport .badState s
  else
    match s.spm.degrees[d]? with
    | none => refuse cmdWriteSpanReport .badField s
    | some x =>
      let n := clampNoise written
      let t := changeMonitor d n (x.monitor.report (s.monitorParams d) n) s
      respond cmdWriteSpanReport .ok (n != written) (t.monitorPayload d) t

/-- CLEAR LATCH with a payload of 1 byte (R58). -/
def clearLatch (p : List Byte) (s : State) : State :=
  let d := payloadByte p 0
  if s.dir.station = .loading then refuse cmdClearLatch .badState s
  else
    match s.spm.degrees[d]? with
    | none => refuse cmdClearLatch .badField s
    | some x =>
      let t := changeMonitor d x.noise (x.monitor.clearLatch (s.monitorParams d) x.noise) s
      respondOk cmdClearLatch (t.monitorPayload d) t

/-- A qualifier timer expires (R55); in LOADING the expiry is held for the load's end (R59). -/
def qualifierExpired (d : Nat) (s : State) : State :=
  match s.spm.degrees[d]? with
  | some x =>
    match x.monitor with
    | .pending _ _ =>
      if s.dir.station = .loading then setSpmDegree d { x with monitor := .pending 0 true } s
      else changeMonitor d x.noise (x.monitor.expire (s.monitorParams d) x.noise) s
    | _ => s
  | none => s

/-- A held expiry is decided at the end of the load, with the new parameters (R59). -/
def decideHeldExpiry (s : State) (d : Nat) : State :=
  match s.spm.degrees[d]? with
  | some x =>
    match x.monitor with
    | .pending _ true => changeMonitor d x.noise (x.monitor.expire (s.monitorParams d) x.noise) s
    | _ => s
  | none => s

/-- WRITE_NODE_REPORT (R49). -/
def execWriteNodeReport (rest : List Byte) (s : State) : Host.Outcome State Fault Refusal :=
  .next (takeCommand cmdWriteNodeReport (hasLength 112) rest writeNodeReport s)

/-- WRITE_SPAN_REPORT (R51). -/
def execWriteSpanReport (rest : List Byte) (s : State) : Host.Outcome State Fault Refusal :=
  .next (takeCommand cmdWriteSpanReport (hasLength 4) rest writeSpanReport s)

/-- CLEAR_LATCH (R58). -/
def execClearLatch (rest : List Byte) (s : State) : Host.Outcome State Fault Refusal :=
  .next (takeCommand cmdClearLatch (hasLength 1) rest clearLatch s)

/-- QUALIFIER_TIMER_EXPIRY (R55). -/
def execQualifierTimerExpiry (d : Nat) (s : State) : Host.Outcome State Fault Refusal := .next (live (qualifierExpired d) s)

end Sys2Proof.Machine
end

