-- ==== Sys2Proof/Machine/Psr.lean ====
section
/-! DEFINITION. The parameter store: the load and its end, store reads and writes (R175 to R181). -/

namespace Sys2Proof.Machine

/-- Sets the parameter store. -/
def setPsr (p : Psr) (s : State) : State := { s with psr := p }

/-- A load runs (R177). -/
def State.loadRuns (s : State) : Bool := decide (s.dir.station = .loading) && s.psr.loadTimer.isSome

/-- The load reads and decodes the next word (R177): its load outcome is recorded. -/
def Psr.readNext (p : Psr) : Psr :=
  match p.store[p.loadIndex]? with
  | some w => { p with outcomes := p.outcomes.set p.loadIndex (readWord w).1, loadIndex := p.loadIndex + 1 }
  | none => p

/-- LOAD_WORD_READ while a load runs (R177). -/
def loadWord (s : State) : State := if s.loadRuns then setPsr s.psr.readNext s else s

/-- The store's blocks at the end of a load (R177, R178): every word has its load outcome, the working parameters are replaced. -/
def Psr.loaded (p : Psr) : Psr :=
  { p with outcomes := p.store.map fun w => (readWord w).1, working := loadParams p.store, loadTimer := none,
           loadIndex := p.store.length, firstLoad := false }

/-- Some word is UNCORRECTABLE (R177). -/
def Psr.hasFault (p : Psr) : Bool := p.outcomes.contains .uncorrectable

/-- The generator is seeded from the working unique ID at the end of the first load after a device reset (R13, R177). -/
def seedGenerator (s : State) : State := { s with sct := { s.sct with seed := s.psr.working.uid, draws := 0 } }

/-- Sets the station state. -/
def setStation (x : Station) (s : State) : State := { s with dir := { s.dir with station := x } }

/-- Entry to STANDBY (R36, R85, R179): the epoch timer starts and the first trace words begin. -/
def enterStandby (s : State) : State :=
  beginWords { s with tdb := { s.tdb with epochTimer := some (s.psr.working.epoch * Config.epochUnitMs) } }

/-- Entry to FAULTED (R4, R179): STORE_FAULT is raised and the SCR decodes nothing. -/
def enterFaulted (s : State) : State := raise .storeFault { s with scr := { s.scr with decoding := false } }

/-- The equipped set and the held expiries take effect on every degree (R39, R59). -/
def applyLoad (s : State) : State :=
  (List.range Config.degrees).foldl decideHeldExpiry ((List.range Config.degrees).foldl applyEquipped s)

/-- LOAD_END (R179). -/
def endLoad (s : State) : State :=
  if s.loadRuns then
    let t := setPsr s.psr.loaded s
    let t := if s.psr.firstLoad then seedGenerator t else t
    if t.psr.hasFault then enterFaulted (applyLoad (setStation .faulted t)) else enterStandby (applyLoad (setStation .standby t))
  else s

/-- The store-busy timer expires (R180): the word takes its new data and fresh check bits. -/
def endStoreWrite (s : State) : State :=
  match s.psr.busy with
  | some w => setPsr { s.psr with store := s.psr.store.set w.word (freshWord w.data), busy := none } s
  | none => s

/-- The payload of READ STORE WORD (R181, R188). -/
def storeWordPayload (w : StoreWord) (loaded : LoadOutcome) : List Byte :=
  toBytes 4 (readWord w).2.toNat ++ [byte w.check.toNat, byte (readWord w).1.code, byte loaded.code]

/-- READ STORE WORD with a payload of 1 byte (R181). -/
def readStoreWord (p : List Byte) (s : State) : State :=
  let n := payloadByte p 0
  match s.psr.store[n]? with
  | none => refuse cmdReadStoreWord .badField s
  | some w =>
    if s.dir.station = .loading then refuse cmdReadStoreWord .badState s
    else if s.psr.busy.isSome then refuse cmdReadStoreWord .storeBusy s
    else respondOk cmdReadStoreWord (storeWordPayload w ((s.psr.outcomes[n]?).getD .clean)) s

/-- WRITE STORE WORD with a payload of 5 bytes (R180). -/
def writeStoreWord (p : List Byte) (s : State) : State :=
  let n := payloadByte p 0
  if Config.storeWords ≤ n ∨ n < 2 then refuse cmdWriteStoreWord .badField s
  else if s.dir.station ≠ .standby ∧ s.dir.station ≠ .faulted then refuse cmdWriteStoreWord .badState s
  else if s.psr.busy.isSome then refuse cmdWriteStoreWord .storeBusy s
  else
    respondOk cmdWriteStoreWord []
      (setPsr { s.psr with busy := some { word := n, data := decodeStoreData p, left := Config.storeMs } } s)

/-- LOAD_WORD_READ (R177). -/
def execLoadWordRead (s : State) : Host.Outcome State Fault Refusal := .next (live loadWord s)

/-- LOAD_END (R179). -/
def execLoadEnd (s : State) : Host.Outcome State Fault Refusal := .next (live endLoad s)

/-- STORE_BUSY_EXPIRY (R180). -/
def execStoreBusyExpiry (s : State) : Host.Outcome State Fault Refusal := .next (live endStoreWrite s)

/-- READ_STORE_WORD (R181). -/
def execReadStoreWord (rest : List Byte) (s : State) : Host.Outcome State Fault Refusal :=
  .next (takeCommand cmdReadStoreWord (hasLength 1) rest readStoreWord s)

/-- WRITE_STORE_WORD (R180). -/
def execWriteStoreWord (rest : List Byte) (s : State) : Host.Outcome State Fault Refusal :=
  .next (takeCommand cmdWriteStoreWord (hasLength 5) rest writeStoreWord s)

end Sys2Proof.Machine
end

