-- ==== Sys2Proof/Machine/Reset.lean ====
section
/-! DEFINITION. Device reset, its release, and RESTART (R18, R33, R46, R47, R61, R76, R94, R111, R144, R158, R169, R174, R182, R184). -/

namespace Sys2Proof.Machine

/-- RESET is held low, or power-on (R184): every block holds its device-reset state; the store is kept (R182). -/
def deviceReset (s : State) : State := State.heldInReset s.psr.store s.pending

/-- RESET is released (R177, R184); a part that is not held in reset has no release. -/
def releaseReset (s : State) : State := if s.inReset then s.released else s

/-- The store at entry to LOADING by RESTART (R177, R182). -/
def Psr.restarted (p : Psr) : Psr :=
  { p with outcomes := List.replicate Config.storeWords .clean, loadTimer := some Config.loadMs, loadIndex := 0 }

/-- Every block takes its RESTART state (R169), its table of rules line by line. The SPM, the pin filter and what the lists do not
name are kept. -/
def restartBlocks (s : State) : State :=
  { s with scr := { s.scr with rxQueue := [] }
           sct := { s.sct with queue := [], service := none }
           dir := Dir.deviceReset
           degrees := s.degrees.map fun x => { x with txWord := none }
           org := Org.deviceReset
           tdb := Tdb.deviceReset
           slots := List.replicate Config.slots Slot.deviceReset
           reqQueue := []
           pen := s.pen.ended
           ntf := { s.ntf with indications := 0 }
           psr := s.psr.restarted }

/-- At the entry to LOADING from FAULTED every equipped degree is brought up to date (R46, R47). -/
def catchUpAll (s : State) : State := (List.range Config.degrees).foldl catchUp s

/-- RESTART with an empty payload (R169). -/
def restart (_ : List Byte) (s : State) : State :=
  if s.dir.station = .loading then refuse cmdRestart .badState s
  else if s.psr.busy.isSome then refuse cmdRestart .storeBusy s
  else
    let t := restartBlocks (respondOk cmdRestart [] s)
    if s.dir.station = .faulted then catchUpAll t else t

/-- DEVICE_RESET (R184). -/
def execDeviceReset (s : State) : Host.Outcome State Fault Refusal := .next (deviceReset s)

/-- RESET_RELEASE (R177, R184). -/
def execResetRelease (s : State) : Host.Outcome State Fault Refusal := .next (releaseReset s)

/-- RESTART (R169). -/
def execRestart (rest : List Byte) (s : State) : Host.Outcome State Fault Refusal :=
  .next (takeCommand cmdRestart (hasLength 0) rest restart s)

end Sys2Proof.Machine
end

