-- ==== Sys2Proof/Machine/Dispatch.lean ====
section
/-! DEFINITION. One arm per command or event: its meaning. -/

namespace Sys2Proof.Machine

def exec (i : Instr) (s : State) : Host.Outcome State Fault Refusal :=
  match i with
  | .deviceReset => Sys2Proof.Machine.execDeviceReset s
  | .resetRelease => Sys2Proof.Machine.execResetRelease s
  | .loadEnd => Sys2Proof.Machine.execLoadEnd s
  | .pinSample mute lol => Sys2Proof.Machine.execPinSample mute lol s
  | .frameStart => Sys2Proof.Machine.execFrameStart s
  | .carrierEnd => Sys2Proof.Machine.execCarrierEnd s
  | .episodeEnd levels => Sys2Proof.Machine.execEpisodeEnd levels s
  | .darkTimerExpiry => Sys2Proof.Machine.execDarkTimerExpiry s
  | .takeIntoService => Sys2Proof.Machine.execTakeIntoService s
  | .quietGapExpiry => Sys2Proof.Machine.execQuietGapExpiry s
  | .sendEnd => Sys2Proof.Machine.execSendEnd s
  | .echoCheckClose => Sys2Proof.Machine.execEchoCheckClose s
  | .takeReceivedFrame strap => Sys2Proof.Machine.execTakeReceivedFrame strap s
  | .peerLifetimeExpiry number => Sys2Proof.Machine.execPeerLifetimeExpiry number s
  | .claimRoundTimerExpiry => Sys2Proof.Machine.execClaimRoundTimerExpiry s
  | .noNumberTimerExpiry strap => Sys2Proof.Machine.execNoNumberTimerExpiry strap s
  | .traceWordSend degree => Sys2Proof.Machine.execTraceWordSend degree s
  | .traceSyncMatch heard => Sys2Proof.Machine.execTraceSyncMatch heard s
  | .traceWordJudgement degree levels => Sys2Proof.Machine.execTraceWordJudgement degree levels s
  | .huntTimerExpiry degree => Sys2Proof.Machine.execHuntTimerExpiry degree s
  | .qualifierTimerExpiry degree => Sys2Proof.Machine.execQualifierTimerExpiry degree s
  | .holdDownExpiry => Sys2Proof.Machine.execHoldDownExpiry s
  | .refreshTimerExpiry => Sys2Proof.Machine.execRefreshTimerExpiry s
  | .epochTimerExpiry => Sys2Proof.Machine.execEpochTimerExpiry s
  | .peerIntentLifetimeExpiry place => Sys2Proof.Machine.execPeerIntentLifetimeExpiry place s
  | .settlement => Sys2Proof.Machine.execSettlement s
  | .windowTimerExpiry slot => Sys2Proof.Machine.execWindowTimerExpiry slot s
  | .intentRefreshExpiry slot => Sys2Proof.Machine.execIntentRefreshExpiry slot s
  | .storeBusyExpiry => Sys2Proof.Machine.execStoreBusyExpiry s
  | .readResponse count => Sys2Proof.Machine.execReadResponse count s
  | .ignoredTransaction bits => Sys2Proof.Machine.execIgnoredTransaction bits s
  | .unknownCommand command rest => Sys2Proof.Machine.execUnknownCommand command rest s
  | .readStatus rest => Sys2Proof.Machine.execReadStatus rest s
  | .readDirectoryEntry rest => Sys2Proof.Machine.execReadDirectoryEntry rest s
  | .readDegree rest => Sys2Proof.Machine.execReadDegree rest s
  | .readReport rest => Sys2Proof.Machine.execReadReport rest s
  | .readPeerIntent rest => Sys2Proof.Machine.execReadPeerIntent rest s
  | .writeNodeReport rest => Sys2Proof.Machine.execWriteNodeReport rest s
  | .writeSpanReport rest => Sys2Proof.Machine.execWriteSpanReport rest s
  | .clearLatch rest => Sys2Proof.Machine.execClearLatch rest s
  | .submit rest => Sys2Proof.Machine.execSubmit rest s
  | .cancel rest => Sys2Proof.Machine.execCancel rest s
  | .releaseSlot rest => Sys2Proof.Machine.execReleaseSlot rest s
  | .readSlot rest => Sys2Proof.Machine.execReadSlot rest s
  | .commitIntent rest => Sys2Proof.Machine.execCommitIntent rest s
  | .withdraw rest => Sys2Proof.Machine.execWithdraw rest s
  | .forceEpoch rest => Sys2Proof.Machine.execForceEpoch rest s
  | .start rest strap => Sys2Proof.Machine.execStart rest strap s
  | .restart rest => Sys2Proof.Machine.execRestart rest s
  | .mute rest => Sys2Proof.Machine.execMute rest s
  | .clearMute rest => Sys2Proof.Machine.execClearMute rest s
  | .setEnables rest => Sys2Proof.Machine.execSetEnables rest s
  | .clearIndications rest => Sys2Proof.Machine.execClearIndications rest s
  | .readStoreWord rest => Sys2Proof.Machine.execReadStoreWord rest s
  | .writeStoreWord rest => Sys2Proof.Machine.execWriteStoreWord rest s
  | .loadWordRead => Sys2Proof.Machine.execLoadWordRead s
  | .epochTransferEnd => Sys2Proof.Machine.execEpochTransferEnd s

end Sys2Proof.Machine
end

