-- ==== Sys2Proof/Machine/Tick.lean ====
section
/-! DEFINITION. What passes on an empty queue: one millisecond (log 14, DESIGN CHOICE). Timers run down, no expiry takes effect here. -/

namespace Sys2Proof.Machine

/-- The dark timer stands frozen in FAULTED (R4). -/
def Scr.tick (x : Scr) (frozen : Bool) : Scr := if frozen then x else { x with darkTimer := tickTimer x.darkTimer }

/-- The quiet gap and the echo check run (R11, R12). -/
def Service.tick (v : Service) : Service :=
  { v with phase := match v.phase with
             | .wait gap => .wait (tickTimer gap)
             | .send d => .send d
             | .echo left => .echo (left - 1) }

/-- The timers of the transmitter. -/
def Sct.tick (x : Sct) : Sct := { x with service := x.service.map Service.tick }

/-- A peer's lifetime runs; the own entry has none (R19). -/
def DirEntry.tick : DirEntry → DirEntry
  | .peer u left => .peer u (left - 1)
  | .own u => .own u

/-- The timers of the directory (R19, R27, R29). The claim-round timer stands while the mute flag is set (R27), and goes on from there when it
clears: DESIGN CHOICE, log 26. -/
def Dir.tick (x : Dir) (muted : Bool) : Dir :=
  { x with entries := x.entries.map fun e => e.map DirEntry.tick
           roundTimer := if muted then x.roundTimer else tickTimer x.roundTimer
           noNumberTimer := tickTimer x.noNumberTimer }

/-- The hunt timer of a degree runs while its receiver does (R37, R46). -/
def Degree.tick (x : Degree) (runs : Bool) : Degree :=
  { x with receiver := match x.receiver with
             | .hunt left => .hunt (if runs then left - 1 else left)
             | .idle => .idle
             | .found => .found
             | .locked => .locked }

/-- A qualifier timer runs in every station state (R59). -/
def SpmDegree.tick (x : SpmDegree) : SpmDegree :=
  { x with monitor := match x.monitor with
             | .clear => .clear
             | .pending left held => .pending (left - 1) held
             | .degraded h => .degraded h }

/-- The timers of the report originator (R67, R68). -/
def Org.tick (x : Org) : Org := { x with holdDown := tickTimer x.holdDown, refresh := tickTimer x.refresh }

/-- The lifetime of a staging peer intent runs (R83). -/
def StagedIntent.tick (x : StagedIntent) : StagedIntent := { x with left := x.left - 1 }

/-- The epoch timer and the lifetimes of staging peer intents run (R83, R85). -/
def Tdb.tick (x : Tdb) : Tdb :=
  { x with stagingIntents := x.stagingIntents.map fun e => e.map StagedIntent.tick, epochTimer := tickTimer x.epochTimer }

/-- The window and refresh timers of an intent run (R149, R150). -/
def Intent.tick : Intent → Intent
  | .none => .none
  | .claiming p ps window refresh => .claiming p ps (tickTimer window) (refresh - 1)
  | .held p ps refresh => .held p ps (refresh - 1)
  | .lost why p ps => .lost why p ps

/-- The intent timers of a slot. -/
def Slot.tick (x : Slot) : Slot := { x with intent := x.intent.tick }

/-- A store write in progress (R180). -/
def StoreWrite.tick (w : StoreWrite) : StoreWrite := { w with left := w.left - 1 }

/-- The load timer and the store-busy timer run (R177, R180). -/
def Psr.tick (x : Psr) : Psr := { x with loadTimer := tickTimer x.loadTimer, busy := x.busy.map StoreWrite.tick }

/-- One millisecond of the whole part. -/
def tickAll (s : State) : State :=
  { s with scr := s.scr.tick (decide (s.dir.station = .faulted))
           sct := s.sct.tick
           dir := s.dir.tick s.sct.mute
           degrees := s.degrees.map fun x => x.tick (s.receiverRuns x)
           spm := { s.spm with degrees := s.spm.degrees.map SpmDegree.tick }
           org := s.org.tick
           tdb := s.tdb.tick
           slots := s.slots.map Slot.tick
           psr := s.psr.tick }

/-- A step with no command waiting; no timer runs in device reset (R184). -/
def tick (s : State) : State := live tickAll s

end Sys2Proof.Machine
end

