-- ==== Sys2Proof/Safety.lean ====
section
/-! DEFINITION. The terms the statements are made in: what the port answers, when rows apply, and the laws of the spec as predicates. -/

namespace Sys2Proof.Machine

/-! ## What a row meets and what it leaves -/

/-- The request port takes the next command: not in device reset, and no command is being taken (R159, R160). -/
def State.listens (s : State) : Prop := s.inReset = false ∧ s.lrp.taking = false

/-- A state with the response to a command transaction of `n` bytes (R159, R160, R162): the buffer is replaced, its number is one
more, the command buffer is empty, no command is being taken, data-out carried 0. -/
def State.answered (s : State) (n : Nat) (command : Byte) (status : Status) (clamped : Bool) (payload : List Byte) : State :=
  { s with lrp := { commandBuffer := [], taking := false, command := command, number := s.lrp.number + 1, status := status,
                    clamped := clamped, payload := payload, dataOut := List.replicate n 0 } }

/-- An indication is set in a state (R170, R185). -/
def State.shows (s : State) (i : Indication) : Prop := s.ntf.indications.getLsbD i.position = true

/-- A load is under way (R177). -/
def State.loading (s : State) : Prop := s.inReset = false ∧ s.dir.station = .loading ∧ s.psr.loadTimer.isSome = true

/-- The SCR is decoding an episode (R4). -/
def State.decodes (s : State) : Prop := s.inReset = false ∧ s.scr.decoding = true ∧ s.dir.station ≠ .faulted

/-- The DIR may take the frame `f` next (R20): it is the oldest of the receive queue. -/
def State.offers (s : State) (f : Frame) (rest : List Frame) : Prop := s.inReset = false ∧ s.scr.rxQueue = f :: rest

/-- The state with the oldest frame gone from the receive queue (R6). -/
def State.withRxQueue (s : State) (rest : List Frame) : State := { s with scr := { s.scr with rxQueue := rest } }

/-- A CLAIM's mode is one of the two of R187; every other kind passes check 2 of R20. -/
def Frame.modeKnown (f : Frame) : Prop :=
  match f.body with
  | .claim _ mode => mode = modeJoining ∨ mode = modeDefending
  | _ => True

/-- A degree hears its line and the receiver runs (R37, R46). -/
def State.hears (s : State) (d : Nat) (x : Degree) : Prop :=
  s.inReset = false ∧ s.degrees[d]? = some x ∧ x.trace.hears = true ∧ s.dir.station ≠ .faulted

/-- The table of R17: what one sample of level `l` makes of a pin's filter. -/
def PinFollows (p : PinState) (l : Bool) (q : PinState) : Prop :=
  if p.accepted = some l then q = { accepted := some l, run := none }
  else
    match p.run with
    | some (m, n) =>
      if m = l then
        if n + 1 < 4 then q = { accepted := p.accepted, run := some (l, n + 1) } else q = { accepted := some l, run := none }
      else q = { accepted := p.accepted, run := some (l, 1) }
    | none => q = { accepted := p.accepted, run := some (l, 1) }

/-- A pin's filter takes over the level `l` at this sample (R17). -/
def PinTurns (p q : PinState) (l : Bool) : Prop := p.accepted ≠ some l ∧ q.accepted = some l

/-- Class order of the transmit queue (R10): CLAIM, then INTENT and RELEASE, then REPORT. -/
def Body.rank : Body → Nat
  | .claim _ _ => 0
  | .intent _ _ _ => 1
  | .release _ => 1
  | .report _ => 2

/-- A standing own intent of a slot (R145). -/
def State.standsIn (s : State) (i : Nat) (x : Slot) : Prop := s.slot i = some x ∧ x.intent.stands = true

/-- Every intent except that of slot `i` is what it was. -/
def SameOtherSlots (s t : State) (i : Nat) : Prop := ∀ k, k ≠ i → t.slot k = s.slot k

/-- Sixteen bit periods that carry the sync pattern end at the bit period `k` of what a receiver hears (R34, R37). -/
def syncAt (levels : List Bool) (k : Nat) : Prop :=
  16 ≤ k ∧ (levels.drop (2 * (k - 16))).take 32 = manchester (bitsMsb (0x1F35 : BitVec 16))

/-- What a change signal makes of a part in MEMBER (R64, R65): nothing when the content of the own report is that of the one held in
staging, sequence number and missed list left out; else pending-change is set while the hold-down timer runs, and else the report is
staged, queued and its timers started (R66). -/
def State.judgedTo (u t : State) : Prop :=
  ((∃ h, place u.tdb.staging u.ownNumber = some h
      ∧ u.ownReport = { h.report with seq := u.ownReport.seq, missed := u.ownReport.missed }) → t = u)
    ∧ ((∀ h, place u.tdb.staging u.ownNumber = some h →
          u.ownReport ≠ { h.report with seq := u.ownReport.seq, missed := u.ownReport.missed }) →
        (u.org.holdDown.isSome = true → t = { u with org := { u.org with pendingChange := true } })
        ∧ (u.org.holdDown = none →
            t = (let v := handOverPlain (.report u.ownReport) { u with tdb := { u.tdb with
                staging := u.tdb.staging.set u.ownNumber (some { uid := u.ownUid, report := u.ownReport }), dirty := true } }
              { v with org := { seq := u.org.seq + 1, missed := [], holdDown := some 500, refresh := some (1000 * u.psr.working.refresh),
                                pendingChange := false } })))

/-! ## Fields a frame can carry -/

/-- A pair fits its three bytes (R187). -/
def Pair.fits (p : Pair) : Prop := p.station < 256 ∧ p.degree < 256 ∧ p.channel < 256

/-- A link entry fits its 24 bytes (R187). -/
def Link.fits (l : Link) : Prop :=
  l.degree < 16 ∧ l.nbrDegree < 16 ∧ l.noise < 2 ^ 24 ∧ l.latency < 2 ^ 16 ∧ l.cost < 2 ^ 14

/-- A report fits its body (R2, R187). -/
def Report.fits (r : Report) : Prop :=
  r.domain < 256 ∧ r.passNoise < 2 ^ 24 ∧ r.regens < 256 ∧ r.missed.length = 4 ∧ (∀ n ∈ r.missed, n < 256)
    ∧ r.links.length ≤ 8 ∧ ∀ l ∈ r.links, l.fits

/-- A body fits its layout (R2, R187). -/
def Body.fits : Body → Prop
  | .claim requested mode => requested < 256 ∧ mode < 256
  | .report r => r.fits
  | .intent id priority pairs => id < 256 ∧ priority < 256 ∧ 1 ≤ pairs.length ∧ pairs.length ≤ 16 ∧ ∀ p ∈ pairs, p.fits
  | .release id => id < 256

/-- A frame fits its layout (R2, R187). -/
def Frame.fits (f : Frame) : Prop := f.number < 256 ∧ f.lifetime < 256 ∧ f.body.fits

/-- The levels that a station puts on the line for a frame (R1, R2, R187). -/
def Frame.onLine (f : Frame) : List Bool := manchester (lineBits (delimiter :: encodeFrame f))

/-! ## The laws -/

/-- Every table has its size (R7 to R178): directory 48, report tables 48, intent tables 32, degrees 8, slots 8, LOL pins 8, store 70. -/
def State.sized (s : State) : Prop :=
  s.dir.entries.length = 48 ∧ s.tdb.staging.length = 48 ∧ s.tdb.active.length = 48 ∧ s.tdb.stagingIntents.length = 32
    ∧ s.tdb.activeIntents.length = 32 ∧ s.degrees.length = 8 ∧ s.spm.degrees.length = 8 ∧ s.slots.length = 8
    ∧ s.pins.lol.length = 8 ∧ s.psr.store.length = 70 ∧ s.psr.outcomes.length = 70 ∧ s.psr.working.degrees.length = 8
    ∧ s.psr.working.classes.length = 8

/-- Every queue and count stays within its bound: receive queue (R6), history and good run (R7), transmit queue with at most one
CLAIM and one REPORT (R9), missed list (R74), frontier (R131). -/
def State.bounded (s : State) : Prop :=
  s.scr.rxQueue.length ≤ 8 ∧ s.scr.history.length ≤ 16 ∧ s.scr.goodRun ≤ 8 ∧ s.sct.queue.length ≤ 8
    ∧ s.sct.queue.countP Body.isClaim ≤ 1 ∧ s.sct.queue.countP Body.isReport ≤ 1 ∧ s.org.missed.length ≤ 4
    ∧ s.org.missed.Nodup ∧ s.pen.frontier.length ≤ 256

/-- The law of the directory (R19), with what keeps it: a unique ID stands under at most one number, the own entry stands in MEMBER
under the candidate alone, no peer has the own unique ID, and the own unique ID is that of store words 0 and 1, which no write in
progress names (R175, R178, R180). -/
def State.directoryLaw (s : State) : Prop :=
  (∀ n m e f, s.entry n = some e → s.entry m = some f → e.uid = f.uid → n = m)
    ∧ (∀ n u, s.entry n = some (.own u) → u = s.ownUid ∧ s.dir.station = .member ∧ s.dir.candidate = some n)
    ∧ (∀ n u l, s.entry n = some (.peer u l) → u ≠ s.ownUid)
    ∧ (∀ f ∈ s.scr.rxQueue, f.uid ≠ s.ownUid)
    ∧ s.ownUid = storedUid s.psr.store
    ∧ ∀ w, s.psr.busy = some w → 2 ≤ w.word

/-- The laws of the slots (R97, R99, R123): tags differ, the request queue holds each QUEUED slot once and no other, at most four are
QUEUED, and the slot the PEN searches is the one that is RUNNING. -/
def State.slotLaw (s : State) : Prop :=
  (∀ i k a b tag, s.slotState i = some a → s.slotState k = some b → a.tag = some tag → b.tag = some tag → i = k)
    ∧ s.reqQueue.Nodup
    ∧ (∀ i, i ∈ s.reqQueue ↔ ∃ job, s.slotState i = some (.queued job))
    ∧ s.reqQueue.length ≤ 4
    ∧ ∀ i, s.pen.searching = some i ↔ ∃ job epoch, s.slotState i = some (.running job epoch)

/-- The laws of the intents (R95, R145, R147): an intent other than NONE is on a FOUND or INVALID slot, it stands only in MEMBER, and
no two standing intents share a pair. -/
def State.intentLaw (s : State) : Prop :=
  s.slots.length = 8
    ∧ (∀ i x, s.slot i = some x → x.intent ≠ .none → x.state.hops.isSome = true)
    ∧ (∀ i x, s.standsIn i x → s.dir.station = .member)
    ∧ ∀ i k x y, i ≠ k → s.standsIn i x → s.standsIn k y → ∀ p ∈ x.intent.pairs, p ∉ y.intent.pairs

/-- When the lines may speak (R14, R16, R36): frames are queued or in service in JOINING and MEMBER only, none is in SEND while the mute
flag is set, and a trace word is on a line only for an equipped degree in a state that sends. -/
def State.lineLaw (s : State) : Prop :=
  (s.sct.queue ≠ [] → s.transmits = true) ∧ (s.sct.service ≠ none → s.transmits = true)
    ∧ (s.scTx ≠ none → s.sct.mute = false)
    ∧ ∀ x ∈ s.degrees, x.txWord ≠ none → s.active = true ∧ x.trace.equipped = true

/-- The laws of the topology database (R77, R86): no two entries of a peer-intent table share unique ID and intent id, and dirty is set
while an epoch is pending. -/
def State.tdbLaw (s : State) : Prop :=
  (∀ p q a b, place s.tdb.stagingIntents p = some a → place s.tdb.stagingIntents q = some b →
      a.entry.uid = b.entry.uid → a.entry.id = b.entry.id → p = q)
    ∧ (∀ p q a b, place s.tdb.activeIntents p = some a → place s.tdb.activeIntents q = some b → a.uid = b.uid → a.id = b.id → p = q)
    ∧ (s.tdb.pendingEpoch = true → s.tdb.dirty = true)

/-! ## Paths -/

/-- Hops that lead from one station to another, each hop's to station the next hop's from station (R95). -/
def hopsLead : Nat → List Hop → Nat → Prop
  | a, [], b => a = b
  | a, h :: rest, b => h.src = a ∧ hopsLead h.dst rest b

/-- The law of a hop list and its totals (R95): 1 to 16 hops from the request's source to its destination, no station twice, the first
flag clear, at most two regeneration points, one segment more than flags. -/
def PathResult.lawful (r : PathResult) (req : Request) : Prop :=
  1 ≤ r.hops.length ∧ r.hops.length ≤ 16 ∧ hopsLead req.source r.hops req.destination
    ∧ (req.source :: r.hops.map fun h => h.dst).Nodup ∧ (∀ h ∈ r.hops, h.degree < 8 ∧ h.channel < 64)
    ∧ (∀ h, r.hops.head? = some h → h.regen = false)
    ∧ (r.hops.countP fun h => h.regen) = r.regens ∧ r.regens ≤ 2 ∧ r.segments.length = r.regens + 1

/-- What a label holds of its chain (R124, R130, R135, R136, R138), over the SETTLED labels `table`: it is the source label; or an extension,
to a station its chain does not visit, of a settled label; or the regeneration of a settled label at neither end of the path. -/
def labelLaw (req : Request) (table : List Reached) (e : Reached) : Prop :=
  match e.label.pred with
  | none => e.state = { station := req.source, channel := 64 } ∧ e.label.hops = 0 ∧ e.label.regens = 0
  | some q => ∃ e', settledAt table { station := q.station, channel := q.channel } = some e'
    ∧ match q.degree with
      | some d => d < 8 ∧ e.state.channel < 64 ∧ e.label.hops = e'.label.hops + 1 ∧ e.label.hops ≤ 16
          ∧ e.label.regens = e'.label.regens ∧ ∀ x ∈ chain table table.length e', x.state.station ≠ e.state.station
      | none => e.state = { station := e'.state.station, channel := 64 } ∧ e'.state.channel ≠ 64 ∧ e.state.station ≠ req.source
          ∧ e.label.hops = e'.label.hops ∧ e.label.regens = e'.label.regens + 1 ∧ e.label.regens ≤ 2

/-- The SETTLED labels of a search that runs, latest first: each state once, none at the destination, each label lawful over those before it. -/
def settledLaw (req : Request) : List Reached → Prop
  | [] => True
  | e :: table => settledLaw req table ∧ settledAt table e.state = none ∧ e.state.station ≠ req.destination ∧ labelLaw req table e

/-- The label table of a search that runs (R129 to R131): the settled labels, and a frontier of other states, each once and lawful. -/
def Pen.searchLaw (p : Pen) (req : Request) : Prop :=
  settledLaw req p.settled ∧ (∀ e ∈ p.frontier, settledAt p.settled e.state = none ∧ labelLaw req p.settled e)
    ∧ (p.frontier.map fun e => e.state).Nodup

/-- The law of the paths (R95): every FOUND or INVALID slot holds a lawful path; with what keeps it, the label table of the search that
runs, and requests whose source is not their destination (R98 check 4). -/
def State.pathLaw (s : State) : Prop :=
  (∀ i job epoch r, (s.slotState i = some (.found job epoch r) ∨ ∃ why, s.slotState i = some (.invalid job epoch r why)) →
      r.lawful job.request)
    ∧ (∀ i job epoch, s.pen.searching = some i → s.slotState i = some (.running job epoch) → s.pen.searchLaw job.request)
    ∧ ∀ i job, (s.slotState i = some (.queued job) ∨ ∃ epoch, s.slotState i = some (.running job epoch)) →
        job.request.source ≠ job.request.destination

/-- What follows when slot `i` leaves RUNNING (R88, R100, R101 steps 3 and 4): a pending transfer takes place, and else the database stands;
then the head of the request queue starts on the view that now stands. -/
def State.leftRunningTo (s t : State) (i : Nat) : Prop :=
  (s.tdb.pendingEpoch = true → t.tdb.active = s.tdb.staging
      ∧ t.tdb.activeIntents = s.tdb.stagingIntents.map (fun x => x.map fun e => e.entry) ∧ t.tdb.epoch = s.tdb.epoch + 1
      ∧ t.tdb.pendingEpoch = false ∧ t.tdb.dirty = false ∧ t.shows .epoch)
    ∧ (s.tdb.pendingEpoch = false → t.tdb = s.tdb)
    ∧ ∀ k rest job, s.reqQueue = k :: rest → s.slotState k = some (.queued job) → job.request.diverse = none →
        (∀ m y, m ≠ i → s.slot m = some y → y.state.isRunning = false) →
        (reportUnder t.tdb.active job.request.source).isSome = true → (reportUnder t.tdb.active job.request.destination).isSome = true →
        t.slotState k = some (.running job t.tdb.epoch) ∧ t.reqQueue = rest ∧ t.pen.searching = some k

/-! ## The result watch -/

/-- A channel is free on a span for a slot (R107). -/
def State.freeFor (s : State) (i : Nat) (x : Slot) (req : Request) (sp : Span) (k : Nat) : Prop :=
  (∃ r, reportUnder s.tdb.active sp.low.station = some r ∧ r.capability.getLsbD k = true)
    ∧ (∃ r, reportUnder s.tdb.active sp.high.station = some r ∧ r.capability.getLsbD k = true)
    ∧ (s.classOf req.cls).channels.getLsbD k = true
    ∧ (x.intent.isHeld = true ∨ sp.lit.getLsbD k = false)
    ∧ (∀ p e, place s.tdb.activeIntents p = some e →
        (x.intent.stands = true → req.priority < e.priority ∨ e.priority = req.priority ∧ e.uid < s.ownUid) → sp.pair k ∉ e.pairs)
    ∧ ∀ m y, m ≠ i → s.standsIn m y → sp.pair k ∉ y.intent.pairs

/-- The check of 1 to 3 of R105 that a hop fails first, by its reason. -/
def State.hopFails (s : State) (i : Nat) (x : Slot) (req : Request) (h : Hop) : InvalidReason → Prop
  | .spanGone => hopSpan s.tdb h = none
  | .spanDegraded => ∃ sp, hopSpan s.tdb h = some sp ∧ sp.degraded = true ∧ req.allowDegraded = false
  | .channelTaken => ∃ sp, hopSpan s.tdb h = some sp ∧ (sp.degraded = false ∨ req.allowDegraded = true)
      ∧ ¬ s.freeFor i x req sp h.channel
  | _ => False

/-! ## Ranges -/

/-- The clamped ranges of a link entry (R72). -/
def Link.inRange (l : Link) : Prop := l.noise ≤ 1000000 ∧ 1 ≤ l.cost ∧ l.cost ≤ 4095

/-- The clamped ranges of a report (R62, R72). -/
def Report.inRange (r : Report) : Prop := r.domain ≤ 15 ∧ r.passNoise ≤ 1000000 ∧ r.regens ≤ 15 ∧ ∀ l ∈ r.links, l.inRange

/-- Every value held in the span monitor, in a report table or in the span table lies in its range (R48, R72, R92, R112). -/
def State.valuesInRange (s : State) : Prop :=
  s.psr.working.domain ≤ 15 ∧ s.spm.passNoise ≤ 1000000 ∧ s.spm.regens ≤ 15
    ∧ (∀ x ∈ s.spm.degrees, x.noise ≤ 1000000 ∧ 1 ≤ x.cost ∧ x.cost ≤ 4095 ∧ x.latency ≤ 65535)
    ∧ (∀ n r, place s.tdb.staging n = some r → r.report.inRange)
    ∧ (∀ n r, place s.tdb.active n = some r → r.report.inRange)
    ∧ ∀ sp ∈ s.tdb.spans, sp.noise ≤ 1000000 ∧ 1 ≤ sp.cost ∧ sp.cost ≤ 4095

/-- The totals of a label stay at or below their ceilings (R117). -/
def Label.belowCeilings (l : Label) : Prop := l.cost ≤ 1048575 ∧ l.noise ≤ 16777215 ∧ l.latency ≤ 16777215

/-- The totals of a result stay at or below their ceilings (R95, R117). -/
def PathResult.belowCeilings (r : PathResult) : Prop :=
  r.cost ≤ 1048575 ∧ r.latency ≤ 16777215 ∧ ∀ x ∈ r.segments, x.noise ≤ 16777215

/-- Every total of the search and of the slots stays at or below its ceiling (R117). -/
def State.totalsBelowCeilings (s : State) : Prop :=
  (∀ e ∈ s.pen.settled, e.label.belowCeilings) ∧ (∀ e ∈ s.pen.frontier, e.label.belowCeilings)
    ∧ ∀ i x, s.slot i = some x → match x.state with
      | .found _ _ r => r.belowCeilings
      | .invalid _ _ r _ => r.belowCeilings
      | _ => True

/-- The working parameters lie in their working ranges (R178). -/
def Params.inRange (p : Params) : Prop :=
  p.base < 48 ∧ p.domain < 16 ∧ 1 ≤ p.refresh ∧ p.refresh ≤ 60 ∧ 1 ≤ p.epoch ∧ p.epoch ≤ 255 ∧ 3 ≤ p.lifetime ∧ p.lifetime ≤ 255
    ∧ (∀ m ∈ p.degrees, 1 ≤ m.threshold ∧ m.threshold ≤ 1000000 ∧ m.hysteresis ≤ 65535 ∧ m.qualifier ≤ 7)
    ∧ ∀ c ∈ p.classes, c.home < 16 ∧ c.budget ≤ 1000000 ∧ c.maxPasses ≤ 15 ∧ c.maxLatency ≤ 16777215 ∧ c.regenCost ≤ 4095
      ∧ c.penalty ≤ 1000000

/-- A label lies within the limits of its class and of every path (R118, R119, R136, R138). -/
def Label.withinLimits (l : Label) (cls : ClassEntry) : Prop :=
  l.noise ≤ cls.budget ∧ l.passes ≤ cls.maxPasses ∧ (cls.maxLatency = 0 ∨ l.latency ≤ cls.maxLatency) ∧ l.hops ≤ 16 ∧ l.regens ≤ 2

/-- A frontier lists its references best key first (R131): no later reference has a better key than an earlier one. -/
def SearchEnv.ordered (env : SearchEnv) (frontier : List Reached) : Prop :=
  frontier.Pairwise fun x y => env.better y x = false

/-- The active view: reports, intents, spans and their epoch number (R93). -/
def State.sameView (s t : State) : Prop :=
  t.tdb.active = s.tdb.active ∧ t.tdb.activeIntents = s.tdb.activeIntents ∧ t.tdb.spans = s.tdb.spans ∧ t.tdb.epoch = s.tdb.epoch

/-! ## The payload of SUBMIT -/

/-- What a SUBMIT payload spells, field by field (R188). `items` are station and degree bytes; `spare` are the two presence bits that are
ignored. -/
structure SubmitForm where
  tag     : Byte
  src     : Byte
  dst     : Byte
  cls     : Byte
  policy  : Byte
  flags   : Byte
  prio    : Byte
  spare   : BitVec 2
  hint    : Option Byte
  diverse : Option Byte
  items   : List (Byte × Byte)

/-- The presence byte (R188): exclusion count in bits 7 to 4, a diverse-from index in bit 1, a hint in bit 0. -/
def SubmitForm.presence (f : SubmitForm) : Byte :=
  (BitVec.ofNat 4 f.items.length ++ f.spare ++ BitVec.ofBool f.diverse.isSome ++ BitVec.ofBool f.hint.isSome : BitVec (4 + 2 + 1 + 1))

/-- The payload in the order of R188. -/
def SubmitForm.payload (f : SubmitForm) : List Byte :=
  [f.tag, f.src, f.dst, f.cls, f.policy, f.flags, f.prio, f.presence] ++ f.hint.toList ++ f.diverse.toList
    ++ f.items.flatMap fun x => [x.1, x.2]

/-- The row that carries it: its length, then the payload (R188). -/
def SubmitForm.row (f : SubmitForm) : Instr := .submit (byte f.payload.length :: f.payload)

/-- A field is out of range (R98 check 3, R188). -/
def SubmitForm.outOfRange (f : SubmitForm) : Bool :=
  decide (f.tag = 0) || decide (48 ≤ f.src.toNat) || decide (48 ≤ f.dst.toNat) || decide (8 ≤ f.cls.toNat) || decide (2 ≤ f.policy.toNat)
    || decide (8 ≤ f.prio.toNat) || f.hint.any (fun h => decide (64 ≤ h.toNat)) || decide (4 < f.items.length)
    || f.items.any (fun x => decide (48 ≤ x.1.toNat) || (decide (8 ≤ x.2.toNat) && decide (x.2 ≠ 255)))
    || f.diverse.any fun d => decide (8 ≤ d.toNat)

/-- A station item names an endpoint (R98 check 5): the degree byte 255 makes an item a station item (R188). -/
def SubmitForm.excludesEndpoint (f : SubmitForm) : Bool :=
  f.items.any fun x => decide (x.2 = 255) && (decide (x.1 = f.src) || decide (x.1 = f.dst))

/-- The diverse-from slot is neither FOUND nor INVALID (R98 check 8). -/
def State.badRef (s : State) (f : SubmitForm) : Bool :=
  f.diverse.any fun d => (s.slotState d.toNat).all fun x => x.hops.isNone

/-- The job a taken SUBMIT leaves in its slot (R95, R98, R188). -/
def State.jobOf (s : State) (f : SubmitForm) : Job :=
  { tag := f.tag.toNat
    request := { source := f.src.toNat, destination := f.dst.toNat, cls := f.cls.toNat,
                 policy := if f.policy = 0 then .firstFit else .leastCost, allowDegraded := f.flags.getLsbD 0,
                 allowRegen := f.flags.getLsbD 1, avoidImpaired := f.flags.getLsbD 2, priority := f.prio.toNat,
                 hint := f.hint.map BitVec.toNat
                 exclusions := f.items.map fun x =>
                   if x.2 = 255 then .station x.1.toNat else .atEnd { station := x.1.toNat, degree := x.2.toNat }
                 diverse := f.diverse.map BitVec.toNat }
    refTag := f.diverse.bind fun d => (s.slotState d.toNat).bind fun x => x.tag }

/-- The ends the search of a request keeps off (R125): the near ends of the hops of the diverse-from slot. -/
def State.endsOf (s : State) (f : SubmitForm) : List End :=
  match f.diverse.bind fun d => (s.slotState d.toNat).bind fun x => x.hops with
  | some hops => hops.map fun h => { station := h.src, degree := h.degree }
  | none => []

/-! ## The record of a slot as READ SLOT shows it -/

/-- What a slot that is not FREE shows (R95, R188): its job, the code of its state, epoch, reason, settlement count and result; what the state
does not hold is 0 or empty. -/
def State.shownIn (s : State) (x : Slot) (j : Job) (code epoch reason settlements : Nat) (r : PathResult) : Prop :=
  match x.state with
  | .free => False
  | .queued job => j = job ∧ code = 1 ∧ epoch = 0 ∧ reason = 0 ∧ settlements = 0 ∧ r = noResult
  | .running job e => j = job ∧ code = 2 ∧ epoch = e.toNat ∧ reason = 0 ∧ settlements = s.pen.settlements ∧ r = noResult
  | .found job e held => j = job ∧ code = 3 ∧ epoch = e.toNat ∧ reason = 0 ∧ settlements = 0 ∧ r = held
  | .invalid job e held why => j = job ∧ code = 4 ∧ epoch = e.toNat ∧ reason = why.code ∧ settlements = 0 ∧ r = held
  | .failed job e why pruned =>
    j = job ∧ code = 5 ∧ epoch = e.toNat ∧ reason = why.code ∧ settlements = 0 ∧ r = { noResult with pruned := pruned }

/-- A pair in three bytes (R188). -/
def Pair.bytes (p : Pair) : List Byte := [byte p.station, byte p.degree, byte p.channel]

/-- An exclusion item in two bytes (R188). -/
def Exclusion.bytes : Exclusion → List Byte
  | .station n => [byte n, 255]
  | .atEnd e => [byte e.station, byte e.degree]

/-! ## The pins of the port -/

/-- The levels of a transaction of these bits (R159): for each bit the clock low, then high, with the bit on data-in; then chip select
is deasserted. -/
def spiLevels (bits : List Bool) : List SpiLevels :=
  bits.flatMap (fun b => [{ cs := false, sck := false, sdi := b }, { cs := false, sck := true, sdi := b }])
    ++ [{ cs := true, sck := false, sdi := false }]

/-! ## Command rows -/

/-- The rows of the commands of a fixed payload length: command byte, that length, and the bytes after the command byte (R161, R188). -/
def fixedLength : Instr → Option (Byte × Nat × List Byte)
  | .readStatus rest => some (2, 0, rest)
  | .readDirectoryEntry rest => some (3, 1, rest)
  | .readReport rest => some (4, 2, rest)
  | .readPeerIntent rest => some (5, 2, rest)
  | .readDegree rest => some (6, 1, rest)
  | .writeNodeReport rest => some (16, 112, rest)
  | .writeSpanReport rest => some (17, 4, rest)
  | .clearLatch rest => some (18, 1, rest)
  | .cancel rest => some (33, 1, rest)
  | .releaseSlot rest => some (34, 1, rest)
  | .readSlot rest => some (35, 1, rest)
  | .commitIntent rest => some (48, 1, rest)
  | .withdraw rest => some (49, 1, rest)
  | .forceEpoch rest => some (64, 0, rest)
  | .start rest _ => some (65, 0, rest)
  | .restart rest => some (66, 0, rest)
  | .mute rest => some (67, 0, rest)
  | .clearMute rest => some (68, 0, rest)
  | .setEnables rest => some (80, 2, rest)
  | .clearIndications rest => some (81, 2, rest)
  | .readStoreWord rest => some (96, 1, rest)
  | .writeStoreWord rest => some (97, 5, rest)
  | _ => none

/-- The rows that are command transactions: those of a fixed length, SUBMIT, and an unknown command byte. -/
def isCommand : Instr → Bool
  | .submit _ => true
  | .unknownCommand _ _ => true
  | c => (fixedLength c).isSome

/-! ## What a row may write -/

/-- The parts of State: the queue, whether the part is held in reset, and the blocks of 00. -/
inductive Block where
  | pending | inReset | scr | sct | pins | dir | degrees | spm | org | tdb | slots | reqQueue | pen | lrp | ntf | psr
  deriving DecidableEq, Repr

/-- Two states agree on a block. -/
def State.agree (s t : State) : Block → Prop
  | .pending => t.pending = s.pending
  | .inReset => t.inReset = s.inReset
  | .scr => t.scr = s.scr
  | .sct => t.sct = s.sct
  | .pins => t.pins = s.pins
  | .dir => t.dir = s.dir
  | .degrees => t.degrees = s.degrees
  | .spm => t.spm = s.spm
  | .org => t.org = s.org
  | .tdb => t.tdb = s.tdb
  | .slots => t.slots = s.slots
  | .reqQueue => t.reqQueue = s.reqQueue
  | .pen => t.pen = s.pen
  | .lrp => t.lrp = s.lrp
  | .ntf => t.ntf = s.ntf
  | .psr => t.psr = s.psr

/-- What a signal to the ORG can reach: its own state, the staging table, the transmit queue, TX_ABANDON (R65, R66). -/
def reportBlocks : List Block := [.org, .tdb, .sct, .ntf]

/-- The blocks a row can write, after spec/95 and the rules it names there. -/
def rowWrites : Instr → List Block
  | .deviceReset => [.inReset, .scr, .sct, .pins, .dir, .degrees, .spm, .org, .tdb, .slots, .reqQueue, .pen, .lrp, .ntf, .psr]
  | .resetRelease => [.inReset, .psr]
  | .loadEnd => [.psr, .sct, .dir, .scr, .ntf, .degrees, .spm, .tdb]
  | .pinSample _ _ => .pins :: .degrees :: .slots :: reportBlocks
  | .frameStart => [.scr, .sct, .ntf]
  | .carrierEnd => [.scr, .sct]
  | .episodeEnd _ => .scr :: .slots :: .dir :: reportBlocks
  | .darkTimerExpiry => .scr :: reportBlocks
  | .takeIntoService => [.sct]
  | .quietGapExpiry => [.sct]
  | .sendEnd => [.sct, .slots, .dir, .ntf]
  | .echoCheckClose => [.sct, .slots, .ntf]
  | .takeReceivedFrame _ => .scr :: .slots :: .dir :: reportBlocks
  | .peerLifetimeExpiry _ => [.dir, .tdb, .ntf]
  | .claimRoundTimerExpiry => .dir :: reportBlocks
  | .noNumberTimerExpiry _ => [.dir, .sct, .ntf]
  | .traceWordSend _ => [.degrees]
  | .traceSyncMatch _ => [.degrees]
  | .traceWordJudgement _ _ => .degrees :: reportBlocks
  | .huntTimerExpiry _ => .degrees :: reportBlocks
  | .qualifierTimerExpiry _ => .spm :: reportBlocks
  | .holdDownExpiry => reportBlocks
  | .refreshTimerExpiry => reportBlocks
  | .epochTimerExpiry => [.tdb, .slots, .ntf, .pen, .reqQueue]
  | .peerIntentLifetimeExpiry _ => [.tdb]
  | .settlement => [.tdb, .slots, .ntf, .pen, .reqQueue]
  | .windowTimerExpiry _ => [.slots, .ntf]
  | .intentRefreshExpiry _ => [.slots, .sct, .ntf]
  | .storeBusyExpiry => [.psr]
  | .readResponse _ => [.lrp]
  | .ignoredTransaction _ => [.lrp]
  | .unknownCommand _ _ => [.lrp]
  | .readStatus _ => [.lrp]
  | .readDirectoryEntry _ => [.lrp]
  | .readDegree _ => [.lrp]
  | .readReport _ => [.lrp]
  | .readPeerIntent _ => [.lrp]
  | .writeNodeReport _ => .lrp :: .spm :: reportBlocks
  | .writeSpanReport _ => .lrp :: .spm :: reportBlocks
  | .clearLatch _ => .lrp :: .spm :: reportBlocks
  | .submit _ => [.lrp, .slots, .ntf, .pen, .reqQueue]
  | .cancel _ => [.lrp, .tdb, .slots, .ntf, .pen, .reqQueue]
  | .releaseSlot _ => [.lrp, .slots, .sct, .ntf]
  | .readSlot _ => [.lrp]
  | .commitIntent _ => [.lrp, .slots, .sct, .ntf]
  | .withdraw _ => [.lrp, .slots, .sct, .ntf]
  | .forceEpoch _ => [.lrp, .tdb, .slots, .ntf, .pen, .reqQueue]
  | .start _ _ => [.lrp, .dir, .sct, .ntf]
  | .restart _ => [.lrp, .scr, .sct, .dir, .degrees, .org, .tdb, .slots, .reqQueue, .pen, .ntf, .psr]
  | .mute _ => [.lrp, .sct, .slots, .ntf]
  | .clearMute _ => [.lrp, .sct]
  | .setEnables _ => [.lrp, .ntf]
  | .clearIndications _ => [.lrp, .ntf]
  | .readStoreWord _ => [.lrp]
  | .writeStoreWord _ => [.lrp, .psr]
  | .loadWordRead => [.psr]
  | .epochTransferEnd => [.lrp, .tdb, .slots, .ntf, .pen, .reqQueue]

/-! ## Store words -/

/-- A store word with one of its 39 bits inverted: 0 to 31 a data bit, 32 to 38 a check bit. -/
def StoreWord.flip (w : StoreWord) (p : Fin 39) : StoreWord :=
  if p.val < 32 then { w with data := w.data ^^^ (1#32 <<< p.val) } else { w with check := w.check ^^^ (1#7 <<< (p.val - 32)) }

end Sys2Proof.Machine
end

