-- ==== Sys2Proof/WellFormed.lean ====
section
/-! DEFINITION. Which commands and events are well formed: their operands name something that exists. -/

namespace Sys2Proof

/-- A station number (R19). -/
abbrev isStation (n : Nat) : Bool := decide (n < Config.stations)
/-- A degree (00 Conventions). -/
abbrev isDegree (d : Nat) : Bool := decide (d < Config.degrees)
/-- A path slot (R95). -/
abbrev isSlot (i : Nat) : Bool := decide (i < Config.slots)
/-- A place of a peer-intent table (R77). -/
abbrev isPlace (p : Nat) : Bool := decide (p < Config.intentPlaces)

/-- The operands of a row name something that exists. Bytes clocked by the node controller are never
ill formed, R161 judges them; but a read transaction is never ignored (R160). -/
def Instr.wellFormed : Instr → Bool
  | .deviceReset => true
  | .resetRelease => true
  | .loadEnd => true
  | .pinSample _ _ => true
  | .frameStart => true
  | .carrierEnd => true
  | .episodeEnd _ => true
  | .darkTimerExpiry => true
  | .takeIntoService => true
  | .quietGapExpiry => true
  | .sendEnd => true
  | .echoCheckClose => true
  | .takeReceivedFrame _ => true
  | .peerLifetimeExpiry number => isStation number
  | .claimRoundTimerExpiry => true
  | .noNumberTimerExpiry _ => true
  | .traceWordSend degree => isDegree degree
  | .traceSyncMatch heard => isDegree heard.degree
  | .traceWordJudgement degree _ => isDegree degree
  | .huntTimerExpiry degree => isDegree degree
  | .qualifierTimerExpiry degree => isDegree degree
  | .holdDownExpiry => true
  | .refreshTimerExpiry => true
  | .epochTimerExpiry => true
  | .peerIntentLifetimeExpiry place => isPlace place
  | .settlement => true
  | .windowTimerExpiry slot => isSlot slot
  | .intentRefreshExpiry slot => isSlot slot
  | .storeBusyExpiry => true
  | .readResponse _ => true
  | .ignoredTransaction bits => (Machine.bytesOf bits).head? != some Machine.cmdReadResponse
  | .unknownCommand command _ => !Machine.namedBytes.contains command
  | .readStatus _ => true
  | .readDirectoryEntry _ => true
  | .readDegree _ => true
  | .readReport _ => true
  | .readPeerIntent _ => true
  | .writeNodeReport _ => true
  | .writeSpanReport _ => true
  | .clearLatch _ => true
  | .submit _ => true
  | .cancel _ => true
  | .releaseSlot _ => true
  | .readSlot _ => true
  | .commitIntent _ => true
  | .withdraw _ => true
  | .forceEpoch _ => true
  | .start _ _ => true
  | .restart _ => true
  | .mute _ => true
  | .clearMute _ => true
  | .setEnables _ => true
  | .clearIndications _ => true
  | .readStoreWord _ => true
  | .writeStoreWord _ => true
  | .loadWordRead => true
  | .epochTransferEnd => true

end Sys2Proof
end

