-- ==== Sys2Proof/Certificates/Slice0/Obligations.lean ====
section
/-! DEFINITION. The statements for the provers, family by family of the command table. -/

open Sys2Proof
open Sys2Proof.Machine

/-! ## Steps, resets, the load -/

/-- spec/95: the rows are the part's steps. A step takes the command at the front of the queue and runs it on the queue's rest. -/
def Obligations.StepRunsFrontCommand : Prop :=
  ∀ (c : Instr) (s : State), step { s with pending := c :: s.pending } = exec c s

/-- DESIGN CHOICE, log 14: what a step does when no command waits is the model's. Every running timer loses 1 ms and stops at 0; the dark timer
stands frozen in FAULTED (R4), the claim-round timer stands while the mute flag is set (R27, log 26), a hunt timer runs while its receiver
does (R37); nothing else changes; in device reset nothing does. -/
def Obligations.IdleStepPassesOneMillisecond : Prop :=
  ∀ s : State, s.pending = [] → (s.inReset = true → step s = .next s) ∧ (s.inReset = false → ∃ t, step s = .next t
    ∧ t.pending = [] ∧ t.inReset = false ∧ t.pins = s.pins ∧ t.reqQueue = s.reqQueue ∧ t.pen = s.pen ∧ t.lrp = s.lrp ∧ t.ntf = s.ntf
    ∧ t.scr = { s.scr with darkTimer := if s.dir.station = .faulted then s.scr.darkTimer else s.scr.darkTimer.map (· - 1) }
    ∧ t.sct = { s.sct with service := s.sct.service.map fun v => { v with phase := match v.phase with
        | .wait gap => .wait (gap.map (· - 1))
        | .send decided => .send decided
        | .echo left => .echo (left - 1) } }
    ∧ t.dir = { s.dir with
        entries := s.dir.entries.map fun e => match e with
          | some (.peer u left) => some (.peer u (left - 1))
          | e => e
        roundTimer := if s.sct.mute then s.dir.roundTimer else s.dir.roundTimer.map (· - 1)
        noNumberTimer := s.dir.noNumberTimer.map (· - 1) }
    ∧ (∀ (d : Nat) (x : Degree), s.degrees[d]? = some x → ∃ y : Degree, t.degrees[d]? = some y ∧ y.trace = x.trace ∧ y.txWord = x.txWord
        ∧ (∀ n, x.receiver = .hunt n → x.trace.hears = true → s.dir.station ≠ .faulted → y.receiver = .hunt (n - 1))
        ∧ ((∀ n, x.receiver ≠ .hunt n) ∨ x.trace.hears = false ∨ s.dir.station = .faulted → y = x))
    ∧ t.spm = { s.spm with degrees := s.spm.degrees.map fun x => match x.monitor with
        | .pending left held => { x with monitor := .pending (left - 1) held }
        | _ => x }
    ∧ t.org = { s.org with holdDown := s.org.holdDown.map (· - 1), refresh := s.org.refresh.map (· - 1) }
    ∧ t.tdb = { s.tdb with stagingIntents := s.tdb.stagingIntents.map (fun x => x.map fun e => { e with left := e.left - 1 }),
                           epochTimer := s.tdb.epochTimer.map (· - 1) }
    ∧ t.slots = s.slots.map (fun x => { x with intent := match x.intent with
        | .claiming p ps window refresh => .claiming p ps (window.map (· - 1)) (refresh - 1)
        | .held p ps refresh => .held p ps (refresh - 1)
        | i => i })
    ∧ t.psr = { s.psr with loadTimer := s.psr.loadTimer.map (· - 1), busy := s.psr.busy.map fun w => { w with left := w.left - 1 } })

/-- R184 and the reset tables (R18, R33, R47, R61, R76, R94, R111, R144, R158, R174, R182): a device reset in any state keeps the
store alone, with the lines dark, data-out low and NOTIFY deasserted, its pin high (R183); the release begins the load of R177. The values of
log 2, 4, 5, 6 and 9 (no rule gives one) are not stated; the unique ID among the parameters is the model's choice: DESIGN CHOICE, log 28. -/
def Obligations.DeviceResetThenReleaseBeginsLoad : Prop :=
  (∀ s : State, ∃ t, exec .deviceReset s = .next t ∧ t.inReset = true ∧ t.pending = s.pending
    ∧ t.psr.store = s.psr.store ∧ t.psr.busy = none ∧ t.psr.outcomes = List.replicate 70 .clean
    ∧ t.psr.working = defaultParams s.psr.store
    ∧ t.scr.channel = .dark ∧ t.scr.history = [] ∧ t.scr.goodRun = 0 ∧ t.scr.darkTimer = none ∧ t.scr.rxQueue = []
    ∧ t.impaired = true ∧ t.sct.queue = [] ∧ t.sct.service = none ∧ t.sct.mute = false ∧ t.scTx = none
    ∧ t.pins = { mute := { accepted := none, run := none }, lol := List.replicate 8 { accepted := none, run := none } }
    ∧ t.dir.entries = List.replicate 48 none ∧ t.dir.station = .loading ∧ t.ownNumber = 255 ∧ t.dir.candidate = none
    ∧ t.dir.rounds = 0 ∧ t.dir.yielded = [] ∧ t.dir.roundTimer = none ∧ t.dir.noNumberTimer = none
    ∧ t.degrees = List.replicate 8 { trace := .unequipped, receiver := .idle, txWord := none }
    ∧ t.spm = { degrees := List.replicate 8 { lit := 0, cost := 1, latency := 0, noise := 0, monitor := .clear },
                passNoise := 0, regens := 0 }
    ∧ t.org = { seq := 1, missed := [], holdDown := none, refresh := none, pendingChange := false }
    ∧ t.tdb.staging = List.replicate 48 none ∧ t.tdb.active = List.replicate 48 none
    ∧ t.tdb.stagingIntents = List.replicate 32 none ∧ t.tdb.activeIntents = List.replicate 32 none ∧ t.tdb.spans = []
    ∧ t.tdb.dirty = false ∧ t.tdb.pendingEpoch = false ∧ t.tdb.epoch = 0 ∧ t.tdb.epochTimer = none
    ∧ t.slots = List.replicate 8 { state := .free, intent := .none } ∧ t.reqQueue = []
    ∧ t.pen = { searching := none, settled := [], frontier := [], pruned := false, settlements := 0, diverse := [], ownPairs := [] }
    ∧ t.lrp.commandBuffer = [] ∧ t.lrp.response = [255, 0, 0, 0, 0] ∧ t.beingTaken = false
    ∧ (∀ first k, t.sdoBit first k = false) ∧ t.ntf = { indications := 0, enables := 0 } ∧ t.notify = false ∧ t.notifyPin = true)
  ∧ (∀ s : State, s.inReset = true →
      exec .resetRelease s = .next { s with inReset := false, psr := { s.psr with loadTimer := some 20, loadIndex := 0 } })

/-- R159, R184: while the part is held in device reset every other row leaves every block as it is; a transaction finds data-out low. -/
def Obligations.HeldInResetNothingMoves : Prop :=
  ∀ (c : Instr) (s : State), s.inReset = true → c ≠ .deviceReset → c ≠ .resetRelease →
    exec c s = .next s ∨ ∃ n, exec c s = .next { s with lrp := { s.lrp with dataOut := List.replicate n 0 } }

/-- R177 to R179, R85, R13: the load's end replaces the working parameters whole, records every outcome, moves the station state, and
leaves the directory, the slots, the queues, the port and the own report alone. That every outcome is recorded here, however many words
LOAD_WORD_READ rows have read, is the model's choice: DESIGN CHOICE, log 13. -/
def Obligations.LoadEndBuildsParametersAndMovesStation : Prop :=
  ∀ s : State, s.loading → ∃ t, exec .loadEnd s = .next t
    ∧ t.psr.working = loadParams s.psr.store ∧ t.psr.store = s.psr.store
    ∧ t.psr.outcomes = s.psr.store.map (fun w => (readWord w).1) ∧ t.psr.loadTimer = none ∧ t.psr.busy = s.psr.busy
    ∧ ((∃ w ∈ s.psr.store, (readWord w).1 = .uncorrectable) →
        t.dir.station = .faulted ∧ t.shows .storeFault ∧ t.tdb = s.tdb)
    ∧ ((∀ w ∈ s.psr.store, (readWord w).1 ≠ .uncorrectable) →
        t.dir.station = .standby ∧ (t.shows .storeFault ↔ s.shows .storeFault)
          ∧ t.tdb = { s.tdb with epochTimer := some (10 * t.psr.working.epoch) })
    ∧ t.sct.seed = (if s.psr.firstLoad then t.psr.working.uid else s.sct.seed)
    ∧ t.sct.queue = s.sct.queue ∧ t.sct.service = s.sct.service ∧ t.sct.mute = s.sct.mute
    ∧ t.dir = { s.dir with station := t.dir.station } ∧ t.org = s.org ∧ t.slots = s.slots ∧ t.reqQueue = s.reqQueue
    ∧ t.pen = s.pen ∧ t.lrp = s.lrp ∧ t.pins = s.pins ∧ t.scr.channel = s.scr.channel ∧ t.scr.rxQueue = s.scr.rxQueue
    ∧ t.ntf.enables = s.ntf.enables

/-- R39: the equipped set takes effect on every degree at the end of a load, whichever state the load leads to. -/
def Obligations.EquippedSetTakesEffectAtLoadEnd : Prop :=
  ∀ (s : State) (d : Nat) (x : Degree), s.loading → d < 8 → s.degrees[d]? = some x →
    ∃ t y, exec .loadEnd s = .next t ∧ t.degrees[d]? = some y
      ∧ ((loadParams s.psr.store).equipped.getLsbD d = true →
          (x.trace = .unequipped → s.lolLevel d = some true → y.trace = .dark)
          ∧ (x.trace = .unequipped → s.lolLevel d ≠ some true → y.trace = .searching none ∧ y.receiver = .hunt 13)
          ∧ (x.trace ≠ .unequipped → y.trace = x.trace ∧ y.receiver = x.receiver))
      ∧ ((loadParams s.psr.store).equipped.getLsbD d = false → y.trace = .unequipped ∧ y.txWord = none ∨ x.trace = .unequipped ∧ y = x)

/-- R169 and the RESTART columns of R18, R33, R47, R61, R76, R94, R111, R144, R158, R174, R182; every indication is cleared. At the RESTART that
leaves FAULTED, and at no other (DEDUCED, log 11), each degree is brought up to date with its filtered level (R46), and a change made so
raises DEGREE_CHANGE. -/
def Obligations.RestartReturnsEveryBlockToLoading : Prop :=
  ∀ s : State, s.listens →
    (s.dir.station ≠ .loading → s.psr.busy = none → ∃ t, exec (.restart [0]) s = .next t
      ∧ t.lrp = (s.answered 2 66 .ok false []).lrp ∧ t.dir.station = .loading ∧ t.dir.entries = List.replicate 48 none
      ∧ t.ownNumber = 255 ∧ t.dir.candidate = none ∧ t.dir.rounds = 0 ∧ t.dir.yielded = [] ∧ t.dir.roundTimer = none
      ∧ t.dir.noNumberTimer = none ∧ t.scr = { s.scr with rxQueue := [] } ∧ t.sct = { s.sct with queue := [], service := none }
      ∧ t.pins = s.pins ∧ t.spm = s.spm
      ∧ t.org = { seq := 1, missed := [], holdDown := none, refresh := none, pendingChange := false }
      ∧ t.tdb.staging = List.replicate 48 none ∧ t.tdb.active = List.replicate 48 none
      ∧ t.tdb.stagingIntents = List.replicate 32 none ∧ t.tdb.activeIntents = List.replicate 32 none ∧ t.tdb.spans = []
      ∧ t.tdb.dirty = false ∧ t.tdb.pendingEpoch = false ∧ t.tdb.epoch = 0 ∧ t.tdb.epochTimer = none
      ∧ t.slots = List.replicate 8 { state := .free, intent := .none } ∧ t.reqQueue = [] ∧ t.pen.searching = none
      ∧ t.ntf.enables = s.ntf.enables
      ∧ t.psr = { s.psr with outcomes := List.replicate 70 .clean, loadTimer := some 20, loadIndex := 0 }
      ∧ (s.dir.station ≠ .faulted → t.ntf.indications = 0 ∧ t.degrees = s.degrees.map fun x => { x with txWord := none })
      ∧ (s.dir.station = .faulted → (t.ntf.indications = 0 ∨ t.ntf.indications = 1#16 <<< 7)
          ∧ (t.shows .degreeChange ↔ ∃ d x, d < 8 ∧ s.degrees[d]? = some x
              ∧ (x.trace = .dark ∧ s.lolLevel d ≠ some true ∨ x.trace.hears = true ∧ s.lolLevel d = some true))
          ∧ ∀ d x, d < 8 → s.degrees[d]? = some x → ∃ y, t.degrees[d]? = some y ∧ y.txWord = none
              ∧ (x.trace = .unequipped ∨ x.trace = .dark ∧ s.lolLevel d = some true → y = { x with txWord := none })
              ∧ (x.trace = .dark → s.lolLevel d ≠ some true → y.trace = .searching none ∧ y.receiver = .hunt 13)
              ∧ (x.trace.hears = true → s.lolLevel d = some true → y.trace = .dark ∧ y.receiver = .idle)
              ∧ (∀ cand, x.trace = .searching cand → s.lolLevel d ≠ some true → y.trace = .searching none ∧ y.receiver = .hunt 13)
              ∧ (∀ nbr n far cand bad, x.trace = .traced nbr n far cand bad → s.lolLevel d ≠ some true →
                  y.trace = .traced nbr n far none 0 ∧ y.receiver = .hunt 13)))
    ∧ (s.dir.station = .loading → exec (.restart [0]) s = .next (s.answered 2 66 .badState false []))
    ∧ (s.dir.station ≠ .loading → s.psr.busy.isSome = true → exec (.restart [0]) s = .next (s.answered 2 66 .storeBusy false []))

/-! ## The parameter store -/

/-- R177, R180, R181: a load reads word after word; a write is taken in STANDBY and FAULTED and waits 10 ms; at the expiry the word has the new data with fresh check bits; a
read returns the decoded data, the stored check bits and both outcomes; the refusals come in the order given. -/
def Obligations.StoreWordsAreWrittenAndRead : Prop :=
  (∀ (s : State) (w : StoreWord), s.loading → s.psr.store[s.psr.loadIndex]? = some w →
    exec .loadWordRead s = .next { s with psr := { s.psr with
      outcomes := s.psr.outcomes.set s.psr.loadIndex (readWord w).1, loadIndex := s.psr.loadIndex + 1 } })
  ∧
  (∀ (s : State) (n a b c d : Byte), s.listens →
    ((70 ≤ n.toNat ∨ n.toNat < 2) → exec (.writeStoreWord [5, n, a, b, c, d]) s = .next (s.answered 7 97 .badField false []))
    ∧ (2 ≤ n.toNat → n.toNat < 70 → s.dir.station ≠ .standby → s.dir.station ≠ .faulted →
        exec (.writeStoreWord [5, n, a, b, c, d]) s = .next (s.answered 7 97 .badState false []))
    ∧ (2 ≤ n.toNat → n.toNat < 70 → (s.dir.station = .standby ∨ s.dir.station = .faulted) →
        exec (.writeStoreWord [5, n, a, b, c, d]) s = .next
          (if s.psr.busy.isSome then s.answered 7 97 .storeBusy false []
          else State.answered { s with psr := { s.psr with
            busy := some { word := n.toNat, data := (a ++ b ++ c ++ d : BitVec (8 + 8 + 8 + 8)), left := 10 } } } 7 97 .ok false [])))
  ∧ (∀ (s : State) (w : StoreWrite), s.inReset = false → s.psr.busy = some w →
      exec .storeBusyExpiry s = .next { s with psr := { s.psr with
        store := s.psr.store.set w.word { data := w.data, check := checkBits w.data }, busy := none } })
  ∧ (∀ (s : State) (n : Byte) (w : StoreWord) (o : LoadOutcome), s.listens →
      s.psr.store[n.toNat]? = some w → s.psr.outcomes[n.toNat]? = some o →
      exec (.readStoreWord [1, n]) s = .next
        (if s.dir.station = .loading then s.answered 3 96 .badState false []
        else if s.psr.busy.isSome then s.answered 3 96 .storeBusy false []
        else s.answered 3 96 .ok false
          (toBytes 4 (readWord w).2.toNat ++ [w.check.setWidth 8, byte (readWord w).1.code, byte o.code])))
  ∧ (∀ (s : State) (n : Byte), s.listens → s.psr.store[n.toNat]? = none →
      exec (.readStoreWord [1, n]) s = .next (s.answered 3 96 .badField false []))

/-- R176, R186: the code corrects every single inverted bit and detects every pair, for every data word. -/
def Obligations.StoreCodeCorrectsOneDetectsTwo : Prop :=
  ∀ data : Word, readWord (freshWord data) = (.clean, data)
    ∧ (∀ p : Fin 39, readWord ((freshWord data).flip p) = (.corrected, data))
    ∧ ∀ p q : Fin 39, p ≠ q → (readWord (((freshWord data).flip p).flip q)).1 = .uncorrectable

/-! ## Pins and mute -/

/-- R17, R15, R38, R43: one sample moves every filter by its table; MUTE accepted asserted sets the mute flag; an LOL acceptance moves
an equipped degree between light and DARK, except in FAULTED. -/
def Obligations.PinSampleFiltersAndDelivers : Prop :=
  ∀ (s : State) (level : Bool) (lol : DegreeSet), s.inReset = false → s.pins.lol.length = 8 →
    ∃ t, exec (.pinSample level lol) s = .next t
      ∧ PinFollows s.pins.mute level t.pins.mute
      ∧ (∀ d p, s.pins.lol[d]? = some p → ∃ q, t.pins.lol[d]? = some q ∧ PinFollows p (lol.getLsbD d) q)
      ∧ (PinTurns s.pins.mute t.pins.mute level → level = true → t.sct.mute = true ∧ (s.sct.mute = false → t.shows .muted))
      ∧ (¬ (PinTurns s.pins.mute t.pins.mute level ∧ level = true) → t.sct.mute = s.sct.mute)
      ∧ (∀ d p q x, s.pins.lol[d]? = some p → t.pins.lol[d]? = some q → s.degrees[d]? = some x →
          ∃ y, t.degrees[d]? = some y
            ∧ (PinTurns p q (lol.getLsbD d) → s.dir.station ≠ .faulted →
                (lol.getLsbD d = true → x.trace.hears = true → y.trace = .dark ∧ t.shows .degreeChange)
                ∧ (lol.getLsbD d = false → x.trace = .dark → y.trace = .searching none ∧ y.receiver = .hunt 13
                    ∧ t.shows .degreeChange)
                ∧ ((lol.getLsbD d = true → x.trace.hears = false) → (lol.getLsbD d = false → x.trace ≠ .dark) → y = x))
            ∧ (¬ PinTurns p q (lol.getLsbD d) ∨ s.dir.station = .faulted → y = x))

/-- R15, R16, R27, R151: MUTE sets the flag and acts on the frame in service by its phase; a frame cut off in SEND is discarded without
TX_ABANDON, a CLAIM reported to the DIR as abandoned, an INTENT to the INT as not sent. CLEAR MUTE is refused unless the filtered level of
the pin is deasserted, and lets a suspended WAIT begin again. -/
def Obligations.MuteCommandsSetAndClearTheFlag : Prop :=
  ∀ s : State, s.listens →
    (s.sct.mute = true → exec (.mute [0]) s = .next (s.answered 2 67 .ok false []))
    ∧ (s.sct.mute = false → s.sct.service = none →
        exec (.mute [0]) s = .next (State.answered (raise .muted { s with sct := { s.sct with mute := true } }) 2 67 .ok false []))
    ∧ (∀ v gap, s.sct.mute = false → s.sct.service = some v → v.phase = .wait gap →
        exec (.mute [0]) s = .next (State.answered (raise .muted { s with sct := { s.sct with
          mute := true, service := some { v with phase := .wait none } } }) 2 67 .ok false []))
    ∧ (∀ v n, s.sct.mute = false → s.sct.service = some v → v.phase = .echo n →
        exec (.mute [0]) s = .next (State.answered (raise .muted { s with sct := { s.sct with mute := true } }) 2 67 .ok false []))
    ∧ (∀ v d, s.sct.mute = false → s.sct.service = some v → v.phase = .send d →
        ∃ t, exec (.mute [0]) s = .next t ∧ t.sct.service = none ∧ t.sct.mute = true ∧ t.scTx = none ∧ t.shows .muted
          ∧ t.lrp = (s.answered 2 67 .ok false []).lrp)
    ∧ (∀ v d u, s.sct.mute = false → s.sct.service = some v → v.phase = .send d →
        u = raise .muted { s with sct := { s.sct with mute := true, service := none } } →
        ((v.body.isReport = true ∨ ∃ i, v.body = .release i) → exec (.mute [0]) s = .next (State.answered u 2 67 .ok false []))
        ∧ (∀ r m c, v.body = .claim r m → s.dir.station = .joining → s.dir.candidate = some c →
            exec (.mute [0]) s = .next (State.answered (handOverPlain (.claim c 1) u) 2 67 .ok false []))
        ∧ (∀ i x, s.standsIn i x → v.body = .intent i x.intent.priority x.intent.pairs →
            exec (.mute [0]) s = .next (State.answered (handOverPlain (.release i) (raise .intentLost { u with
              slots := s.slots.set i { x with intent := .lost .notSent x.intent.priority x.intent.pairs } })) 2 67 .ok false [])))
    ∧ (s.pins.mute.accepted ≠ some false → exec (.clearMute [0]) s = .next (s.answered 2 68 .pinActive false []))
    ∧ (s.pins.mute.accepted = some false → s.sct.mute = false → exec (.clearMute [0]) s = .next (s.answered 2 68 .ok false []))
    ∧ (s.pins.mute.accepted = some false → s.sct.mute = true →
        exec (.clearMute [0]) s = .next (State.answered { s with sct := { s.sct with
          mute := false
          service := s.sct.service.map fun v => match v.phase with
            | .wait _ => { v with phase := .wait (if s.scr.carrier then none else some (1 + v.backoff)) }
            | _ => v } } 2 68 .ok false []))

/-! ## The supervisory receiver -/

/-- R1, R7, R8, R11: carrier onset, the first transition after the line has been dark, restarts the dark timer, moves DARK to SEEKING and ends a quiet gap; carrier end begins the gap of a
waiting frame; the dark timer's expiry darkens the channel. That a FRAME_START with carrier present leaves everything as it is is the model's
choice (DESIGN CHOICE, log 1: it cannot occur); so is that carrier is followed in FAULTED, where nothing is decoded and the dark timer and
the channel stand (DESIGN CHOICE, log 5). -/
def Obligations.CarrierAndDarkTimerMoveTheChannel : Prop :=
  (∀ s : State, s.scr.carrier = true → exec .frameStart s = .next s)
  ∧ (∀ s : State, s.inReset = false → s.scr.carrier = false → s.dir.station ≠ .faulted →
    exec .frameStart s = .next
      (let u : State := { s with
        scr := { s.scr with carrier := true, decoding := true, darkTimer := some 5000,
                            channel := if s.scr.channel = .dark then .seeking else s.scr.channel }
        sct := { s.sct with service := s.sct.service.map fun v => match v.phase with
                              | .wait _ => { v with phase := .wait none }
                              | _ => v } }
      if s.scr.channel = .dark then raise .channelChange u else u))
  ∧ (∀ s : State, s.inReset = false → s.scr.carrier = false → s.dir.station = .faulted →
    exec .frameStart s = .next { s with
      scr := { s.scr with carrier := true }
      sct := { s.sct with service := s.sct.service.map fun v => match v.phase with
                            | .wait _ => { v with phase := .wait none }
                            | _ => v } })
  ∧ (∀ s : State, s.inReset = false → s.scr.carrier = true →
      exec .carrierEnd s = .next { s with
        scr := { s.scr with carrier := false }
        sct := { s.sct with service := s.sct.service.map fun v => match v.phase with
                              | .wait _ => { v with phase := .wait (if s.sct.mute then none else some (1 + v.backoff)) }
                              | _ => v } })
  ∧ (∀ s : State, s.inReset = false → s.dir.station ≠ .faulted → s.scr.darkTimer.isSome = true →
      ∃ t, exec .darkTimerExpiry s = .next t
        ∧ t.scr = { s.scr with channel := .dark, history := [], goodRun := 0, darkTimer := none }
        ∧ (s.scr.channel ≠ .dark → t.shows .channelChange)
        ∧ (s.dir.station ≠ .member → t = if s.scr.channel = .dark then { s with scr := t.scr }
            else raise .channelChange { s with scr := t.scr }))

/-- R1 to R6, R187: the levels that a peer puts on the line for a frame, the Manchester code of preamble, delimiter, header, body and CRC, are
heard as that very frame, which joins the receive queue. That the link entries of a REPORT keep their order, ascending or not, is the
model's choice: DESIGN CHOICE, log 29. -/
def Obligations.FrameSentIsFrameHeard : Prop :=
  ∀ (s : State) (f : Frame), f.fits → s.decodes → s.active = true → f.uid ≠ s.ownUid →
    (s.scr.rxQueue.length < 8 →
      ∃ t, exec (.episodeEnd f.onLine) s = .next t ∧ t.scr.rxQueue = s.scr.rxQueue ++ [f] ∧ t.scr.decoding = false)
    ∧ (8 ≤ s.scr.rxQueue.length →
      ∃ t, exec (.episodeEnd f.onLine) s = .next t ∧ t.scr.rxQueue = s.scr.rxQueue ∧ t.shows .rxDrop)

/-- R7, R8: every episode is recorded by the table of the channel states. -/
def Obligations.EpisodeOutcomesMoveTheChannel : Prop :=
  ∀ (s : State) (levels : List Bool), s.decodes →
    ∃ t, exec (.episodeEnd levels) s = .next t
      ∧ t.scr.carrier = s.scr.carrier ∧ t.scr.darkTimer = s.scr.darkTimer ∧ t.scr.decoding = false
      ∧ (t.scr.channel ≠ s.scr.channel → t.shows .channelChange)
      ∧ (s.scr.channel = .dark → t.scr.channel = .dark ∧ t.scr.history = s.scr.history ∧ t.scr.goodRun = s.scr.goodRun)
      ∧ (s.scr.channel = .seeking →
          (classifyLine levels = .invalid → t.scr.channel = .seeking ∧ t.scr.goodRun = 0 ∧ t.scr.history = s.scr.history)
          ∧ (classifyLine levels ≠ .invalid → s.scr.goodRun < 7 →
              t.scr.channel = .seeking ∧ t.scr.goodRun = s.scr.goodRun + 1 ∧ t.scr.history = s.scr.history)
          ∧ (classifyLine levels ≠ .invalid → 7 ≤ s.scr.goodRun → t.scr.channel = .aligned ∧ t.scr.history = []))
      ∧ (s.scr.channel = .aligned →
          ∀ h, h = (s.scr.history ++ [decide (classifyLine levels ≠ .invalid)]).drop (s.scr.history.length + 1 - 16) →
            t.scr.history = h
            ∧ (6 ≤ h.count false → t.scr.channel = .seeking ∧ t.scr.goodRun = 0)
            ∧ (h.count false < 6 → t.scr.channel = .aligned))

/-! ## The supervisory transmitter -/

/-- R9, R151: the ordered checks of the hand-over, each by what it makes of the queue; an INTENT dropped from a full queue raises TX_ABANDON and
is reported as not sent, which loses the intent it matches. -/
def Obligations.HandOverFollowsTheOrderedChecks : Prop :=
  (∀ (a b : List Body) (x f : Body), f.isClaim = true → x.isClaim = true → a.any Body.isClaim = false →
    enqueue (a ++ x :: b) f = (a ++ f :: b, .queued))
  ∧ (∀ (a b : List Body) (x f : Body), f.isReport = true → x.isReport = true → a.any Body.isReport = false →
    enqueue (a ++ x :: b) f = (a ++ f :: b, .queued))
  ∧ (∀ (a b : List Body) (x f : Body) (i : Nat), f.isIntentOf i = true → x.isIntentOf i = true → a.any (Body.isIntentOf i) = false →
    enqueue (a ++ x :: b) f = (a ++ f :: b, .queued) ∧ enqueue (a ++ x :: b) (.release i) = (a ++ b ++ [.release i], .queued))
  ∧ (∀ (q : List Body) (f : Body),
    (f.isClaim = true → q.any Body.isClaim = false) → (f.isReport = true → q.any Body.isReport = false) →
    (∀ i, (f.isIntentOf i = true ∨ f = .release i) → q.any (Body.isIntentOf i) = false) →
      (q.length < 8 → enqueue q f = (q ++ [f], .queued))
      ∧ (8 ≤ q.length → f.isReport = true → enqueue q f = (q, .droppedQuietly))
      ∧ (∀ a x b, q = a ++ x :: b → x.isReport = true → a.any Body.isReport = false → 8 ≤ q.length → f.isReport = false →
          enqueue q f = (a ++ b ++ [f], .queued))
      ∧ (8 ≤ q.length → f.isReport = false → q.any Body.isReport = false → enqueue q f = (q, .abandoned)))
  ∧ (∀ (f : Body) (s : State), handOverPlain f s =
      if s.dir.station = .joining ∨ s.dir.station = .member then
        if (enqueue s.sct.queue f).2 = .abandoned then raise .txAbandon { s with sct := { s.sct with queue := (enqueue s.sct.queue f).1 } }
        else { s with sct := { s.sct with queue := (enqueue s.sct.queue f).1 } }
      else s)
  ∧ (∀ (s : State) (i : Nat) (x : Slot), s.standsIn i x → (s.dir.station = .joining ∨ s.dir.station = .member) →
      8 ≤ s.sct.queue.length → s.sct.queue.any Body.isReport = false → s.sct.queue.any (Body.isIntentOf i) = false →
      handOver (.intent i x.intent.priority x.intent.pairs) s = raise .txAbandon (raise .intentLost { s with
        slots := s.slots.set i { x with intent := .lost .notSent x.intent.priority x.intent.pairs } }))

/-- R10: a frame enters service from the head of the first class queued, with its header filled; nothing else changes. -/
def Obligations.FirstFrameInClassOrderEntersService : Prop :=
  ∀ s : State, s.inReset = false → s.sct.service = none → s.sct.mute = false →
    (s.dir.station = .joining ∨ s.dir.station = .member) → s.sct.queue ≠ [] →
    ∃ a f b, s.sct.queue = a ++ f :: b ∧ (∀ g ∈ a, f.rank < g.rank) ∧ (∀ g ∈ b, f.rank ≤ g.rank)
      ∧ exec .takeIntoService s = .next { s with sct := { s.sct with
          queue := a ++ b
          service := some {
            body := f
            bytes := delimiter :: encodeFrame
              { uid := s.ownUid, number := s.ownNumber, lifetime := 4 * s.psr.working.refresh, body := f }
            attempts := 0
            backoff := 0
            phase := .wait (if s.scr.carrier then none else some 1) } } }

/-- R1, R11, R12: after the quiet gap the frame is sent, the Manchester code of its bits stands on the line, and the end of SEND opens the 1 ms of
ECHO. An attempt that an episode decided during SEND takes its outcome at the end of SEND: completed, the frame leaves service and is
reported (that a completed CLAIM sets the round timer with the mute flag set too, to stand there, is the model's choice: DESIGN CHOICE,
log 26); failed, all goes as when the echo check closes on a failed attempt. -/
def Obligations.QuietGapThenSendThenEcho : Prop :=
  (∀ (s : State) (v : Service) (gap : Nat), s.inReset = false → s.sct.service = some v → v.phase = .wait (some gap) →
    s.scr.carrier = false → s.sct.mute = false → (s.dir.station = .joining ∨ s.dir.station = .member) →
    ∃ t, exec .quietGapExpiry s = .next t
      ∧ t = { s with sct := { s.sct with service := some { v with phase := .send none } } }
      ∧ t.scTx = some (manchester (preambleBits ++ bitsOf v.bytes)))
  ∧ (∀ (s : State) (v : Service), s.inReset = false → s.sct.service = some v → v.phase = .send none →
      exec .sendEnd s = .next { s with sct := { s.sct with service := some { v with phase := .echo 1 } } })
  ∧ (∀ (s : State) (v : Service) (u : State), s.inReset = false → s.sct.service = some v → v.phase = .send (some true) →
      u = { s with sct := { s.sct with service := none } } →
      (v.body.isReport = true ∨ (∃ i, v.body = .release i) → exec .sendEnd s = .next u)
      ∧ (∀ c m, v.body = .claim c m → exec .sendEnd s = .next
          (if s.dir.station = .joining ∧ s.dir.candidate = some c then { u with dir := { s.dir with roundTimer := some 40 } } else u))
      ∧ (∀ i x ps p r, v.body = .intent i p ps → s.slot i = some x → x.intent = .claiming p ps none r →
          exec .sendEnd s = .next { u with slots := s.slots.set i { x with intent := .claiming p ps (some 80) r } }))
  ∧ (∀ (s : State) (v : Service) (n : Nat), s.inReset = false → s.sct.service = some v → v.phase = .send (some false) →
      exec .sendEnd s = exec .echoCheckClose { s with sct := { s.sct with service := some { v with phase := .echo n } } })

/-- R12, R13, R151: an attempt that no echo decided fails. Below eight it waits again with a backoff in the range of its count, whichever
value is drawn (log 4); at eight the frame is abandoned, and an abandoned INTENT loses the intent it matches. -/
def Obligations.FailedAttemptBacksOffOrIsAbandoned : Prop :=
  ∀ (s : State) (v : Service) (n : Nat), s.inReset = false → s.sct.service = some v → v.phase = .echo n →
    (v.attempts < 7 → ∃ b, b < 2 ^ min (v.attempts + 1) 6
      ∧ exec .echoCheckClose s = .next { s with sct := { s.sct with
          draws := s.sct.draws + 1
          service := some { v with attempts := v.attempts + 1, backoff := b,
                                   phase := .wait (if s.scr.carrier || s.sct.mute then none else some (1 + b)) } } })
    ∧ (7 ≤ v.attempts → v.body.isReport = true ∨ (∃ i, v.body = .release i) →
        exec .echoCheckClose s = .next (raise .txAbandon { s with sct := { s.sct with service := none } }))
    ∧ (∀ r m c, 7 ≤ v.attempts → v.body = .claim r m → s.dir.station = .joining → s.dir.candidate = some c →
        exec .echoCheckClose s = .next (handOverPlain (.claim c 1) (raise .txAbandon { s with sct := { s.sct with service := none } })))
    ∧ (∀ i x, 7 ≤ v.attempts → s.standsIn i x → v.body = .intent i x.intent.priority x.intent.pairs →
        ∃ t y, exec .echoCheckClose s = .next t ∧ t.slot i = some y
          ∧ y = { x with intent := .lost .notSent x.intent.priority x.intent.pairs }
          ∧ t.shows .txAbandon ∧ t.shows .intentLost ∧ SameOtherSlots s t i ∧ t.sct.service = none)

/-- R5, R12, R27, R149: the echo of the frame in service completes it; while the frame is still in SEND the outcome waits for the end
of SEND. Completion of a CLAIM for the candidate starts the claim round, completion of an INTENT that matches a CLAIMING intent without
a window starts its window. A differing echo and an invalid episode fail the attempt; a peer's frame decides nothing; once an attempt is
decided, and in WAIT, no episode does. That the round timer is set with the mute flag set too, to stand there until it clears, is the model's
choice: DESIGN CHOICE, log 26. -/
def Obligations.EchoCompletesTheFrameInService : Prop :=
  (∀ (s : State) (v : Service) (f : Frame), s.decodes → f.fits → f.uid = s.ownUid →
    s.sct.service = some v → v.bytes = delimiter :: encodeFrame f →
    (v.phase = .send none →
      ∃ t, exec (.episodeEnd f.onLine) s = .next t ∧ t.sct.service = some { v with phase := .send (some true) })
    ∧ ∀ n, v.phase = .echo n →
      ∃ t, exec (.episodeEnd f.onLine) s = .next t ∧ t.sct.service = none ∧ t.scr.rxQueue = s.scr.rxQueue
        ∧ (s.dir.station ≠ .member → t.sct.queue = s.sct.queue)
        ∧ (∀ c m, v.body = .claim c m → s.dir.station = .joining → s.dir.candidate = some c →
            t.dir = { s.dir with roundTimer := some 40 })
        ∧ (∀ c m, v.body = .claim c m → s.dir.station = .joining → s.dir.candidate ≠ some c → t.dir = s.dir)
        ∧ (∀ i x ps p r, v.body = .intent i p ps → s.slot i = some x → x.intent = .claiming p ps none r →
            t.slot i = some { x with intent := .claiming p ps (some 80) r }))
  ∧ ∀ (s : State) (v : Service) (levels : List Bool), s.decodes → s.sct.service = some v →
      ∃ t, exec (.episodeEnd levels) s = .next t
        ∧ (∀ bytes f, classifyLine levels = .valid bytes f → f.uid ≠ s.ownUid → t.sct.service = some v)
        ∧ ((∃ gap, v.phase = .wait gap) ∨ (∃ d, v.phase = .send (some d)) → t.sct.service = some v)
        ∧ (classifyLine levels = .invalid
            ∨ (∃ bytes f, classifyLine levels = .valid bytes f ∧ f.uid = s.ownUid ∧ v.bytes ≠ delimiter :: bytes) →
            (v.phase = .send none → t.sct.service = some { v with phase := .send (some false) })
            ∧ (∀ n, v.phase = .echo n → v.attempts < 7 → ∃ b, b < 2 ^ min (v.attempts + 1) 6
                ∧ t.sct.service = some { v with
                    attempts := v.attempts + 1
                    backoff := b
                    phase := .wait (if s.scr.carrier || s.sct.mute then none else some (1 + b)) })
            ∧ (∀ n, v.phase = .echo n → 7 ≤ v.attempts → t.sct.service = none ∧ t.shows .txAbandon))

/-! ## The directory -/

/-- R20 to R24, R81: a frame of any kind that uses a number above 47, and a CLAIM of an unknown mode, is discarded. Acceptance of one that uses a number that is not the part's own or its candidate: a new peer enters, a peer
held under another number moves and is purged there, a lower unique ID displaces a holder, a higher one is discarded; a known peer's CLAIM
is its restart; the lifetime it sets lies from 4 to 240 s. The REPORT or INTENT of a station just entered is stored. -/
def Obligations.FramesAreAcceptedByNumberAndUid : Prop :=
  (∀ f : Frame, 4000 ≤ f.lifetimeMs ∧ f.lifetimeMs ≤ 240000 ∧ (4 ≤ f.lifetime → f.lifetime ≤ 240 → f.lifetimeMs = 1000 * f.lifetime))
  ∧ (∀ (s : State) (strap : BitVec 3) (f : Frame) (rest : List Frame), s.offers f rest → s.active = true →
    ((∃ r m, f.body = .claim r m ∧ (48 ≤ r ∨ (m ≠ 1 ∧ m ≠ 2)))
      ∨ 48 ≤ f.number ∧ ((∃ r, f.body = .report r) ∨ (∃ id p ps, f.body = .intent id p ps) ∨ ∃ id, f.body = .release id)) →
    exec (.takeReceivedFrame strap) s = .next (s.withRxQueue rest))
  ∧ (∀ (s : State) (strap : BitVec 3) (f : Frame) (rest : List Frame) (n m : Nat), s.offers f rest → s.sized →
    s.active = true → (s.dir.station = .joining → s.dir.candidate ≠ some n) → f.body = .claim n m →
    (n < 48 → (m = 1 ∨ m = 2) →
      (s.entry n = none → s.numberOf f.uid = none →
        exec (.takeReceivedFrame strap) s = .next (raise .peerChange
          { s.withRxQueue rest with dir := { s.dir with entries := s.dir.entries.set n (some (.peer f.uid f.lifetimeMs)) } }))
      ∧ (∀ u l, s.entry n = some (.peer u l) → u < f.uid → exec (.takeReceivedFrame strap) s = .next (s.withRxQueue rest))
      ∧ (∀ u l, s.entry n = some (.peer u l) → f.uid ≤ u → ∃ t, exec (.takeReceivedFrame strap) s = .next t
          ∧ t.entry n = some (.peer f.uid f.lifetimeMs) ∧ t.shows .peerChange ∧ place t.tdb.staging n = none
          ∧ (∀ p e, place t.tdb.stagingIntents p = some e → e.entry.uid ≠ u)
          ∧ (∀ k, f.uid ≠ u → s.numberOf f.uid = some k → t.entry k = none ∨ t.entry k = s.entry k ∧ ∃ w, s.entry k = some (.own w))
          ∧ (f.uid = u → ∀ k, k ≠ n → t.entry k = s.entry k)
          ∧ s.sameView t ∧ t.slots = s.slots ∧ t.sct = s.sct ∧ t.org = s.org)))
  ∧ ∀ (s : State) (strap : BitVec 3) (f : Frame) (rest : List Frame) (n : Nat), s.offers f rest → s.sized →
    s.active = true → (s.dir.station = .joining → s.dir.candidate ≠ some n) → f.number? = n → n < 48 → f.modeKnown →
    (∀ u l, s.entry n = some (.peer u l) → u < f.uid → exec (.takeReceivedFrame strap) s = .next (s.withRxQueue rest))
    ∧ (s.entry n = none ∨ (∃ u l, s.entry n = some (.peer u l) ∧ f.uid ≤ u) → ∃ t, exec (.takeReceivedFrame strap) s = .next t
        ∧ t.entry n = some (.peer f.uid f.lifetimeMs) ∧ s.sameView t
        ∧ (∀ k, k ≠ n → s.numberOf f.uid ≠ some k → t.entry k = s.entry k)
        ∧ (∀ u l p e, s.entry n = some (.peer u l) → f.uid < u → place t.tdb.stagingIntents p = some e → e.entry.uid ≠ u)
        ∧ ((∀ l, s.entry n ≠ some (.peer f.uid l)) → t.shows .peerChange
            ∧ (∀ k l, k ≠ n → s.numberOf f.uid = some k → s.entry k = some (.peer f.uid l) → t.entry k = none
                ∧ (k ≠ s.ownNumber → place t.tdb.staging k = none)
                ∧ ∀ p e, place t.tdb.stagingIntents p = some e → e.entry.uid = f.uid → ∃ pr ps, f.body = .intent e.entry.id pr ps)
            ∧ (∀ r, f.body = .report r → r.wellFormed = true → n ≠ s.ownNumber →
                (place s.tdb.staging n = none ∨ s.entry n ≠ none) →
                place t.tdb.staging n = some { uid := f.uid, report := r.clamped } ∧ t.tdb.dirty = true)
            ∧ (∀ (id pr : Nat) (ps : List Pair) (q : Nat), f.body = .intent id pr ps → intentWellFormed id pr ps = true → s.tdb.stagingIntents[q]? = some none →
                ∃ p, place t.tdb.stagingIntents p
                  = some { entry := { uid := f.uid, id := id, priority := pr, pairs := ps }, left := 1000 * s.psr.working.lifetime })))

/-- R14, R26, R28, R31, R32: in JOINING a conflicting frame makes the part yield, with the CLAIM for the new candidate handed over, round count 0
and no round timed, or NO_NUMBER entered with nothing left to send; in MEMBER a frame that uses the own number makes it defend, or
renumber when a lower unique ID already uses the number, with every standing intent LOST, the queue emptied and the frame in
service discarded, so that nothing but the CLAIM for the new candidate is left to send, and in NO_NUMBER nothing. The round count 0 in NO_NUMBER
after a renumbering is the model's choice: DESIGN CHOICE, log 27. -/
def Obligations.JoiningYieldsMemberDefendsOrRenumbers : Prop :=
  ∀ (s : State) (strap : BitVec 3) (f : Frame) (rest : List Frame) (n : Nat), s.offers f rest → s.sized → f.number? = n → n < 48 →
    f.modeKnown → s.dir.candidate = some n →
    (s.dir.station = .joining → (f.isClaimMode 1 = true → f.uid < s.ownUid) → f.uid ≠ s.ownUid →
      ∃ t, exec (.takeReceivedFrame strap) s = .next t ∧ n ∈ t.dir.yielded ∧ t.dir.candidate ≠ some n
        ∧ t.dir.rounds = 0 ∧ t.dir.roundTimer = none
        ∧ ((∀ u, s.entry n ≠ some (.own u)) → t.dir.station = .joining ∧ t.sct.service = s.sct.service
            ∧ (∃ c, t.dir.candidate = some c ∧ c < 48 ∧ s.entry c = none ∧ c ∉ s.dir.yielded
              ∧ (s.sct.queue.length < 8 ∨ s.sct.queue.any Body.isClaim = true ∨ s.sct.queue.any Body.isReport = true →
                  .claim c 1 ∈ t.sct.queue)
              ∧ (s.sct.queue.countP Body.isClaim ≤ 1 → ∀ r m, .claim r m ∈ t.sct.queue → r = c ∧ m = 1))
          ∨ t.dir.station = .noNumber ∧ t.dir.candidate = none ∧ t.sct.queue = [] ∧ t.sct.service = none
            ∧ ∀ c, c < 48 → s.entry c ≠ none ∨ c = n ∨ c ∈ s.dir.yielded))
    ∧ (s.dir.station = .joining → f.isClaimMode 1 = true → s.ownUid < f.uid →
        exec (.takeReceivedFrame strap) s = .next (s.withRxQueue rest))
    ∧ (∀ u, s.dir.station = .member → s.entry n = some (.own u) → (f.isClaimMode 1 = true ∨ s.ownUid < f.uid) →
        s.org.holdDown.isSome = true →
        exec (.takeReceivedFrame strap) s = .next
          (let t := handOverPlain (.claim n 2) (s.withRxQueue rest)
          { t with org := { t.org with pendingChange := true } }))
    ∧ (∀ u, s.dir.station = .member → s.entry n = some (.own u) → (f.isClaimMode 1 = true ∨ s.ownUid < f.uid) →
        s.org.holdDown = none →
        ∃ t r, exec (.takeReceivedFrame strap) s = .next t ∧ t.dir = s.dir ∧ t.slots = s.slots
          ∧ place t.tdb.staging n = some { uid := s.ownUid, report := r } ∧ r.seq = s.org.seq ∧ t.org.seq = s.org.seq + 1
          ∧ t.org.holdDown = some 500)
    ∧ (∀ u, s.dir.station = .member → s.entry n = some (.own u) → f.isClaimMode 1 = false → f.uid < s.ownUid →
        ∃ t, exec (.takeReceivedFrame strap) s = .next t
          ∧ ((∃ c, t.dir.station = .joining ∧ t.dir.candidate = some c ∧ c < 48 ∧ s.entry c = none ∧ t.sct.queue = [.claim c 1])
            ∨ t.dir.station = .noNumber ∧ t.dir.candidate = none ∧ t.sct.queue = [] ∧ ∀ c, c < 48 → s.entry c ≠ none)
          ∧ t.dir.rounds = 0 ∧ t.dir.roundTimer = none ∧ t.ownNumber = 255 ∧ t.dir.yielded = [n] ∧ t.dir.candidate ≠ some n ∧ t.shows .numberChange
          ∧ t.entry n = some (.peer f.uid f.lifetimeMs) ∧ t.sct.service = none ∧ t.org.holdDown = none ∧ t.org.refresh = none
          ∧ t.org.seq = s.org.seq
          ∧ ∀ i x, i < 8 → s.standsIn i x →
              t.slot i = some { x with intent := .lost .renumbered x.intent.priority x.intent.pairs } ∧ t.shows .intentLost)

/-- R71 to R74: a REPORT of a known peer is stored when none is held or when it is newer, with a gap recorded; a duplicate, an older or an
ill-formed one leaves the tables and the own report's state. That the link entries are stored in the order received, ascending or not, is
the model's choice: DESIGN CHOICE, log 29. -/
def Obligations.ReportsAreStoredBySequence : Prop :=
  ∀ (s : State) (strap : BitVec 3) (f : Frame) (rest : List Frame) (r : Report) (l : Nat), s.offers f rest → s.sized →
    s.active = true → (s.dir.station = .joining → s.dir.candidate ≠ some f.number) → s.ownNumber ≠ f.number →
    f.body = .report r → f.number < 48 → s.entry f.number = some (.peer f.uid l) →
    ∃ t, exec (.takeReceivedFrame strap) s = .next t ∧ t.entry f.number = some (.peer f.uid f.lifetimeMs)
      ∧ (r.wellFormed = false → t.tdb = s.tdb ∧ t.org = s.org)
      ∧ (r.wellFormed = true → place s.tdb.staging f.number = none →
          place t.tdb.staging f.number = some { uid := f.uid, report := r.clamped } ∧ t.tdb.dirty = true
            ∧ (s.dir.station ≠ .member → t.org = s.org))
      ∧ (∀ h, r.wellFormed = true → place s.tdb.staging f.number = some h →
          (1 ≤ (r.seq - h.report.seq).toNat → (r.seq - h.report.seq).toNat ≤ 32767 →
            place t.tdb.staging f.number = some { uid := f.uid, report := r.clamped } ∧ t.tdb.dirty = true
              ∧ (2 ≤ (r.seq - h.report.seq).toNat → s.dir.station ≠ .member ∨ s.org.holdDown.isSome = true → f.number ∈ t.org.missed)
              ∧ ((r.seq - h.report.seq).toNat = 1 → s.dir.station ≠ .member → t.org = s.org))
          ∧ (r.seq = h.report.seq ∨ 32768 ≤ (r.seq - h.report.seq).toNat → t.tdb = s.tdb ∧ t.org = s.org))
      ∧ (∀ k, k ≠ f.number → k ≠ s.ownNumber → place t.tdb.staging k = place s.tdb.staging k) ∧ s.sameView t

/-- R22, R23, R83, R84: a peer whose lifetime ends is purged with its report and its intents; a staging intent whose lifetime ends is
removed. The active view stands. -/
def Obligations.LifetimesEndInPurge : Prop :=
  (∀ (s : State) (n : Nat) (u : Uid) (l : Nat), s.inReset = false → s.entry n = some (.peer u l) →
    exec (.peerLifetimeExpiry n) s = .next (raise .peerChange { s with
      dir := { s.dir with entries := s.dir.entries.set n none }
      tdb := { s.tdb with
        staging := s.tdb.staging.set n none
        stagingIntents := s.tdb.stagingIntents.map fun x => if x.any fun e => e.entry.uid == u then none else x
        dirty := s.tdb.dirty || (place s.tdb.staging n).isSome || s.tdb.stagingIntents.any fun x => x.any fun e => e.entry.uid == u } }))
  ∧ (∀ (s : State) (p : Nat) (e : StagedIntent), s.inReset = false → s.tdb.stagingIntents[p]? = some (some e) →
      exec (.peerIntentLifetimeExpiry p) s = .next { s with
        tdb := { s.tdb with stagingIntents := s.tdb.stagingIntents.set p none, dirty := true } })

/-- R27, R30, R66: the first two rounds hand over the next CLAIM; the third makes the part MEMBER, with its own entry, NUMBER_CHANGE and
its report originated at once. While the mute flag is set no round is timed: the expiry does nothing and the part stays in JOINING. -/
def Obligations.ThirdRoundMakesMember : Prop :=
  ∀ (s : State) (n timer : Nat), s.inReset = false → s.dir.station = .joining → s.dir.candidate = some n → s.dir.roundTimer = some timer →
    (s.sct.mute = true → exec .claimRoundTimerExpiry s = .next s)
    ∧ (s.sct.mute = false → s.dir.rounds < 2 → exec .claimRoundTimerExpiry s = .next
      (handOverPlain (.claim n 1) { s with dir := { s.dir with rounds := s.dir.rounds + 1, roundTimer := none } }))
    ∧ (s.sct.mute = false → 2 ≤ s.dir.rounds → s.sized → n < 48 → ∃ t r, exec .claimRoundTimerExpiry s = .next t
        ∧ t.dir.station = .member ∧ t.ownNumber = n ∧ t.entry n = some (.own s.ownUid) ∧ t.shows .numberChange
        ∧ t.dir.roundTimer = none ∧ t.dir.yielded = s.dir.yielded
        ∧ place t.tdb.staging n = some { uid := s.ownUid, report := r } ∧ r.seq = s.org.seq ∧ t.tdb.dirty = true
        ∧ t.org = { seq := s.org.seq + 1, missed := [], holdDown := some 500, refresh := some (1000 * s.psr.working.refresh),
                    pendingChange := false })

/-- R26, R29, R167, R168: START and the end of NO_NUMBER choose the first number not held, from the preferred one on, and hand over a
CLAIM for it; with every number held the part stands in NO_NUMBER, and START still answers OK. -/
def Obligations.JoiningClaimsTheFirstFreeNumber : Prop :=
  ∀ (s : State) (strap : BitVec 3), s.inReset = false →
    (∀ k, k < 48 → (∀ j, j < k → s.entry ((s.psr.working.base + strap.toNat + j) % 48) ≠ none) →
      s.entry ((s.psr.working.base + strap.toNat + k) % 48) = none →
      ∃ d, d = { s.dir with station := .joining, candidate := some ((s.psr.working.base + strap.toNat + k) % 48), rounds := 0,
                            yielded := [], preferred := (s.psr.working.base + strap.toNat) % 48, roundTimer := none,
                            noNumberTimer := none }
        ∧ (s.lrp.taking = false → s.dir.station = .standby → exec (.start [0] strap) s = .next (State.answered
            (handOverPlain (.claim ((s.psr.working.base + strap.toNat + k) % 48) 1) { s with dir := d }) 2 65 .ok false []))
        ∧ (∀ timer, s.dir.station = .noNumber → s.dir.noNumberTimer = some timer → exec (.noNumberTimerExpiry strap) s = .next
            (handOverPlain (.claim ((s.psr.working.base + strap.toNat + k) % 48) 1) { s with dir := d })))
    ∧ ((∀ k, k < 48 → s.entry k ≠ none) → s.lrp.taking = false → s.dir.station = .standby →
        ∃ t, exec (.start [0] strap) s = .next t ∧ t.dir.station = .noNumber ∧ t.dir.candidate = none
          ∧ t.dir.noNumberTimer = some (4000 * s.psr.working.refresh) ∧ t.shows .numberChange
          ∧ t.sct.queue = [] ∧ t.sct.service = none ∧ t.lrp = (s.answered 2 65 .ok false []).lrp)
    ∧ (s.lrp.taking = false → s.dir.station ≠ .standby →
        exec (.start [0] strap) s = .next (s.answered 2 65 .badState false []))

/-! ## Degree tracing -/

/-- R34 to R37, R187: the word an equipped degree sends carries the sender and stands on the line in Manchester code; the receiver at the far end
hears that word and judges it valid, with the identity, the number and the flag that were sent. -/
def Obligations.TraceWordSentIsTraceWordJudged : Prop :=
  (∀ (s : State) (d : Nat) (x : Degree), s.inReset = false → s.active = true → s.degrees[d]? = some x → x.trace ≠ .unequipped →
    exec (.traceWordSend d) s = .next { s with degrees := s.degrees.set d { x with
      txWord := some (encodeTraceWord s.ownUid s.ownNumber d (decide (x.trace.code ≠ 3))) } })
  ∧ (∀ (x : Degree) (w : TraceWord), x.txWord = some w → ∃ levels, x.trTx = some levels ∧ levels.length = 208 ∧ heardWord levels = some w
      ∧ (wordSync w = 0x1F35 → syncAt levels 16 ∧ heardAfterSync (levels.drop 32) = some w))
  ∧ (∀ (uid own : Uid) (number d : Nat) (notTraced : Bool), number < 256 → d < 8 → uid ≠ own →
      wordSync (encodeTraceWord uid number d notTraced) = 0x1F35
        ∧ judgeWord own (encodeTraceWord uid number d notTraced) = .valid { uid := uid, degree := d } number notTraced)

/-- R37, R40 to R42, R45: HUNT compares every run of 16 decoded bits with the sync pattern, and the first that matches stops the hunt; one that does
not match leaves it running; each judgement, of a word or of a hunt timer's expiry, moves the trace state by
its table, and a change that DEGREE_CHANGE watches raises it. -/
def Obligations.JudgementsMoveTheTraceState : Prop :=
  (∀ (s : State) (d n k : Nat) (x : Degree) (levels : List Bool), s.hears d x → x.receiver = .hunt n → levels.length = 2 * k →
    (syncAt levels k → (∀ m, m < k → ¬ syncAt levels m) → exec (.traceSyncMatch { degree := d, levels := levels }) s
      = .next { s with degrees := s.degrees.set d { x with receiver := .found } })
    ∧ (¬ syncAt levels k → exec (.traceSyncMatch { degree := d, levels := levels }) s = .next s))
  ∧ (∀ (s : State) (d : Nat) (x : Degree) (c : Instr) (j : Judgement) (r : Receiver), s.hears d x →
      ((∃ levels w, c = .traceWordJudgement d levels ∧ j = judgeWord s.ownUid w ∧ r = .locked
          ∧ (x.receiver = .found ∧ heardWord (manchester (bitsMsb (0x1F35 : BitVec 16)) ++ levels) = some w
            ∨ x.receiver = .locked ∧ heardWord levels = some w ∧ wordSync w = 0x1F35))
        ∨ (∃ levels w, c = .traceWordJudgement d levels ∧ heardWord levels = some w ∧ j = .invalid ∧ r = .hunt 13 ∧ x.receiver = .locked ∧ wordSync w ≠ 0x1F35)
        ∨ (∃ levels, c = .traceWordJudgement d levels ∧ j = .invalid ∧ r = .hunt 13
          ∧ (x.receiver = .found ∧ heardWord (manchester (bitsMsb (0x1F35 : BitVec 16)) ++ levels) = none
            ∨ x.receiver = .locked ∧ heardWord levels = none))
        ∨ (c = .huntTimerExpiry d ∧ j = .invalid ∧ r = .hunt 13 ∧ ∃ n, x.receiver = .hunt n)) →
      ∃ t y, exec c s = .next t ∧ t.degrees = s.degrees.set d y ∧ y.txWord = x.txWord
        ∧ (y.trace.watched ≠ x.trace.watched → t.shows .degreeChange)
        ∧ (∀ cand, x.trace = .searching cand →
            (j = .invalid → y.trace = .searching none ∧ y.receiver = r)
            ∧ (∀ id n f, j = .valid id n f → y.receiver = r
                ∧ ((∀ c, cand = some c → c.id = id → 2 ≤ c.good → y.trace = .traced id n f none 0)
                  ∧ (∀ c, cand = some c → c.id = id → c.good < 2 → y.trace = .searching (some { id := id, good := c.good + 1 }))
                  ∧ ((∀ c, cand = some c → c.id ≠ id) → y.trace = .searching (some { id := id, good := 1 })))))
        ∧ (∀ nbr num far cand bad, x.trace = .traced nbr num far cand bad →
            (j = .invalid → bad < 3 → y.trace = .traced nbr num far none (bad + 1) ∧ y.receiver = r)
            ∧ (j = .invalid → 3 ≤ bad → y.trace = .searching none ∧ y.receiver = .hunt 13)
            ∧ (∀ id n f, j = .valid id n f → y.receiver = r
                ∧ (id = nbr → y.trace = .traced nbr n f none 0)
                ∧ (id ≠ nbr →
                    (∀ c, cand = some c → c.id = id → 2 ≤ c.good → y.trace = .traced id n f none 0)
                    ∧ (∀ c, cand = some c → c.id = id → c.good < 2 →
                        y.trace = .traced nbr num far (some { id := id, good := c.good + 1 }) 0)
                    ∧ ((∀ c, cand = some c → c.id ≠ id) → y.trace = .traced nbr num far (some { id := id, good := 1 }) 0)))))

/-! ## Node reports and the margin monitor -/

/-- R49, R50, R52: a node report replaces each enabled field by its clamped value and no other, and says whether it clamped. -/
def Obligations.NodeReportReplacesEnabledFields : Prop :=
  ∀ (s : State) (p : List Byte) (r : NodeReport), s.listens → p.length = 112 → r = decodeNodeReport p → s.spm.degrees.length = 8 →
    (s.dir.station = .loading → exec (.writeNodeReport (112 :: p)) s = .next (s.answered 114 16 .badState false []))
    ∧ (s.dir.station ≠ .loading → (∃ k, 26 ≤ k ∧ r.enable.getLsbD k = true) →
        exec (.writeNodeReport (112 :: p)) s = .next (s.answered 114 16 .badField false []))
    ∧ (s.dir.station ≠ .loading → (∀ k, 26 ≤ k → r.enable.getLsbD k = false) →
        ∃ t, exec (.writeNodeReport (112 :: p)) s = .next t
          ∧ (∀ (d : Nat) (x : SpmDegree) (v : NodeDegreeValues), s.spm.degrees[d]? = some x → r.degrees[d]? = some v → t.spm.degrees[d]? = some { x with
              lit := if r.enable.getLsbD (3 * d) then v.lit else x.lit,
              cost := if r.enable.getLsbD (3 * d + 1) then max 1 (min v.cost 4095) else x.cost,
              latency := if r.enable.getLsbD (3 * d + 2) then min v.latency 65535 else x.latency })
          ∧ t.spm.passNoise = (if r.enable.getLsbD 24 then min r.passNoise 1000000 else s.spm.passNoise)
          ∧ t.spm.regens = (if r.enable.getLsbD 25 then min r.regens 15 else s.spm.regens)
          ∧ t.lrp = (s.answered 114 16 .ok t.lrp.clamped []).lrp
          ∧ (t.lrp.clamped = true ↔
              (∃ d v, r.degrees[d]? = some v ∧ (r.enable.getLsbD (3 * d + 1) = true ∧ (v.cost = 0 ∨ 4095 < v.cost)
                ∨ r.enable.getLsbD (3 * d + 2) = true ∧ 65535 < v.latency))
              ∨ r.enable.getLsbD 24 = true ∧ 1000000 < r.passNoise ∨ r.enable.getLsbD 25 = true ∧ 15 < r.regens)
          ∧ (s.dir.station ≠ .member → t = { s with spm := t.spm, lrp := t.lrp }))

/-- R51, R54 to R57: a span report becomes the degree's noise load, clamped, and moves its monitor by the table of the state it is in;
the response carries the monitor after it (bits 7 to 1 of its flags byte are 0: DESIGN CHOICE, log 17). WRITE SPAN REPORT and CLEAR LATCH (R58) refuse in LOADING, and then a degree above 7. -/
def Obligations.SpanReportMovesTheMonitor : Prop :=
  (∀ (s : State) (d a b c : Byte) (x : SpmDegree) (q : MonitorParams) (n : Nat), s.listens → s.dir.station ≠ .loading →
    s.spm.degrees[d.toNat]? = some x → s.psr.working.degrees[d.toNat]? = some q →
    n = min (65536 * a.toNat + 256 * b.toNat + c.toNat) 1000000 →
    ∃ t m, exec (.writeSpanReport [4, d, a, b, c]) s = .next t
      ∧ t.spm = { s.spm with degrees := s.spm.degrees.set d.toNat { x with noise := n, monitor := m } }
      ∧ (x.monitor = .clear → n ≤ q.threshold → m = .clear)
      ∧ (x.monitor = .clear → q.threshold < n → q.qualifier = 0 → m = .degraded q.latch)
      ∧ (x.monitor = .clear → q.threshold < n → 1 ≤ q.qualifier → m = .pending (250 * q.qualifier) false)
      ∧ (∀ left held, x.monitor = .pending left held → m = if n ≤ q.threshold then .clear else .pending left held)
      ∧ (∀ held, x.monitor = .degraded held →
          m = if n + q.hysteresis ≤ q.threshold ∧ held = false ∨ n = 0 ∧ held = false then .clear else .degraded held)
      ∧ (m.isDegraded ≠ x.monitor.isDegraded → t.shows .marginChange)
      ∧ t.lrp = (s.answered 6 17 .ok (decide (1000000 < 65536 * a.toNat + 256 * b.toNat + c.toNat))
          [byte m.code, byte m.latchHeld.toNat]).lrp
      ∧ (s.dir.station ≠ .member → t.org = s.org ∧ t.sct = s.sct ∧ t.tdb = s.tdb))
  ∧ ∀ (s : State) (d a b c : Byte), s.listens →
      (s.dir.station = .loading → exec (.writeSpanReport [4, d, a, b, c]) s = .next (s.answered 6 17 .badState false [])
        ∧ exec (.clearLatch [1, d]) s = .next (s.answered 3 18 .badState false []))
      ∧ (s.dir.station ≠ .loading → s.spm.degrees[d.toNat]? = none →
          exec (.writeSpanReport [4, d, a, b, c]) s = .next (s.answered 6 17 .badField false [])
            ∧ exec (.clearLatch [1, d]) s = .next (s.answered 3 18 .badField false []))

/-- R55, R58, R59: the qualifier's expiry decides a PENDING degree on the latest load, and is held in LOADING, to be decided with the new
parameters when the load ends; CLEAR LATCH releases a latched degree at or below the release level and else clears the latch (bits 7 to 1
of the flags byte it answers are 0: DESIGN CHOICE, log 17). -/
def Obligations.QualifierAndLatchDecideOnTheLatestLoad : Prop :=
  (∀ (s : State) (d : Nat) (x : SpmDegree) (q : MonitorParams), s.loading → d < 8 → s.spm.degrees[d]? = some x →
    (loadParams s.psr.store).degrees[d]? = some q → ∃ t, exec .loadEnd s = .next t
      ∧ (∀ left, x.monitor = .pending left true →
          t.spm.degrees[d]? = some { x with monitor := if q.threshold < x.noise then .degraded q.latch else .clear }
            ∧ (q.threshold < x.noise → t.shows .marginChange))
      ∧ ((∀ left, x.monitor ≠ .pending left true) → t.spm.degrees[d]? = some x))
  ∧ ∀ (s : State) (d : Byte) (x : SpmDegree) (q : MonitorParams), s.spm.degrees[d.toNat]? = some x →
    s.psr.working.degrees[d.toNat]? = some q →
    (∀ left held, s.inReset = false → x.monitor = .pending left held →
      (s.dir.station = .loading → exec (.qualifierTimerExpiry d.toNat) s = .next
        { s with spm := { s.spm with degrees := s.spm.degrees.set d.toNat { x with monitor := .pending 0 true } } })
      ∧ (s.dir.station ≠ .loading → ∃ t, exec (.qualifierTimerExpiry d.toNat) s = .next t
          ∧ t.spm = { s.spm with degrees := s.spm.degrees.set d.toNat { x with
              monitor := if q.threshold < x.noise then .degraded q.latch else .clear } }
          ∧ (q.threshold < x.noise → t.shows .marginChange)
          ∧ (x.noise ≤ q.threshold → t.ntf = s.ntf ∧ t.org = s.org)))
    ∧ (s.listens → s.dir.station ≠ .loading → ∃ t m, exec (.clearLatch [1, d]) s = .next t
        ∧ t.spm = { s.spm with degrees := s.spm.degrees.set d.toNat { x with monitor := m } }
        ∧ (x.monitor ≠ .degraded true → m = x.monitor)
        ∧ (x.monitor = .degraded true →
            m = if x.noise ≤ q.threshold - q.hysteresis then .clear else .degraded false)
        ∧ t.lrp = (s.answered 3 18 .ok false [byte m.code, byte m.latchHeld.toNat]).lrp
        ∧ (m.isDegraded ≠ x.monitor.isDegraded → t.shows .marginChange))

/-! ## The own report -/

/-- R62, R63, R66 to R68, R70: the hold-down expiry originates when a change is pending and else stops the timer; the refresh expiry originates
in any case; outside MEMBER neither does. An origination stages and queues the report with the current number and restarts both timers. The
report carries the values held, and a link entry for exactly the degrees that are TRACED and confirmed. In MEMBER a change signal of the receiver,
of the tracer or of the span monitor is judged (R64): equal content has no effect; changed content, or none held in staging, originates, or
sets pending-change while the hold-down runs (R65). -/
def Obligations.OwnReportIsOriginated : Prop :=
  (∀ (s : State) (n : Nat) (c : Instr), s.inReset = false →
    (c = .holdDownExpiry ∧ s.org.holdDown = some n ∧ s.org.pendingChange = true ∨ c = .refreshTimerExpiry ∧ s.org.refresh = some n) →
    (s.dir.station = .member → exec c s = .next
      (let t := handOverPlain (.report s.ownReport) { s with
        tdb := { s.tdb with staging := s.tdb.staging.set s.ownNumber (some { uid := s.ownUid, report := s.ownReport }), dirty := true } }
      { t with org := { seq := s.org.seq + 1, missed := [], holdDown := some 500, refresh := some (1000 * s.psr.working.refresh),
                        pendingChange := false } }))
    ∧ (s.dir.station ≠ .member → c = .refreshTimerExpiry → exec c s = .next s)
    ∧ exec .holdDownExpiry { s with org := { s.org with pendingChange := false, holdDown := some n } }
        = .next { s with org := { s.org with pendingChange := false, holdDown := none } })
  ∧ (∀ s : State, s.ownReport.seq = s.org.seq ∧ s.ownReport.domain = s.psr.working.domain
    ∧ (s.ownReport.impaired = true ↔ s.scr.channel ≠ .aligned) ∧ s.ownReport.passNoise = s.spm.passNoise
    ∧ s.ownReport.regens = s.spm.regens ∧ s.ownReport.capability = s.psr.working.capability
    ∧ (s.org.missed.length ≤ 4 → s.ownReport.missed = s.org.missed ++ List.replicate (4 - s.org.missed.length) 255)
    ∧ (s.ownReport.links.map fun l => l.degree).Pairwise (· < ·)
    ∧ ∀ l, l ∈ s.ownReport.links ↔ ∃ d x m nbr num cand bad, d < 8 ∧ s.degrees[d]? = some x ∧ s.spm.degrees[d]? = some m
        ∧ x.trace = .traced nbr num false cand bad
        ∧ l = { degree := d, nbrUid := nbr.uid, nbrDegree := nbr.degree, noise := m.noise, latency := m.latency, cost := m.cost,
                degraded := m.monitor.isDegraded, confirmed := true, lit := m.lit })
  ∧ (∀ s : State, s.inReset = false → s.dir.station = .member → s.scr.darkTimer.isSome = true →
      ∀ u : State, u = { s with scr := { s.scr with channel := .dark, history := [], goodRun := 0, darkTimer := none } } →
      (s.scr.channel = .aligned → ∃ t, exec .darkTimerExpiry s = .next t ∧ (raise .channelChange u).judgedTo t)
      ∧ (s.scr.channel = .seeking → exec .darkTimerExpiry s = .next (raise .channelChange u))
      ∧ (s.scr.channel = .dark → exec .darkTimerExpiry s = .next u))
  ∧ (∀ (s : State) (d n num : Nat) (x : Degree) (nbr : Identity) (far : Bool) (cand : Option Candidate), s.dir.station = .member →
      s.hears d x → x.receiver = .hunt n → x.trace = .traced nbr num far cand 3 →
      ∃ t, exec (.huntTimerExpiry d) s = .next t ∧ (raise .degreeChange { s with
        degrees := s.degrees.set d { x with trace := .searching none, receiver := .hunt 13 } }).judgedTo t)
  ∧ ∀ (s : State) (d a b c : Byte) (x : SpmDegree) (n : Nat), s.listens → s.dir.station = .member → s.spm.degrees[d.toNat]? = some x →
      x.monitor = .clear → n = min (65536 * a.toNat + 256 * b.toNat + c.toNat) 1000000 → n ≤ (s.monitorParams d.toNat).threshold →
      ∃ t u, exec (.writeSpanReport [4, d, a, b, c]) s = .next t ∧ t = { u with lrp := t.lrp }
        ∧ u.lrp = s.lrp
        ∧ (n = x.noise → u = s)
        ∧ (n ≠ x.noise → State.judgedTo { s with spm := { s.spm with degrees := s.spm.degrees.set d.toNat { x with noise := n } } } u)

/-! ## The topology database -/

/-- R85, R86, R89, R90: the epoch timer's expiry does nothing on a clean table, is deferred by a running search, waits while a transfer
runs, and else transfers: the active tables become the staging tables. -/
def Obligations.EpochExpiryTransfersOrDefers : Prop :=
  ∀ (s : State) (n : Nat) (u : Tdb), s.inReset = false → s.tdb.epochTimer = some n →
    u = { s.tdb with epochTimer := some (10 * s.psr.working.epoch) } →
    (s.tdb.transferring = true → exec .epochTimerExpiry s = .next { s with tdb := { u with held := s.tdb.held ++ [.expiry] } })
    ∧ (s.tdb.transferring = false → s.tdb.dirty = false → exec .epochTimerExpiry s = .next { s with tdb := u })
    ∧ (s.tdb.transferring = false → s.tdb.dirty = true → s.anyRunning = true →
        exec .epochTimerExpiry s = .next { s with tdb := { u with pendingEpoch := true } })
    ∧ (s.tdb.transferring = false → s.tdb.dirty = true → s.anyRunning = false → ∃ t, exec .epochTimerExpiry s = .next t
        ∧ t.tdb.active = s.tdb.staging ∧ t.tdb.activeIntents = s.tdb.stagingIntents.map (fun x => x.map fun e => e.entry)
        ∧ t.tdb.staging = s.tdb.staging ∧ t.tdb.stagingIntents = s.tdb.stagingIntents ∧ t.tdb.epoch = s.tdb.epoch + 1
        ∧ t.tdb.dirty = false ∧ t.tdb.pendingEpoch = false ∧ t.shows .epoch
        ∧ t.tdb.spans = resolveSpans { s with tdb := { s.tdb with active := s.tdb.staging } }
        ∧ t.dir = s.dir ∧ t.sct = s.sct ∧ t.org = s.org ∧ t.lrp = s.lrp ∧ t.spm = s.spm ∧ t.degrees = s.degrees)

/-- R105 to R110: the result watch of a transfer. Only FOUND slots are judged, each by the ordered checks against the new view: hop by hop for
span, degradation and channel, then every segment, the latency, the regenerators. The first failure makes the slot INVALID with its reason
and its record kept; a slot that passes stays FOUND with its totals brought up to date. RESULT_INVALID is raised when a slot becomes
INVALID, and by nothing else here. -/
def Obligations.ResultWatchJudgesFoundSlots : Prop :=
  ∀ (s : State) (n : Nat), s.inReset = false → s.tdb.epochTimer = some n → s.tdb.transferring = false → s.tdb.dirty = true →
    s.anyRunning = false → s.reqQueue = [] →
    ∃ t, exec .epochTimerExpiry s = .next t
      ∧ ((∃ i x y, s.slot i = some x ∧ t.slot i = some y ∧ x.state.isInvalid = false ∧ y.state.isInvalid = true) → t.shows .resultInvalid)
      ∧ ((∀ i x y, s.slot i = some x → t.slot i = some y → y.state.isInvalid = true → x.state.isInvalid = true) →
          (t.shows .resultInvalid ↔ s.shows .resultInvalid))
      ∧ ∀ i x, s.slot i = some x → ∃ y, t.slot i = some y ∧ y.intent = x.intent
        ∧ ((∀ j e r, x.state ≠ .found j e r) → y = x)
        ∧ ∀ j e r, x.state = .found j e r →
          (∀ a h b why, r.hops = a ++ h :: b → (∀ g ∈ a, ∀ w, ¬ t.hopFails i x j.request g w) → t.hopFails i x j.request h why →
            y.state = .invalid j e r why)
          ∧ ((∀ h ∈ r.hops, ∀ w, ¬ t.hopFails i x j.request h w) → ∀ cls path segs,
              cls = t.classOf j.request.cls →
              path = r.hops.filterMap (fun h => (hopSpan t.tdb h).map fun sp => ({ hop := h, span := sp } : Crossing)) →
              segs = sumSegments t.tdb cls path →
              ((∃ g ∈ segs, cls.budget < g.1 ∨ cls.maxPasses < g.2) → y.state = .invalid j e r .budgetExceeded)
              ∧ ((∀ g ∈ segs, g.1 ≤ cls.budget ∧ g.2 ≤ cls.maxPasses) →
                  (cls.maxLatency ≠ 0 → cls.maxLatency < sumLatency path → y.state = .invalid j e r .latencyExceeded)
                  ∧ ((cls.maxLatency = 0 ∨ sumLatency path ≤ cls.maxLatency) →
                      ((∃ h ∈ r.hops, h.regen = true ∧ x.intent.isHeld = false
                          ∧ ∀ p, reportUnder t.tdb.active h.src = some p → p.regens = 0) → y.state = .invalid j e r .regenGone)
                      ∧ ((∀ h ∈ r.hops, h.regen = true → x.intent.isHeld = true
                            ∨ ∃ p, reportUnder t.tdb.active h.src = some p ∧ 1 ≤ p.regens) →
                          y.state = .found j e { r with
                            segments := segs.map fun g => { noise := g.1, passes := g.2, margin := cls.budget - g.1 }
                            cost := sumCost cls path
                            latency := sumLatency path }))))

/-- R87, R89, R160: FORCE EPOCH answers at once on a clean table or behind a running search; when it transfers, its response waits for
the transfer's end. What is asked for during a transfer waits for its end and is then decided, oldest first, until one of it transfers. -/
def Obligations.ForceEpochAnswersWhenTheTransferEnds : Prop :=
  (∀ s : State, s.listens →
    ((s.dir.station = .loading ∨ s.dir.station = .faulted) → s.tdb.transferring = false →
      exec (.forceEpoch [0]) s = .next (s.answered 2 64 .badState false []))
    ∧ (s.dir.station ≠ .loading → s.dir.station ≠ .faulted → s.tdb.transferring = false →
      (s.tdb.dirty = false → exec (.forceEpoch [0]) s = .next (s.answered 2 64 .ok false (toBytes 2 s.tdb.epoch.toNat)))
      ∧ (s.tdb.dirty = true → s.anyRunning = true → exec (.forceEpoch [0]) s = .next
          (State.answered { s with tdb := { s.tdb with pendingEpoch := true } } 2 64 .deferred false (toBytes 2 s.tdb.epoch.toNat)))
      ∧ (s.tdb.dirty = true → s.anyRunning = false → ∃ t, exec (.forceEpoch [0]) s = .next t
          ∧ t.tdb.active = s.tdb.staging ∧ t.tdb.epoch = s.tdb.epoch + 1 ∧ t.tdb.dirty = false ∧ t.shows .epoch
          ∧ t.tdb.transferring = true ∧ t.beingTaken = true ∧ t.lrp.commandBuffer = [64, 0] ∧ t.lrp.response = s.lrp.response))
    ∧ (s.tdb.transferring = true → exec (.forceEpoch [0]) s = .next { s with
        tdb := { s.tdb with held := s.tdb.held ++ [.force] }
        lrp := { s.lrp with commandBuffer := [64, 0], taking := true, dataOut := [0, 0] } }))
  ∧ (∀ s : State, s.inReset = false → s.tdb.transferring = true → s.tdb.held = [] →
      exec .epochTransferEnd s = .next
        (let u : State := { s with tdb := { s.tdb with transferring := false, held := [] } }
        if s.beingTaken then { u with lrp := { s.lrp with
          commandBuffer := [], taking := false, command := 64, number := s.lrp.number + 1, status := .ok, clamped := false,
          payload := toBytes 2 s.tdb.epoch.toNat } }
        else u))
  ∧ (∀ (s : State) (rest : List EpochAsk) (u : State), s.inReset = false → s.tdb.transferring = true →
      u = { s with tdb := { s.tdb with transferring := false, held := [] } } →
      (s.tdb.held = [.expiry] → s.beingTaken = false → s.tdb.dirty = false → exec .epochTransferEnd s = .next u)
      ∧ (s.tdb.held = [.expiry] → s.beingTaken = false → s.tdb.dirty = true → s.anyRunning = true →
          exec .epochTransferEnd s = .next { u with tdb := { u.tdb with pendingEpoch := true } })
      ∧ (s.tdb.held = .expiry :: rest → s.tdb.dirty = true → s.anyRunning = false → ∃ t, exec .epochTransferEnd s = .next t
          ∧ t.tdb.active = s.tdb.staging ∧ t.tdb.epoch = s.tdb.epoch + 1 ∧ t.tdb.dirty = false ∧ t.shows .epoch
          ∧ t.tdb.transferring = true ∧ t.tdb.held = rest)
      ∧ (s.dir.station ≠ .loading → s.dir.station ≠ .faulted →
          (s.tdb.held = [.force] → s.tdb.dirty = false → exec .epochTransferEnd s = .next { u with lrp := { s.lrp with
            commandBuffer := [], taking := false, command := 64, number := s.lrp.number + 1, status := .ok, clamped := false,
            payload := toBytes 2 s.tdb.epoch.toNat } })
          ∧ (s.tdb.held = [.force] → s.tdb.dirty = true → s.anyRunning = true → exec .epochTransferEnd s = .next { u with
              tdb := { u.tdb with pendingEpoch := true }
              lrp := { s.lrp with
                commandBuffer := [], taking := false, command := 64, number := s.lrp.number + 1, status := .deferred, clamped := false,
                payload := toBytes 2 s.tdb.epoch.toNat } })
          ∧ (s.tdb.held = .force :: rest → s.tdb.dirty = true → s.anyRunning = false → ∃ t, exec .epochTransferEnd s = .next t
              ∧ t.tdb.active = s.tdb.staging ∧ t.tdb.epoch = s.tdb.epoch + 1 ∧ t.tdb.dirty = false ∧ t.shows .epoch
              ∧ t.tdb.transferring = true ∧ t.tdb.held = rest ∧ t.beingTaken = true ∧ t.lrp.response = s.lrp.response)))

/-- R82: a RELEASE removes the entry of its sender and id, and no other. -/
def Obligations.ReleaseRemovesOneIntentOfOneSender : Prop :=
  ∀ (s : State) (strap : BitVec 3) (f : Frame) (rest : List Frame) (id l : Nat), s.offers f rest →
    s.active = true → (s.dir.station = .joining → s.dir.candidate ≠ some f.number) → f.body = .release id → id < 8 → f.number < 48 →
    s.entry f.number = some (.peer f.uid l) →
    ∀ u : State, u = { s.withRxQueue rest with
        dir := { s.dir with entries := s.dir.entries.set f.number (some (.peer f.uid f.lifetimeMs)) } } →
      (∀ (p : Nat) (e : StagedIntent), s.tdb.stagingIntents[p]? = some (some e) → e.entry.uid = f.uid → e.entry.id = id →
        (∀ (q : Nat) (e' : StagedIntent), q < p → s.tdb.stagingIntents[q]? = some (some e') → e'.entry.uid ≠ f.uid ∨ e'.entry.id ≠ id) →
        exec (.takeReceivedFrame strap) s = .next
          { u with tdb := { s.tdb with stagingIntents := s.tdb.stagingIntents.set p none, dirty := true } })
      ∧ ((∀ (q : Nat) (e' : StagedIntent), s.tdb.stagingIntents[q]? = some (some e') → e'.entry.uid ≠ f.uid ∨ e'.entry.id ≠ id) →
        exec (.takeReceivedFrame strap) s = .next u)

/-- R91, R92: a span stands for two link entries, of two stations the directory knows, that name each other, and carries the worse of
their values. -/
def Obligations.SpansNeedTwoAgreeingEnds : Prop :=
  ∀ (s : State) (sp : Span), sp ∈ resolveSpans s ↔
    ∃ v w d a b l m, v < 48 ∧ d < 8 ∧ v < w
      ∧ place s.tdb.active v = some a ∧ place s.tdb.active w = some b
      ∧ (s.entry v).map DirEntry.uid = some a.uid ∧ s.numberOf l.nbrUid = some w ∧ b.uid = l.nbrUid
      ∧ confirmedLink a.report d = some l ∧ confirmedLink b.report l.nbrDegree = some m
      ∧ m.nbrUid = a.uid ∧ m.nbrDegree = l.degree
      ∧ sp = { low := { station := v, degree := l.degree }, high := { station := w, degree := m.degree },
               noise := max l.noise m.noise, latency := max l.latency m.latency, cost := max l.cost m.cost,
               degraded := l.degraded || m.degraded, lit := l.lit ||| m.lit }

/-! ## Path requests and the path search -/

/-- R98, R188: the checks 2 to 10 of SUBMIT refuse in their order, for every payload of the layout, with or without a hint, a diverse-from slot
and exclusions. -/
def Obligations.SubmitChecksRefuseInOrder : Prop :=
  ∀ (s : State) (f : SubmitForm) (status : Status), s.listens → f.items.length < 16 →
    status = (if s.dir.station = .loading ∨ s.dir.station = .faulted then .badState
      else if f.outOfRange then .badField
      else if f.src = f.dst then .badEndpoints
      else if f.excludesEndpoint then .badExclusion
      else if (s.classOf f.cls.toNat).budget = 0 then .badClass
      else if s.slots.any (fun x => x.state.tag == some f.tag.toNat) then .tagInUse
      else if s.badRef f then .badRef
      else if s.slots.all (fun x => !x.state.isFree) then .noSlot
      else if 4 ≤ s.slots.countP (fun x => x.state.isQueued) then .queueFull
      else .ok) →
    status ≠ .ok → exec f.row s = .next (s.answered (f.payload.length + 2) 32 status false [])

/-- R95, R98 to R100, R124, R125: SUBMIT takes the lowest FREE slot, with the request as submitted and the tag of the slot it refers to. Behind
a running search or a pending epoch the slot is QUEUED; on an idle part it starts, with the source label alone in the frontier and copies of
the referenced slot's ends and of the other intents' pairs, or fails at once on an unknown endpoint. -/
def Obligations.SubmitTakesTheLowestFreeSlot : Prop :=
  ∀ (s : State) (f : SubmitForm) (i : Nat) (x : Slot), s.listens → f.items.length < 16 →
    s.dir.station ≠ .loading → s.dir.station ≠ .faulted → f.outOfRange = false → f.src ≠ f.dst → f.excludesEndpoint = false →
    (s.classOf f.cls.toNat).budget ≠ 0 → (∀ y ∈ s.slots, y.state.tag ≠ some f.tag.toNat) → s.badRef f = false →
    s.slot i = some x → x.state = .free → (∀ k, k < i → s.slotState k ≠ some .free) → s.slots.countP (fun y => y.state.isQueued) < 4 →
    (s.anyRunning = true ∨ s.tdb.pendingEpoch = true → exec f.row s = .next (State.answered { s with
        slots := s.slots.set i { state := .queued (s.jobOf f), intent := .none }
        reqQueue := s.reqQueue ++ [i] } (f.payload.length + 2) 32 .ok false [byte i]))
    ∧ (s.anyRunning = false → s.tdb.pendingEpoch = false → s.reqQueue = [] →
        (reportUnder s.tdb.active f.src.toNat).isSome = true → (reportUnder s.tdb.active f.dst.toNat).isSome = true →
        exec f.row s = .next (State.answered { s with
          slots := s.slots.set i { state := .running (s.jobOf f) s.tdb.epoch, intent := .none }
          pen := { searching := some i, settled := []
                   frontier := [{ state := { station := f.src.toNat, channel := 64 }, label := sourceLabel }]
                   pruned := false, settlements := 0, diverse := s.endsOf f, ownPairs := s.otherIntentPairs i } }
          (f.payload.length + 2) 32 .ok false [byte i]))
    ∧ (s.anyRunning = false → s.tdb.pendingEpoch = false → s.reqQueue = [] →
        (reportUnder s.tdb.active f.src.toNat = none ∨ reportUnder s.tdb.active f.dst.toNat = none) →
        exec f.row s = .next (State.answered (raise .requestDone { s with
          slots := s.slots.set i { state := .failed (s.jobOf f) s.tdb.epoch .endpointUnknown false, intent := .none } })
          (f.payload.length + 2) 32 .ok false [byte i]))

/-- R102, R103, R143: CANCEL frees a QUEUED or RUNNING slot, RELEASE SLOT one that holds a result, with a RELEASE frame for an intent that
stands; every other state is refused. An index without a slot is refused by every command that names a slot (R104, R147, R155). When the
RUNNING slot is cancelled, a pending transfer takes place, and the head of the request queue then starts on the view that stands (R88, R100). -/
def Obligations.CancelAndReleaseFreeASlot : Prop :=
  (∀ (s : State) (i : Byte) (x : Slot) (freed : List Slot), s.listens → s.slot i.toNat = some x →
    freed = s.slots.set i.toNat { state := .free, intent := .none } →
    (∀ j, x.state = .queued j → exec (.cancel [1, i]) s = .next
      (State.answered { s with slots := freed, reqQueue := s.reqQueue.filter (· != i.toNat) } 3 33 .ok false []))
    ∧ (∀ j e, x.state = .running j e → s.tdb.pendingEpoch = false → s.reqQueue = [] → exec (.cancel [1, i]) s = .next
        (State.answered { s with slots := freed, pen := { s.pen with searching := none, diverse := [], ownPairs := [] } } 3 33 .ok false []))
    ∧ ((∀ j, x.state ≠ .queued j) → (∀ j e, x.state ≠ .running j e) →
        exec (.cancel [1, i]) s = .next (s.answered 3 33 .badState false []))
    ∧ (x.state = .free ∨ x.state.isQueued = true ∨ x.state.isRunning = true →
        exec (.releaseSlot [1, i]) s = .next (s.answered 3 34 .badState false []))
    ∧ (x.state ≠ .free → x.state.isQueued = false → x.state.isRunning = false → exec (.releaseSlot [1, i]) s = .next
        (let u : State := { s with slots := freed }
        if x.intent.stands then State.answered (handOverPlain (.release i.toNat) u) 3 34 .ok false []
        else State.answered u 3 34 .ok false [])))
  ∧ (∀ (s : State) (i : Byte), s.listens → s.slot i.toNat = none →
      exec (.cancel [1, i]) s = .next (s.answered 3 33 .badField false [])
      ∧ exec (.releaseSlot [1, i]) s = .next (s.answered 3 34 .badField false [])
      ∧ exec (.readSlot [1, i]) s = .next (s.answered 3 35 .badField false [])
      ∧ exec (.commitIntent [1, i]) s = .next (s.answered 3 48 .badField false [])
      ∧ exec (.withdraw [1, i]) s = .next (s.answered 3 49 .badField false []))
  ∧ ∀ (s : State) (i : Byte) (x : Slot) (j : Job) (ep : BitVec 16), s.listens → s.slot i.toNat = some x → x.state = .running j ep →
      ∃ t, exec (.cancel [1, i]) s = .next t ∧ t.slot i.toNat = some { state := .free, intent := .none }
        ∧ t.lrp = (s.answered 3 33 .ok false []).lrp ∧ s.leftRunningTo t i.toNat

/-- R134, R140 to R142: a settlement on an empty frontier ends the search NO_PATH; on a destination label it ends it FOUND, with the path
the label table holds; on any other label it settles it and works from it. When a search ends, a pending transfer takes place, and the head
of the request queue then starts on the view that stands (R88, R100, R101). -/
def Obligations.SettlementEndsOrWorksFromTheBestLabel : Prop :=
  (∀ (s : State) (i : Nat) (x : Slot) (j : Job) (ep : BitVec 16), s.inReset = false → s.pen.searching = some i → s.slot i = some x →
    x.state = .running j ep → s.reqQueue = [] → s.tdb.pendingEpoch = false →
    (s.pen.frontier = [] → exec .settlement s = .next (raise .requestDone { s with
      slots := s.slots.set i { x with state := .failed j ep .noPath s.pen.pruned }
      pen := { s.pen with searching := none, diverse := [], ownPairs := [] } }))
    ∧ (∀ e rest p, s.pen.frontier = e :: rest →
      p = { s.pen with settled := e :: s.pen.settled, frontier := rest, settlements := s.pen.settlements + 1 } →
      (e.state.station = j.request.destination → ∃ t, exec .settlement s = .next t ∧ t.shows .requestDone
        ∧ t.slots = s.slots.set i { x with state := .found j ep (pathOf (s.classOf j.request.cls) p e) }
        ∧ t.pen = { p with frontier := [], searching := none, diverse := [], ownPairs := [] }
        ∧ t.tdb = s.tdb ∧ t.dir = s.dir ∧ t.sct = s.sct ∧ t.lrp = s.lrp)
      ∧ (e.state.station ≠ j.request.destination → ((s.searchEnv j).work e p).frontier ≠ [] →
          exec .settlement s = .next { s with pen := (s.searchEnv j).work e p })
      ∧ (e.state.station ≠ j.request.destination → ((s.searchEnv j).work e p).frontier = [] → ∃ t, exec .settlement s = .next t
          ∧ t.shows .requestDone
          ∧ t.slots = s.slots.set i { x with state := .failed j ep .noPath ((s.searchEnv j).work e p).pruned })))
  ∧ ∀ (s : State) (i : Nat) (x : Slot) (j : Job) (ep : BitVec 16), s.inReset = false → s.pen.searching = some i → s.slot i = some x →
      x.state = .running j ep →
      (s.pen.frontier = [] → ∃ t, exec .settlement s = .next t ∧ t.shows .requestDone
        ∧ t.slotState i = some (.failed j ep .noPath s.pen.pruned) ∧ s.leftRunningTo t i)
      ∧ (∀ e rest, s.pen.frontier = e :: rest → e.state.station = j.request.destination →
          ∃ t, exec .settlement s = .next t ∧ t.shows .requestDone ∧ s.leftRunningTo t i)

/-- R118, R119, R131, R133, R136 to R139: the work of a settlement keeps every label of the frontier within the limits of the class and
of every path; it keeps the frontier in key order, at most 256 long, and with no search state twice. -/
def Obligations.SearchKeepsTheFrontier : Prop :=
  (∀ (env : SearchEnv) (e : Reached) (p : Pen), e.label.withinLimits env.cls → (∀ x ∈ p.frontier, x.label.withinLimits env.cls) →
    ∀ x ∈ (env.work e p).frontier, x.label.withinLimits env.cls)
  ∧ ∀ (env : SearchEnv) (e : Reached) (p : Pen), env.ordered p.frontier → p.frontier.length ≤ 256 →
      (p.frontier.map fun x => x.state).Nodup →
      env.ordered (env.work e p).frontier ∧ (env.work e p).frontier.length ≤ 256
        ∧ ((env.work e p).frontier.map fun x => x.state).Nodup

/-! ## Channel intents -/

/-- R146 to R148, R150: COMMIT INTENT announces the pairs of the path, after the ordered checks. -/
def Obligations.CommitIntentClaimsThePath : Prop :=
  ∀ (s : State) (i : Byte) (x : Slot), s.listens → s.slot i.toNat = some x →
    (s.dir.station ≠ .member → exec (.commitIntent [1, i]) s = .next (s.answered 3 48 .notMember false []))
    ∧ (s.dir.station = .member → (∀ j e r, x.state ≠ .found j e r) ∨ x.intent.stands = true →
        exec (.commitIntent [1, i]) s = .next (s.answered 3 48 .badState false []))
    ∧ (∀ j e r ps, s.dir.station = .member → x.state = .found j e r → x.intent.stands = false →
        ps = r.hops.filterMap (fun h => (hopSpan s.tdb h).map fun sp =>
          { station := sp.low.station, degree := sp.low.degree, channel := h.channel }) →
        ((∃ k y p, k ≠ i.toNat ∧ s.standsIn k y ∧ p ∈ y.intent.pairs ∧ p ∈ ps) →
          exec (.commitIntent [1, i]) s = .next (s.answered 3 48 .overlap false []))
        ∧ ((∀ k y p, k ≠ i.toNat → s.standsIn k y → p ∈ y.intent.pairs → p ∉ ps) →
          exec (.commitIntent [1, i]) s = .next (State.answered
            (handOver (.intent i.toNat j.request.priority ps) { s with slots := s.slots.set i.toNat { x with
              intent := .claiming j.request.priority ps none (1000 * max 1 (s.psr.working.lifetime / 3)) } }) 3 48 .ok false [])))

/-- R149, R150, R155: the window's expiry makes a CLAIMING intent HELD; the refresh expiry announces a standing intent again and starts
the next period; WITHDRAW ends it with a RELEASE. -/
def Obligations.IntentTimersAndWithdraw : Prop :=
  ∀ (s : State) (i : Byte) (x : Slot) (p : Nat) (ps : List Pair) (r : Nat), s.slot i.toNat = some x →
    (∀ w, s.inReset = false → x.intent = .claiming p ps (some w) r → exec (.windowTimerExpiry i.toNat) s = .next
      (raise .intentHeld { s with slots := s.slots.set i.toNat { x with intent := .held p ps r } }))
    ∧ (s.inReset = false → x.intent = .held p ps r → exec (.intentRefreshExpiry i.toNat) s = .next
        (handOver (.intent i.toNat p ps) { s with slots := s.slots.set i.toNat { x with
          intent := .held p ps (1000 * max 1 (s.psr.working.lifetime / 3)) } }))
    ∧ (∀ w, s.inReset = false → x.intent = .claiming p ps w r → exec (.intentRefreshExpiry i.toNat) s = .next
        (handOver (.intent i.toNat p ps) { s with slots := s.slots.set i.toNat { x with
          intent := .claiming p ps w (1000 * max 1 (s.psr.working.lifetime / 3)) } }))
    ∧ (s.listens → x.intent.stands = true → exec (.withdraw [1, i]) s = .next (State.answered
        (handOverPlain (.release i.toNat) { s with slots := s.slots.set i.toNat { x with intent := .none } }) 3 49 .ok false []))
    ∧ (s.listens → x.intent.stands = false → exec (.withdraw [1, i]) s = .next (s.answered 3 49 .badState false []))

/-- R80, R81, R152 to R154: a known peer's INTENT is stored, in place of its entry, in the lowest empty place, or not at all with
PEER_INTENT_FULL. Two stations that compare two intents reach one winner; a peer INTENT that outranks a standing own intent it shares a pair
with makes it LOST, OUTRANKED, on arrival, and a HELD intent that it does not outrank is announced again. -/
def Obligations.PeerIntentsAreStoredAndCompared : Prop :=
  (∀ (u v : Uid) (p q : Nat), u ≠ v → outranks u p v q = !outranks v q u p)
  ∧ (∀ (s : State) (strap : BitVec 3) (f : Frame) (rest : List Frame) (id p l i : Nat) (ps : List Pair) (x : Slot) (pair : Pair),
      s.offers f rest → s.dir.station = .member → f.body = .intent id p ps → f.number < 48 → s.entry f.number = some (.peer f.uid l) →
      id < 8 → p < 8 → ps.Nodup → (∀ y ∈ ps, y.station < 48 ∧ y.degree < 8 ∧ y.channel < 64) →
      i < 8 → s.standsIn i x → pair ∈ x.intent.pairs → pair ∈ ps →
      (x.intent.priority < p ∨ x.intent.priority = p ∧ f.uid < s.ownUid) →
      ∃ t, exec (.takeReceivedFrame strap) s = .next t ∧ t.shows .intentLost
        ∧ t.slot i = some { x with intent := .lost .outranked x.intent.priority x.intent.pairs })
  ∧ (∀ (s : State) (strap : BitVec 3) (f : Frame) (rest : List Frame) (id p l i pr r : Nat) (ps xs : List Pair) (x : Slot) (pair : Pair),
      s.offers f rest → s.dir.station = .member → f.body = .intent id p ps → f.number < 48 → s.entry f.number = some (.peer f.uid l) →
      id < 8 → p < 8 → ps.Nodup → (∀ y ∈ ps, y.station < 48 ∧ y.degree < 8 ∧ y.channel < 64) →
      i < 8 → s.slot i = some x → x.intent = .held pr xs r → pair ∈ xs → pair ∈ ps →
      (p < pr ∨ p = pr ∧ s.ownUid ≤ f.uid) → s.sct.queue = [] →
      ∃ t, exec (.takeReceivedFrame strap) s = .next t ∧ t.slot i = some x ∧ .intent i pr xs ∈ t.sct.queue)
  ∧ (∀ (s : State) (strap : BitVec 3) (f : Frame) (rest : List Frame) (id p l : Nat) (ps : List Pair) (e : StagedIntent),
      s.offers f rest → s.active = true → (s.dir.station = .joining → s.dir.candidate ≠ some f.number) → f.body = .intent id p ps →
      f.number < 48 → s.entry f.number = some (.peer f.uid l) → intentWellFormed id p ps = true →
      e = { entry := { uid := f.uid, id := id, priority := p, pairs := ps }, left := 1000 * s.psr.working.lifetime } →
      ∃ t, exec (.takeReceivedFrame strap) s = .next t
        ∧ (∀ (q : Nat) (o : StagedIntent), s.tdb.stagingIntents[q]? = some (some o) → o.entry.uid = f.uid → o.entry.id = id →
            (∀ (k : Nat) (o' : StagedIntent), k < q → s.tdb.stagingIntents[k]? = some (some o') →
              o'.entry.uid ≠ f.uid ∨ o'.entry.id ≠ id) →
            t.tdb = { s.tdb with stagingIntents := s.tdb.stagingIntents.set q (some e)
                                 dirty := s.tdb.dirty || decide (o.entry.priority ≠ p ∨ o.entry.pairs ≠ ps) })
        ∧ ((∀ (k : Nat) (o : StagedIntent), s.tdb.stagingIntents[k]? = some (some o) → o.entry.uid ≠ f.uid ∨ o.entry.id ≠ id) →
            (∀ q : Nat, s.tdb.stagingIntents[q]? = some none → (∀ k : Nat, k < q → s.tdb.stagingIntents[k]? ≠ some none) →
              t.tdb = { s.tdb with stagingIntents := s.tdb.stagingIntents.set q (some e), dirty := true })
            ∧ ((∀ q : Nat, s.tdb.stagingIntents[q]? ≠ some none) → t.tdb = s.tdb ∧ t.shows .peerIntentFull)))
  ∧ ∀ (s : State) (strap : BitVec 3) (f : Frame) (rest : List Frame) (id p l : Nat) (ps : List Pair),
      s.offers f rest → s.active = true → (s.dir.station = .joining → s.dir.candidate ≠ some f.number) → f.body = .intent id p ps →
      f.number < 48 → s.entry f.number = some (.peer f.uid l) →
      (8 ≤ id ∨ 8 ≤ p ∨ (∃ y ∈ ps, 48 ≤ y.station ∨ 8 ≤ y.degree ∨ 64 ≤ y.channel) ∨ ¬ ps.Nodup) →
      exec (.takeReceivedFrame strap) s = .next { s.withRxQueue rest with
        dir := { s.dir with entries := s.dir.entries.set f.number (some (.peer f.uid f.lifetimeMs)) } }

/-! ## The request port and the indications -/

/-- R159 to R163: a read sends 0 and then the response buffer again and again, most significant bit first; a transaction that is ignored empties
the command buffer and leaves the response buffer; an unknown command byte is refused before its length is looked at. Two things are the model's:
bits 7 to 1 of the response's flags byte are 0 (DESIGN CHOICE, log 17), and a command being taken goes on being taken when another transaction is
ignored (DEDUCED, log 19). -/
def Obligations.TransactionsReadIgnoreAndRefuse : Prop :=
  (∀ (s : State) (n : Nat), s.inReset = false → ∃ out, exec (.readResponse n) s = .next { s with lrp := { s.lrp with dataOut := 0 :: out } }
    ∧ out.length = n ∧ (∀ k, k < n → out[k]? = s.lrp.response[k % (5 + s.lrp.payload.length)]?)
    ∧ bitsOf (0 :: out) = (List.range (8 * (n + 1))).map (s.sdoBit 1))
  ∧ (∀ s : State, s.lrp.response = [s.lrp.command, s.lrp.number, byte s.lrp.status.code, byte s.lrp.clamped.toNat,
        byte s.lrp.payload.length] ++ s.lrp.payload)
  ∧ (∀ (s : State) (bits : List Bool), s.inReset = false →
      (bits.length < 8 ∨ s.lrp.taking = true ∧ (bytesOf bits).head? ≠ some 1) → exec (.ignoredTransaction bits) s = .next
        { s with lrp := { s.lrp with commandBuffer := [], dataOut := List.replicate (bytesOf bits).length 0 } })
  ∧ (∀ (s : State) (c : Instr) (command : Byte) (n : Nat) (rest : List Byte), s.inReset = false → s.lrp.taking = true →
      (fixedLength c = some (command, n, rest) ∨ c = .submit rest ∨ c = .unknownCommand command rest ∧ command ∉ namedBytes) →
      exec c s = .next { s with lrp := { s.lrp with commandBuffer := [], dataOut := List.replicate (rest.length + 1) 0 } })
  ∧ (∀ (s : State) (command : Byte) (rest : List Byte), s.listens → command ∉ namedBytes →
      exec (.unknownCommand command rest) s = .next (s.answered (rest.length + 1) command .badCommand false []))

/-- R104, R164 to R166: the read commands answer OK with the layouts and lengths of R188 and change nothing but the port. Three things are the
model's: whole seconds of a lifetime are rounded up (DEDUCED, log 16), the bits of a flags byte that R188 does not name are 0 (DESIGN
CHOICE, log 17), and READ REPORT answers the link entries in the order stored, ascending or not (DESIGN CHOICE, log 29). -/
def Obligations.ReadCommandsAnswerAndChangeNothing : Prop :=
  ∀ s : State, s.listens →
    exec (.readStatus [0]) s = .next (s.answered 2 2 .ok false
      ([byte s.dir.station.code, byte s.ownNumber, byte s.scr.channel.code,
        byte (s.sct.mute.toNat + 2 * s.tdb.dirty.toNat + 4 * s.tdb.pendingEpoch.toNat)]
        ++ toBytes 2 s.tdb.epoch.toNat ++ s.slots.map (fun x => byte x.state.code) ++ toBytes 2 s.ntf.indications.toNat
        ++ toBytes 2 s.ntf.enables.toNat ++ [byte (worstOutcome s.psr.outcomes).code]))
    ∧ (∀ n : Byte, exec (.readDirectoryEntry [1, n]) s = .next (
        if n.toNat < 48 then s.answered 3 3 .ok false (match s.entry n.toNat with
          | none => List.replicate 10 0
          | some (.peer u left) => [1] ++ toBytes 8 u.toNat ++ [byte ((left + 999) / 1000)]
          | some (.own u) => [3] ++ toBytes 8 u.toNat ++ [0])
        else s.answered 3 3 .badField false []))
    ∧ (∀ (d : Byte) (x : Degree) (m : SpmDegree), s.degrees[d.toNat]? = some x → s.spm.degrees[d.toNat]? = some m →
        ∃ p, exec (.readDegree [1, d]) s = .next (s.answered 3 6 .ok false p) ∧ p.length = 46
          ∧ p = [byte x.trace.code, byte (levelCode (s.lolLevel d.toNat)),
                 byte (x.trace.nbr.isSome.toNat + 2 * x.trace.farEnd.toNat + 4 * x.trace.confirmedNbr.isSome.toNat
                   + 8 * x.trace.candidate.isSome.toNat + 16 * m.monitor.latchHeld.toNat)]
              ++ (match x.trace.nbr with
                | some id => toBytes 8 id.uid.toNat ++ [byte id.degree]
                | none => List.replicate 9 0)
              ++ [byte x.trace.nbrNumber]
              ++ (match x.trace.candidate with
                | some c => toBytes 8 c.id.uid.toNat ++ [byte c.id.degree, byte c.good]
                | none => List.replicate 10 0)
              ++ [byte x.trace.badCount] ++ toBytes 8 m.lit.toNat ++ toBytes 2 m.cost ++ toBytes 2 m.latency ++ toBytes 3 m.noise
              ++ [byte m.monitor.code]
              ++ toBytes 2 (match m.monitor with
                | .pending left _ => left
                | _ => 65535)
              ++ toBytes 3 s.spm.passNoise ++ [byte s.spm.regens])
    ∧ (∀ (sel n : Byte) (table : List (Option StationReport)),
        (sel = 0 ∧ table = s.tdb.staging ∨ sel = 1 ∧ table = s.tdb.active) → n.toNat < 48 →
        exec (.readReport [2, sel, n]) s = .next (s.answered 4 4 .ok false (match place table n.toNat with
          | none => [0]
          | some x => [1] ++ toBytes 8 x.uid.toNat ++ encodeReport x.report)))
    ∧ (∀ sel n : Byte, (2 ≤ sel.toNat ∨ 48 ≤ n.toNat → exec (.readReport [2, sel, n]) s = .next (s.answered 4 4 .badField false []))
        ∧ (2 ≤ sel.toNat ∨ 32 ≤ n.toNat → exec (.readPeerIntent [2, sel, n]) s = .next (s.answered 4 5 .badField false [])))
    ∧ (∀ d : Byte, s.degrees[d.toNat]? = none → exec (.readDegree [1, d]) s = .next (s.answered 3 6 .badField false []))
    ∧ (∀ n : Byte, n.toNat < 32 →
        exec (.readPeerIntent [2, 0, n]) s = .next (s.answered 4 5 .ok false (match place s.tdb.stagingIntents n.toNat with
          | none => [0]
          | some e => [1] ++ toBytes 8 e.entry.uid.toNat ++ [byte ((s.numberOf e.entry.uid).getD 255), byte e.entry.id,
              byte e.entry.priority, byte ((e.left + 999) / 1000), byte e.entry.pairs.length] ++ e.entry.pairs.flatMap Pair.bytes))
        ∧ exec (.readPeerIntent [2, 1, n]) s = .next (s.answered 4 5 .ok false (match place s.tdb.activeIntents n.toNat with
          | none => [0]
          | some e => [1] ++ toBytes 8 e.uid.toNat ++ [byte ((s.numberOf e.uid).getD 255), byte e.id, byte e.priority, 0,
              byte e.pairs.length] ++ e.pairs.flatMap Pair.bytes)))
    ∧ (∀ (i : Byte) (x : Slot), s.slot i.toNat = some x → x.state = .free →
        exec (.readSlot [1, i]) s = .next (s.answered 3 35 .ok false [0]))
    ∧ (∀ (i : Byte) (x : Slot) (j : Job) (code epoch reason settlements : Nat) (r : PathResult), s.slot i.toNat = some x →
        s.shownIn x j code epoch reason settlements r →
        ∃ p, exec (.readSlot [1, i]) s = .next (s.answered 3 35 .ok false p)
          ∧ p.length = 39 + 5 * r.hops.length + 7 * r.segments.length + 3 * x.intent.pairs.length
          ∧ p = [byte code, byte j.tag, byte j.request.source, byte j.request.destination, byte j.request.cls,
                 byte (if j.request.policy = .firstFit then 0 else 1),
                 byte (j.request.allowDegraded.toNat + 2 * j.request.allowRegen.toNat + 4 * j.request.avoidImpaired.toNat),
                 byte j.request.priority, byte (j.request.hint.getD 255), byte (j.request.diverse.getD 255), byte (j.refTag.getD 0),
                 byte j.request.exclusions.length]
              ++ (j.request.exclusions.flatMap Exclusion.bytes ++ List.replicate 8 255).take 8
              ++ toBytes 2 epoch ++ [byte reason, byte r.pruned.toNat] ++ toBytes 2 settlements
              ++ [byte r.hops.length]
              ++ r.hops.flatMap (fun h => [byte h.src, byte h.degree, byte h.dst, byte h.channel, byte h.regen.toNat])
              ++ [byte r.segments.length]
              ++ r.segments.flatMap (fun g => toBytes 3 g.noise ++ [byte g.passes] ++ toBytes 3 g.margin)
              ++ toBytes 3 r.cost ++ toBytes 3 r.latency ++ [byte r.regens]
              ++ [byte x.intent.code, byte x.intent.lostCode, byte x.intent.priority, byte x.intent.pairs.length]
              ++ x.intent.pairs.flatMap Pair.bytes)

/-- R172, R173: SET ENABLES replaces the enable set, refuses a mask that names position 15, changes no indication, and NOTIFY follows
at once. -/
def Obligations.SetEnablesReplacesTheEnableSet : Prop :=
  ∀ (s : State) (a b : Byte), s.listens →
    (a.getLsbD 7 = true → exec (.setEnables [2, a, b]) s = .next (s.answered 4 80 .badField false []))
    ∧ (a.getLsbD 7 = false → ∃ t, exec (.setEnables [2, a, b]) s = .next t
        ∧ t = State.answered { s with ntf := { s.ntf with enables := (a ++ b : BitVec (8 + 8)) } } 4 80 .ok false []
        ∧ (t.notify = true ↔ ∃ k, k < 15 ∧ s.ntf.indications.getLsbD k = true ∧ (a ++ b : BitVec (8 + 8)).getLsbD k = true))
    ∧ ∀ rest : List Byte, (∀ x y, rest ≠ [2, x, y]) → ∃ n, exec (.setEnables rest) s = .next (s.answered n 80 .badLength false [])

/-- R171: CLEAR INDICATIONS clears the indications its mask names, whether set or not, keeps every other, and returns the set left. -/
def Obligations.ClearIndicationsClearsTheNamedOnes : Prop :=
  ∀ (s : State) (a b : Byte), s.listens →
    (a.getLsbD 7 = true → exec (.clearIndications [2, a, b]) s = .next (s.answered 4 81 .badField false []))
    ∧ (a.getLsbD 7 = false → ∃ left : Mask, exec (.clearIndications [2, a, b]) s = .next (State.answered
          { s with ntf := { s.ntf with indications := left } } 4 81 .ok false (toBytes 2 left.toNat))
        ∧ ∀ k, left.getLsbD k = (s.ntf.indications.getLsbD k && !(a ++ b : BitVec (8 + 8)).getLsbD k))
    ∧ ∀ rest : List Byte, (∀ x y, rest ≠ [2, x, y]) → ∃ n, exec (.clearIndications rest) s = .next (s.answered n 81 .badLength false [])

/-- 00 Conventions, R161, R162: a command that is refused changes no state but the port, which holds the refusal without a payload. A command
whose transaction does not carry its length byte and exactly its payload is refused with BAD_LENGTH; SUBMIT's length follows its presence
byte (R98, R188). That a FORCE EPOCH of wrong length is refused at once while a transfer runs is the model's choice: DESIGN CHOICE, log 25. -/
def Obligations.RefusalsChangeOnlyThePort : Prop :=
  (∀ (c : Instr) (s t : State), isCommand c = true → exec c s = .next t → t.lrp.number ≠ s.lrp.number →
    t.lrp.status ≠ .ok → t.lrp.status ≠ .deferred →
    t = { s with lrp := t.lrp } ∧ t.lrp.number = s.lrp.number + 1 ∧ t.lrp.payload = [] ∧ t.lrp.clamped = false)
  ∧ ∀ (s : State), s.listens →
    (∀ c command n rest, fixedLength c = some (command, n, rest) →
      (∀ len payload, rest = len :: payload → len.toNat = n → payload.length ≠ n) →
      exec c s = .next (s.answered (rest.length + 1) command .badLength false []))
    ∧ (∀ rest, (∀ len payload, rest = len :: payload → payload.length = len.toNat → 8 ≤ payload.length →
          ∀ presence, payload[7]? = some presence →
            payload.length ≠ 8 + (presence.getLsbD 0).toNat + (presence.getLsbD 1).toNat + 2 * (presence.toNat / 16)) →
        exec (.submit rest) s = .next (s.answered (rest.length + 1) 32 .badLength false []))

/-- R159, R183, R188: what the pins carry names the row that was sent, for every command and every payload: data-in is sampled at the rising
edges of the clock while chip select is low, bytes come most significant bit first, and a partial byte at the end is discarded. -/
def Obligations.PinsCarryTheirCommand : Prop :=
  (∀ bits : List Bool, transactionBits (spiLevels bits) = bits)
  ∧ (∀ (c : Instr) (strap : BitVec 3) (bytes : List Byte) (partialByte : List Bool), c.wellFormed = true →
      encodeTransaction c = some bytes → partialByte.length < 8 → (∀ rest other, c = .start rest other → strap = other) →
      decodePins strap (spiLevels (bitsOf bytes ++ partialByte)) = c)
  ∧ (∀ (strap : BitVec 3) (rest : List Byte) (partialByte : List Bool), partialByte.length < 8 →
      decodePins strap (spiLevels (bitsOf (1 :: rest) ++ partialByte)) = .readResponse rest.length)
  ∧ ∀ (strap : BitVec 3) (bits : List Bool), bits.length < 8 → decodePins strap (spiLevels bits) = .ignoredTransaction bits

/-! ## Laws that every step keeps -/

/-- Every law of this section holds in the state right after reset. -/
def Obligations.LawsHoldAtReset : Prop :=
  State.reset.sized ∧ State.reset.bounded ∧ State.reset.directoryLaw ∧ State.reset.slotLaw ∧ State.reset.intentLaw
    ∧ State.reset.lineLaw ∧ State.reset.valuesInRange ∧ State.reset.totalsBelowCeilings ∧ State.reset.psr.working.inRange
    ∧ State.reset.tdbLaw ∧ State.reset.pathLaw

/-- R6, R7, R9, R74, R77, R86, R131 and the table sizes of R19, R95, R175: every step keeps every table at its size and every queue within its
bound, with at most one CLAIM and one REPORT queued; it keeps the entries of a peer-intent table apart in unique ID and intent id, and dirty
set while an epoch is pending. -/
def Obligations.StepKeepsTablesAndQueues : Prop :=
  (∀ s t : State, s.sized → step s = .next t → t.sized) ∧ (∀ s t : State, s.bounded → step s = .next t → t.bounded)
    ∧ ∀ s t : State, s.tdbLaw → step s = .next t → t.tdbLaw

/-- R19: every step keeps the directory a map one to one, with the own entry under the own number in MEMBER alone. -/
def Obligations.StepKeepsTheDirectoryLaw : Prop :=
  ∀ s t : State, s.sized → s.directoryLaw → step s = .next t → t.directoryLaw

/-- R97, R99, R123: every step keeps the tags distinct, the request queue equal to the QUEUED slots, and at most one slot RUNNING. -/
def Obligations.StepKeepsTheSlotLaw : Prop :=
  ∀ s t : State, s.sized → s.slotLaw → step s = .next t → t.slotLaw

/-- R95: every step keeps the paths of FOUND and INVALID slots lawful, 1 to 16 hops that lead from the source to the destination and visit no
station twice, with the label table of the search that runs lawful too (R124, R130, R134 to R138, R141). -/
def Obligations.StepKeepsThePathLaw : Prop :=
  ∀ s t : State, s.pathLaw → step s = .next t → t.pathLaw

/-- R145, R147: every step keeps standing intents apart, on slots that hold a path, and in MEMBER alone. -/
def Obligations.StepKeepsTheIntentLaw : Prop :=
  ∀ s t : State, s.intentLaw → step s = .next t → t.intentLaw

/-- R14, R16, R36: every step keeps the lines silent when they must be. -/
def Obligations.StepKeepsTheLineLaw : Prop :=
  ∀ s t : State, s.lineLaw → step s = .next t → t.lineLaw

/-- R72, R92, R112, R117, R178: every step keeps every held value in its range and every total at or below its ceiling. -/
def Obligations.StepKeepsValuesInRange : Prop :=
  (∀ s t : State, s.valuesInRange → step s = .next t → t.valuesInRange)
    ∧ (∀ s t : State, s.totalsBelowCeilings → step s = .next t → t.totalsBelowCeilings)
    ∧ ∀ s t : State, s.psr.working.inRange → step s = .next t → t.psr.working.inRange

/-- 00 Blocks of the part, spec/95: a row writes no block but those its rules name (`rowWrites`); the queue is written by no row. -/
def Obligations.RowsWriteOnlyTheirBlocks : Prop :=
  ∀ (c : Instr) (s t : State) (b : Block), exec c s = .next t → b ∉ rowWrites c → s.agree t b

/-- R89, R100, R175, R180: store words change at the store-busy expiry alone, and by the word in progress alone. The active view changes at the
rows that can transfer or reset, and at no other; while a slot is RUNNING before and after a row, the view its search reads stands still. -/
def Obligations.StoreAndActiveViewStandStill : Prop :=
  (∀ (c : Instr) (s t : State), exec c s = .next t →
    (c ≠ .storeBusyExpiry → t.psr.store = s.psr.store)
    ∧ ∀ k, t.psr.store[k]? ≠ s.psr.store[k]? → ∃ w, s.psr.busy = some w ∧ w.word = k)
  ∧ (∀ (c : Instr) (s t : State), exec c s = .next t → c ≠ .epochTimerExpiry → (∀ rest, c ≠ .forceEpoch rest) → c ≠ .settlement →
    (∀ rest, c ≠ .cancel rest) → c ≠ .epochTransferEnd → c ≠ .deviceReset → (∀ rest, c ≠ .restart rest) → s.sameView t)
  ∧ (∀ (c : Instr) (s t : State) (i : Nat) (j : Job) (ep : BitVec 16), s.sized → s.slotLaw → exec c s = .next t →
      s.slotState i = some (.running j ep) → t.slotState i = some (.running j ep) → s.sameView t)
end

