-- ==== Sys2Proof/Laws/State.lean ====
section
/-! SUPPORT. One lemma per field, and per value read from a field, for every named update of the state: each is true by `rfl`. -/

namespace Sys2Proof.Machine

@[simp] theorem raise_pending (i : Indication) (s : State) : (raise i s).pending = s.pending := rfl
@[simp] theorem raise_inReset (i : Indication) (s : State) : (raise i s).inReset = s.inReset := rfl
@[simp] theorem raise_scr (i : Indication) (s : State) : (raise i s).scr = s.scr := rfl
@[simp] theorem raise_sct (i : Indication) (s : State) : (raise i s).sct = s.sct := rfl
@[simp] theorem raise_pins (i : Indication) (s : State) : (raise i s).pins = s.pins := rfl
@[simp] theorem raise_dir (i : Indication) (s : State) : (raise i s).dir = s.dir := rfl
@[simp] theorem raise_degrees (i : Indication) (s : State) : (raise i s).degrees = s.degrees := rfl
@[simp] theorem raise_spm (i : Indication) (s : State) : (raise i s).spm = s.spm := rfl
@[simp] theorem raise_org (i : Indication) (s : State) : (raise i s).org = s.org := rfl
@[simp] theorem raise_tdb (i : Indication) (s : State) : (raise i s).tdb = s.tdb := rfl
@[simp] theorem raise_slots (i : Indication) (s : State) : (raise i s).slots = s.slots := rfl
@[simp] theorem raise_reqQueue (i : Indication) (s : State) : (raise i s).reqQueue = s.reqQueue := rfl
@[simp] theorem raise_pen (i : Indication) (s : State) : (raise i s).pen = s.pen := rfl
@[simp] theorem raise_lrp (i : Indication) (s : State) : (raise i s).lrp = s.lrp := rfl
@[simp] theorem raise_psr (i : Indication) (s : State) : (raise i s).psr = s.psr := rfl
@[simp] theorem raise_ownUid (i : Indication) (s : State) : (raise i s).ownUid = s.ownUid := rfl
@[simp] theorem raise_ownNumber (i : Indication) (s : State) : (raise i s).ownNumber = s.ownNumber := rfl
@[simp] theorem raise_impaired (i : Indication) (s : State) : (raise i s).impaired = s.impaired := rfl
@[simp] theorem raise_transmits (i : Indication) (s : State) : (raise i s).transmits = s.transmits := rfl
@[simp] theorem raise_active (i : Indication) (s : State) : (raise i s).active = s.active := rfl
@[simp] theorem raise_beingTaken (i : Indication) (s : State) : (raise i s).beingTaken = s.beingTaken := rfl
@[simp] theorem raise_anyRunning (i : Indication) (s : State) : (raise i s).anyRunning = s.anyRunning := rfl
@[simp] theorem raise_slot (i : Indication) (s : State) (k : Nat) : (raise i s).slot k = s.slot k := rfl
@[simp] theorem raise_slotState (i : Indication) (s : State) (k : Nat) : (raise i s).slotState k = s.slotState k := rfl
@[simp] theorem raise_entry (i : Indication) (s : State) (k : Nat) : (raise i s).entry k = s.entry k := rfl
@[simp] theorem raise_numberOf (i : Indication) (s : State) (k : Uid) : (raise i s).numberOf k = s.numberOf k := rfl
@[simp] theorem raise_lolLevel (i : Indication) (s : State) (k : Nat) : (raise i s).lolLevel k = s.lolLevel k := rfl
@[simp] theorem raise_classOf (i : Indication) (s : State) (k : Nat) : (raise i s).classOf k = s.classOf k := rfl
@[simp] theorem raise_monitorParams (i : Indication) (s : State) (k : Nat) : (raise i s).monitorParams k = s.monitorParams k := rfl
@[simp] theorem raise_otherIntentPairs (i : Indication) (s : State) (k : Nat) : (raise i s).otherIntentPairs k = s.otherIntentPairs k := rfl
@[simp] theorem raise_intentPeriod (i : Indication) (s : State) : (raise i s).intentPeriod = s.intentPeriod := rfl

@[simp] theorem respond_pending (c : Byte) (st : Status) (cl : Bool) (p : List Byte) (s : State) : (respond c st cl p s).pending = s.pending := rfl
@[simp] theorem respond_inReset (c : Byte) (st : Status) (cl : Bool) (p : List Byte) (s : State) : (respond c st cl p s).inReset = s.inReset := rfl
@[simp] theorem respond_scr (c : Byte) (st : Status) (cl : Bool) (p : List Byte) (s : State) : (respond c st cl p s).scr = s.scr := rfl
@[simp] theorem respond_sct (c : Byte) (st : Status) (cl : Bool) (p : List Byte) (s : State) : (respond c st cl p s).sct = s.sct := rfl
@[simp] theorem respond_pins (c : Byte) (st : Status) (cl : Bool) (p : List Byte) (s : State) : (respond c st cl p s).pins = s.pins := rfl
@[simp] theorem respond_dir (c : Byte) (st : Status) (cl : Bool) (p : List Byte) (s : State) : (respond c st cl p s).dir = s.dir := rfl
@[simp] theorem respond_degrees (c : Byte) (st : Status) (cl : Bool) (p : List Byte) (s : State) : (respond c st cl p s).degrees = s.degrees := rfl
@[simp] theorem respond_spm (c : Byte) (st : Status) (cl : Bool) (p : List Byte) (s : State) : (respond c st cl p s).spm = s.spm := rfl
@[simp] theorem respond_org (c : Byte) (st : Status) (cl : Bool) (p : List Byte) (s : State) : (respond c st cl p s).org = s.org := rfl
@[simp] theorem respond_tdb (c : Byte) (st : Status) (cl : Bool) (p : List Byte) (s : State) : (respond c st cl p s).tdb = s.tdb := rfl
@[simp] theorem respond_slots (c : Byte) (st : Status) (cl : Bool) (p : List Byte) (s : State) : (respond c st cl p s).slots = s.slots := rfl
@[simp] theorem respond_reqQueue (c : Byte) (st : Status) (cl : Bool) (p : List Byte) (s : State) : (respond c st cl p s).reqQueue = s.reqQueue := rfl
@[simp] theorem respond_pen (c : Byte) (st : Status) (cl : Bool) (p : List Byte) (s : State) : (respond c st cl p s).pen = s.pen := rfl
@[simp] theorem respond_ntf (c : Byte) (st : Status) (cl : Bool) (p : List Byte) (s : State) : (respond c st cl p s).ntf = s.ntf := rfl
@[simp] theorem respond_psr (c : Byte) (st : Status) (cl : Bool) (p : List Byte) (s : State) : (respond c st cl p s).psr = s.psr := rfl
@[simp] theorem respond_ownUid (c : Byte) (st : Status) (cl : Bool) (p : List Byte) (s : State) : (respond c st cl p s).ownUid = s.ownUid := rfl
@[simp] theorem respond_ownNumber (c : Byte) (st : Status) (cl : Bool) (p : List Byte) (s : State) : (respond c st cl p s).ownNumber = s.ownNumber := rfl
@[simp] theorem respond_impaired (c : Byte) (st : Status) (cl : Bool) (p : List Byte) (s : State) : (respond c st cl p s).impaired = s.impaired := rfl
@[simp] theorem respond_transmits (c : Byte) (st : Status) (cl : Bool) (p : List Byte) (s : State) : (respond c st cl p s).transmits = s.transmits := rfl
@[simp] theorem respond_active (c : Byte) (st : Status) (cl : Bool) (p : List Byte) (s : State) : (respond c st cl p s).active = s.active := rfl
@[simp] theorem respond_notify (c : Byte) (st : Status) (cl : Bool) (p : List Byte) (s : State) : (respond c st cl p s).notify = s.notify := rfl
@[simp] theorem respond_anyRunning (c : Byte) (st : Status) (cl : Bool) (p : List Byte) (s : State) : (respond c st cl p s).anyRunning = s.anyRunning := rfl
@[simp] theorem respond_slot (c : Byte) (st : Status) (cl : Bool) (p : List Byte) (s : State) (k : Nat) : (respond c st cl p s).slot k = s.slot k := rfl
@[simp] theorem respond_slotState (c : Byte) (st : Status) (cl : Bool) (p : List Byte) (s : State) (k : Nat) : (respond c st cl p s).slotState k = s.slotState k := rfl
@[simp] theorem respond_entry (c : Byte) (st : Status) (cl : Bool) (p : List Byte) (s : State) (k : Nat) : (respond c st cl p s).entry k = s.entry k := rfl
@[simp] theorem respond_numberOf (c : Byte) (st : Status) (cl : Bool) (p : List Byte) (s : State) (k : Uid) : (respond c st cl p s).numberOf k = s.numberOf k := rfl
@[simp] theorem respond_lolLevel (c : Byte) (st : Status) (cl : Bool) (p : List Byte) (s : State) (k : Nat) : (respond c st cl p s).lolLevel k = s.lolLevel k := rfl
@[simp] theorem respond_classOf (c : Byte) (st : Status) (cl : Bool) (p : List Byte) (s : State) (k : Nat) : (respond c st cl p s).classOf k = s.classOf k := rfl
@[simp] theorem respond_monitorParams (c : Byte) (st : Status) (cl : Bool) (p : List Byte) (s : State) (k : Nat) : (respond c st cl p s).monitorParams k = s.monitorParams k := rfl
@[simp] theorem respond_otherIntentPairs (c : Byte) (st : Status) (cl : Bool) (p : List Byte) (s : State) (k : Nat) : (respond c st cl p s).otherIntentPairs k = s.otherIntentPairs k := rfl
@[simp] theorem respond_intentPeriod (c : Byte) (st : Status) (cl : Bool) (p : List Byte) (s : State) : (respond c st cl p s).intentPeriod = s.intentPeriod := rfl

@[simp] theorem respondOk_pending (c : Byte) (p : List Byte) (s : State) : (respondOk c p s).pending = s.pending := rfl
@[simp] theorem respondOk_inReset (c : Byte) (p : List Byte) (s : State) : (respondOk c p s).inReset = s.inReset := rfl
@[simp] theorem respondOk_scr (c : Byte) (p : List Byte) (s : State) : (respondOk c p s).scr = s.scr := rfl
@[simp] theorem respondOk_sct (c : Byte) (p : List Byte) (s : State) : (respondOk c p s).sct = s.sct := rfl
@[simp] theorem respondOk_pins (c : Byte) (p : List Byte) (s : State) : (respondOk c p s).pins = s.pins := rfl
@[simp] theorem respondOk_dir (c : Byte) (p : List Byte) (s : State) : (respondOk c p s).dir = s.dir := rfl
@[simp] theorem respondOk_degrees (c : Byte) (p : List Byte) (s : State) : (respondOk c p s).degrees = s.degrees := rfl
@[simp] theorem respondOk_spm (c : Byte) (p : List Byte) (s : State) : (respondOk c p s).spm = s.spm := rfl
@[simp] theorem respondOk_org (c : Byte) (p : List Byte) (s : State) : (respondOk c p s).org = s.org := rfl
@[simp] theorem respondOk_tdb (c : Byte) (p : List Byte) (s : State) : (respondOk c p s).tdb = s.tdb := rfl
@[simp] theorem respondOk_slots (c : Byte) (p : List Byte) (s : State) : (respondOk c p s).slots = s.slots := rfl
@[simp] theorem respondOk_reqQueue (c : Byte) (p : List Byte) (s : State) : (respondOk c p s).reqQueue = s.reqQueue := rfl
@[simp] theorem respondOk_pen (c : Byte) (p : List Byte) (s : State) : (respondOk c p s).pen = s.pen := rfl
@[simp] theorem respondOk_ntf (c : Byte) (p : List Byte) (s : State) : (respondOk c p s).ntf = s.ntf := rfl
@[simp] theorem respondOk_psr (c : Byte) (p : List Byte) (s : State) : (respondOk c p s).psr = s.psr := rfl
@[simp] theorem respondOk_ownUid (c : Byte) (p : List Byte) (s : State) : (respondOk c p s).ownUid = s.ownUid := rfl
@[simp] theorem respondOk_ownNumber (c : Byte) (p : List Byte) (s : State) : (respondOk c p s).ownNumber = s.ownNumber := rfl
@[simp] theorem respondOk_impaired (c : Byte) (p : List Byte) (s : State) : (respondOk c p s).impaired = s.impaired := rfl
@[simp] theorem respondOk_transmits (c : Byte) (p : List Byte) (s : State) : (respondOk c p s).transmits = s.transmits := rfl
@[simp] theorem respondOk_active (c : Byte) (p : List Byte) (s : State) : (respondOk c p s).active = s.active := rfl
@[simp] theorem respondOk_notify (c : Byte) (p : List Byte) (s : State) : (respondOk c p s).notify = s.notify := rfl
@[simp] theorem respondOk_anyRunning (c : Byte) (p : List Byte) (s : State) : (respondOk c p s).anyRunning = s.anyRunning := rfl
@[simp] theorem respondOk_slot (c : Byte) (p : List Byte) (s : State) (k : Nat) : (respondOk c p s).slot k = s.slot k := rfl
@[simp] theorem respondOk_slotState (c : Byte) (p : List Byte) (s : State) (k : Nat) : (respondOk c p s).slotState k = s.slotState k := rfl
@[simp] theorem respondOk_entry (c : Byte) (p : List Byte) (s : State) (k : Nat) : (respondOk c p s).entry k = s.entry k := rfl
@[simp] theorem respondOk_numberOf (c : Byte) (p : List Byte) (s : State) (k : Uid) : (respondOk c p s).numberOf k = s.numberOf k := rfl
@[simp] theorem respondOk_lolLevel (c : Byte) (p : List Byte) (s : State) (k : Nat) : (respondOk c p s).lolLevel k = s.lolLevel k := rfl
@[simp] theorem respondOk_classOf (c : Byte) (p : List Byte) (s : State) (k : Nat) : (respondOk c p s).classOf k = s.classOf k := rfl
@[simp] theorem respondOk_monitorParams (c : Byte) (p : List Byte) (s : State) (k : Nat) : (respondOk c p s).monitorParams k = s.monitorParams k := rfl
@[simp] theorem respondOk_otherIntentPairs (c : Byte) (p : List Byte) (s : State) (k : Nat) : (respondOk c p s).otherIntentPairs k = s.otherIntentPairs k := rfl
@[simp] theorem respondOk_intentPeriod (c : Byte) (p : List Byte) (s : State) : (respondOk c p s).intentPeriod = s.intentPeriod := rfl

@[simp] theorem refuse_pending (c : Byte) (st : Status) (s : State) : (refuse c st s).pending = s.pending := rfl
@[simp] theorem refuse_inReset (c : Byte) (st : Status) (s : State) : (refuse c st s).inReset = s.inReset := rfl
@[simp] theorem refuse_scr (c : Byte) (st : Status) (s : State) : (refuse c st s).scr = s.scr := rfl
@[simp] theorem refuse_sct (c : Byte) (st : Status) (s : State) : (refuse c st s).sct = s.sct := rfl
@[simp] theorem refuse_pins (c : Byte) (st : Status) (s : State) : (refuse c st s).pins = s.pins := rfl
@[simp] theorem refuse_dir (c : Byte) (st : Status) (s : State) : (refuse c st s).dir = s.dir := rfl
@[simp] theorem refuse_degrees (c : Byte) (st : Status) (s : State) : (refuse c st s).degrees = s.degrees := rfl
@[simp] theorem refuse_spm (c : Byte) (st : Status) (s : State) : (refuse c st s).spm = s.spm := rfl
@[simp] theorem refuse_org (c : Byte) (st : Status) (s : State) : (refuse c st s).org = s.org := rfl
@[simp] theorem refuse_tdb (c : Byte) (st : Status) (s : State) : (refuse c st s).tdb = s.tdb := rfl
@[simp] theorem refuse_slots (c : Byte) (st : Status) (s : State) : (refuse c st s).slots = s.slots := rfl
@[simp] theorem refuse_reqQueue (c : Byte) (st : Status) (s : State) : (refuse c st s).reqQueue = s.reqQueue := rfl
@[simp] theorem refuse_pen (c : Byte) (st : Status) (s : State) : (refuse c st s).pen = s.pen := rfl
@[simp] theorem refuse_ntf (c : Byte) (st : Status) (s : State) : (refuse c st s).ntf = s.ntf := rfl
@[simp] theorem refuse_psr (c : Byte) (st : Status) (s : State) : (refuse c st s).psr = s.psr := rfl
@[simp] theorem refuse_ownUid (c : Byte) (st : Status) (s : State) : (refuse c st s).ownUid = s.ownUid := rfl
@[simp] theorem refuse_ownNumber (c : Byte) (st : Status) (s : State) : (refuse c st s).ownNumber = s.ownNumber := rfl
@[simp] theorem refuse_impaired (c : Byte) (st : Status) (s : State) : (refuse c st s).impaired = s.impaired := rfl
@[simp] theorem refuse_transmits (c : Byte) (st : Status) (s : State) : (refuse c st s).transmits = s.transmits := rfl
@[simp] theorem refuse_active (c : Byte) (st : Status) (s : State) : (refuse c st s).active = s.active := rfl
@[simp] theorem refuse_notify (c : Byte) (st : Status) (s : State) : (refuse c st s).notify = s.notify := rfl
@[simp] theorem refuse_anyRunning (c : Byte) (st : Status) (s : State) : (refuse c st s).anyRunning = s.anyRunning := rfl
@[simp] theorem refuse_slot (c : Byte) (st : Status) (s : State) (k : Nat) : (refuse c st s).slot k = s.slot k := rfl
@[simp] theorem refuse_slotState (c : Byte) (st : Status) (s : State) (k : Nat) : (refuse c st s).slotState k = s.slotState k := rfl
@[simp] theorem refuse_entry (c : Byte) (st : Status) (s : State) (k : Nat) : (refuse c st s).entry k = s.entry k := rfl
@[simp] theorem refuse_numberOf (c : Byte) (st : Status) (s : State) (k : Uid) : (refuse c st s).numberOf k = s.numberOf k := rfl
@[simp] theorem refuse_lolLevel (c : Byte) (st : Status) (s : State) (k : Nat) : (refuse c st s).lolLevel k = s.lolLevel k := rfl
@[simp] theorem refuse_classOf (c : Byte) (st : Status) (s : State) (k : Nat) : (refuse c st s).classOf k = s.classOf k := rfl
@[simp] theorem refuse_monitorParams (c : Byte) (st : Status) (s : State) (k : Nat) : (refuse c st s).monitorParams k = s.monitorParams k := rfl
@[simp] theorem refuse_otherIntentPairs (c : Byte) (st : Status) (s : State) (k : Nat) : (refuse c st s).otherIntentPairs k = s.otherIntentPairs k := rfl
@[simp] theorem refuse_intentPeriod (c : Byte) (st : Status) (s : State) : (refuse c st s).intentPeriod = s.intentPeriod := rfl

@[simp] theorem clockZeros_pending (n : Nat) (s : State) : (clockZeros n s).pending = s.pending := rfl
@[simp] theorem clockZeros_inReset (n : Nat) (s : State) : (clockZeros n s).inReset = s.inReset := rfl
@[simp] theorem clockZeros_scr (n : Nat) (s : State) : (clockZeros n s).scr = s.scr := rfl
@[simp] theorem clockZeros_sct (n : Nat) (s : State) : (clockZeros n s).sct = s.sct := rfl
@[simp] theorem clockZeros_pins (n : Nat) (s : State) : (clockZeros n s).pins = s.pins := rfl
@[simp] theorem clockZeros_dir (n : Nat) (s : State) : (clockZeros n s).dir = s.dir := rfl
@[simp] theorem clockZeros_degrees (n : Nat) (s : State) : (clockZeros n s).degrees = s.degrees := rfl
@[simp] theorem clockZeros_spm (n : Nat) (s : State) : (clockZeros n s).spm = s.spm := rfl
@[simp] theorem clockZeros_org (n : Nat) (s : State) : (clockZeros n s).org = s.org := rfl
@[simp] theorem clockZeros_tdb (n : Nat) (s : State) : (clockZeros n s).tdb = s.tdb := rfl
@[simp] theorem clockZeros_slots (n : Nat) (s : State) : (clockZeros n s).slots = s.slots := rfl
@[simp] theorem clockZeros_reqQueue (n : Nat) (s : State) : (clockZeros n s).reqQueue = s.reqQueue := rfl
@[simp] theorem clockZeros_pen (n : Nat) (s : State) : (clockZeros n s).pen = s.pen := rfl
@[simp] theorem clockZeros_ntf (n : Nat) (s : State) : (clockZeros n s).ntf = s.ntf := rfl
@[simp] theorem clockZeros_psr (n : Nat) (s : State) : (clockZeros n s).psr = s.psr := rfl
@[simp] theorem clockZeros_ownUid (n : Nat) (s : State) : (clockZeros n s).ownUid = s.ownUid := rfl
@[simp] theorem clockZeros_ownNumber (n : Nat) (s : State) : (clockZeros n s).ownNumber = s.ownNumber := rfl
@[simp] theorem clockZeros_impaired (n : Nat) (s : State) : (clockZeros n s).impaired = s.impaired := rfl
@[simp] theorem clockZeros_transmits (n : Nat) (s : State) : (clockZeros n s).transmits = s.transmits := rfl
@[simp] theorem clockZeros_active (n : Nat) (s : State) : (clockZeros n s).active = s.active := rfl
@[simp] theorem clockZeros_notify (n : Nat) (s : State) : (clockZeros n s).notify = s.notify := rfl
@[simp] theorem clockZeros_anyRunning (n : Nat) (s : State) : (clockZeros n s).anyRunning = s.anyRunning := rfl
@[simp] theorem clockZeros_slot (n : Nat) (s : State) (k : Nat) : (clockZeros n s).slot k = s.slot k := rfl
@[simp] theorem clockZeros_slotState (n : Nat) (s : State) (k : Nat) : (clockZeros n s).slotState k = s.slotState k := rfl
@[simp] theorem clockZeros_entry (n : Nat) (s : State) (k : Nat) : (clockZeros n s).entry k = s.entry k := rfl
@[simp] theorem clockZeros_numberOf (n : Nat) (s : State) (k : Uid) : (clockZeros n s).numberOf k = s.numberOf k := rfl
@[simp] theorem clockZeros_lolLevel (n : Nat) (s : State) (k : Nat) : (clockZeros n s).lolLevel k = s.lolLevel k := rfl
@[simp] theorem clockZeros_classOf (n : Nat) (s : State) (k : Nat) : (clockZeros n s).classOf k = s.classOf k := rfl
@[simp] theorem clockZeros_monitorParams (n : Nat) (s : State) (k : Nat) : (clockZeros n s).monitorParams k = s.monitorParams k := rfl
@[simp] theorem clockZeros_otherIntentPairs (n : Nat) (s : State) (k : Nat) : (clockZeros n s).otherIntentPairs k = s.otherIntentPairs k := rfl
@[simp] theorem clockZeros_intentPeriod (n : Nat) (s : State) : (clockZeros n s).intentPeriod = s.intentPeriod := rfl

@[simp] theorem ignore_pending (s : State) : (ignore s).pending = s.pending := rfl
@[simp] theorem ignore_inReset (s : State) : (ignore s).inReset = s.inReset := rfl
@[simp] theorem ignore_scr (s : State) : (ignore s).scr = s.scr := rfl
@[simp] theorem ignore_sct (s : State) : (ignore s).sct = s.sct := rfl
@[simp] theorem ignore_pins (s : State) : (ignore s).pins = s.pins := rfl
@[simp] theorem ignore_dir (s : State) : (ignore s).dir = s.dir := rfl
@[simp] theorem ignore_degrees (s : State) : (ignore s).degrees = s.degrees := rfl
@[simp] theorem ignore_spm (s : State) : (ignore s).spm = s.spm := rfl
@[simp] theorem ignore_org (s : State) : (ignore s).org = s.org := rfl
@[simp] theorem ignore_tdb (s : State) : (ignore s).tdb = s.tdb := rfl
@[simp] theorem ignore_slots (s : State) : (ignore s).slots = s.slots := rfl
@[simp] theorem ignore_reqQueue (s : State) : (ignore s).reqQueue = s.reqQueue := rfl
@[simp] theorem ignore_pen (s : State) : (ignore s).pen = s.pen := rfl
@[simp] theorem ignore_ntf (s : State) : (ignore s).ntf = s.ntf := rfl
@[simp] theorem ignore_psr (s : State) : (ignore s).psr = s.psr := rfl
@[simp] theorem ignore_ownUid (s : State) : (ignore s).ownUid = s.ownUid := rfl
@[simp] theorem ignore_ownNumber (s : State) : (ignore s).ownNumber = s.ownNumber := rfl
@[simp] theorem ignore_impaired (s : State) : (ignore s).impaired = s.impaired := rfl
@[simp] theorem ignore_transmits (s : State) : (ignore s).transmits = s.transmits := rfl
@[simp] theorem ignore_active (s : State) : (ignore s).active = s.active := rfl
@[simp] theorem ignore_notify (s : State) : (ignore s).notify = s.notify := rfl
@[simp] theorem ignore_anyRunning (s : State) : (ignore s).anyRunning = s.anyRunning := rfl
@[simp] theorem ignore_slot (s : State) (k : Nat) : (ignore s).slot k = s.slot k := rfl
@[simp] theorem ignore_slotState (s : State) (k : Nat) : (ignore s).slotState k = s.slotState k := rfl
@[simp] theorem ignore_entry (s : State) (k : Nat) : (ignore s).entry k = s.entry k := rfl
@[simp] theorem ignore_numberOf (s : State) (k : Uid) : (ignore s).numberOf k = s.numberOf k := rfl
@[simp] theorem ignore_lolLevel (s : State) (k : Nat) : (ignore s).lolLevel k = s.lolLevel k := rfl
@[simp] theorem ignore_classOf (s : State) (k : Nat) : (ignore s).classOf k = s.classOf k := rfl
@[simp] theorem ignore_monitorParams (s : State) (k : Nat) : (ignore s).monitorParams k = s.monitorParams k := rfl
@[simp] theorem ignore_otherIntentPairs (s : State) (k : Nat) : (ignore s).otherIntentPairs k = s.otherIntentPairs k := rfl
@[simp] theorem ignore_intentPeriod (s : State) : (ignore s).intentPeriod = s.intentPeriod := rfl

@[simp] theorem sendOut_pending (b : List Byte) (s : State) : (sendOut b s).pending = s.pending := rfl
@[simp] theorem sendOut_inReset (b : List Byte) (s : State) : (sendOut b s).inReset = s.inReset := rfl
@[simp] theorem sendOut_scr (b : List Byte) (s : State) : (sendOut b s).scr = s.scr := rfl
@[simp] theorem sendOut_sct (b : List Byte) (s : State) : (sendOut b s).sct = s.sct := rfl
@[simp] theorem sendOut_pins (b : List Byte) (s : State) : (sendOut b s).pins = s.pins := rfl
@[simp] theorem sendOut_dir (b : List Byte) (s : State) : (sendOut b s).dir = s.dir := rfl
@[simp] theorem sendOut_degrees (b : List Byte) (s : State) : (sendOut b s).degrees = s.degrees := rfl
@[simp] theorem sendOut_spm (b : List Byte) (s : State) : (sendOut b s).spm = s.spm := rfl
@[simp] theorem sendOut_org (b : List Byte) (s : State) : (sendOut b s).org = s.org := rfl
@[simp] theorem sendOut_tdb (b : List Byte) (s : State) : (sendOut b s).tdb = s.tdb := rfl
@[simp] theorem sendOut_slots (b : List Byte) (s : State) : (sendOut b s).slots = s.slots := rfl
@[simp] theorem sendOut_reqQueue (b : List Byte) (s : State) : (sendOut b s).reqQueue = s.reqQueue := rfl
@[simp] theorem sendOut_pen (b : List Byte) (s : State) : (sendOut b s).pen = s.pen := rfl
@[simp] theorem sendOut_ntf (b : List Byte) (s : State) : (sendOut b s).ntf = s.ntf := rfl
@[simp] theorem sendOut_psr (b : List Byte) (s : State) : (sendOut b s).psr = s.psr := rfl
@[simp] theorem sendOut_ownUid (b : List Byte) (s : State) : (sendOut b s).ownUid = s.ownUid := rfl
@[simp] theorem sendOut_ownNumber (b : List Byte) (s : State) : (sendOut b s).ownNumber = s.ownNumber := rfl
@[simp] theorem sendOut_impaired (b : List Byte) (s : State) : (sendOut b s).impaired = s.impaired := rfl
@[simp] theorem sendOut_transmits (b : List Byte) (s : State) : (sendOut b s).transmits = s.transmits := rfl
@[simp] theorem sendOut_active (b : List Byte) (s : State) : (sendOut b s).active = s.active := rfl
@[simp] theorem sendOut_notify (b : List Byte) (s : State) : (sendOut b s).notify = s.notify := rfl
@[simp] theorem sendOut_anyRunning (b : List Byte) (s : State) : (sendOut b s).anyRunning = s.anyRunning := rfl
@[simp] theorem sendOut_slot (b : List Byte) (s : State) (k : Nat) : (sendOut b s).slot k = s.slot k := rfl
@[simp] theorem sendOut_slotState (b : List Byte) (s : State) (k : Nat) : (sendOut b s).slotState k = s.slotState k := rfl
@[simp] theorem sendOut_entry (b : List Byte) (s : State) (k : Nat) : (sendOut b s).entry k = s.entry k := rfl
@[simp] theorem sendOut_numberOf (b : List Byte) (s : State) (k : Uid) : (sendOut b s).numberOf k = s.numberOf k := rfl
@[simp] theorem sendOut_lolLevel (b : List Byte) (s : State) (k : Nat) : (sendOut b s).lolLevel k = s.lolLevel k := rfl
@[simp] theorem sendOut_classOf (b : List Byte) (s : State) (k : Nat) : (sendOut b s).classOf k = s.classOf k := rfl
@[simp] theorem sendOut_monitorParams (b : List Byte) (s : State) (k : Nat) : (sendOut b s).monitorParams k = s.monitorParams k := rfl
@[simp] theorem sendOut_otherIntentPairs (b : List Byte) (s : State) (k : Nat) : (sendOut b s).otherIntentPairs k = s.otherIntentPairs k := rfl
@[simp] theorem sendOut_intentPeriod (b : List Byte) (s : State) : (sendOut b s).intentPeriod = s.intentPeriod := rfl

@[simp] theorem setSlotState_pending (i : Nat) (st : SlotState) (s : State) : (setSlotState i st s).pending = s.pending := rfl
@[simp] theorem setSlotState_inReset (i : Nat) (st : SlotState) (s : State) : (setSlotState i st s).inReset = s.inReset := rfl
@[simp] theorem setSlotState_scr (i : Nat) (st : SlotState) (s : State) : (setSlotState i st s).scr = s.scr := rfl
@[simp] theorem setSlotState_sct (i : Nat) (st : SlotState) (s : State) : (setSlotState i st s).sct = s.sct := rfl
@[simp] theorem setSlotState_pins (i : Nat) (st : SlotState) (s : State) : (setSlotState i st s).pins = s.pins := rfl
@[simp] theorem setSlotState_dir (i : Nat) (st : SlotState) (s : State) : (setSlotState i st s).dir = s.dir := rfl
@[simp] theorem setSlotState_degrees (i : Nat) (st : SlotState) (s : State) : (setSlotState i st s).degrees = s.degrees := rfl
@[simp] theorem setSlotState_spm (i : Nat) (st : SlotState) (s : State) : (setSlotState i st s).spm = s.spm := rfl
@[simp] theorem setSlotState_org (i : Nat) (st : SlotState) (s : State) : (setSlotState i st s).org = s.org := rfl
@[simp] theorem setSlotState_tdb (i : Nat) (st : SlotState) (s : State) : (setSlotState i st s).tdb = s.tdb := rfl
@[simp] theorem setSlotState_reqQueue (i : Nat) (st : SlotState) (s : State) : (setSlotState i st s).reqQueue = s.reqQueue := rfl
@[simp] theorem setSlotState_pen (i : Nat) (st : SlotState) (s : State) : (setSlotState i st s).pen = s.pen := rfl
@[simp] theorem setSlotState_lrp (i : Nat) (st : SlotState) (s : State) : (setSlotState i st s).lrp = s.lrp := rfl
@[simp] theorem setSlotState_ntf (i : Nat) (st : SlotState) (s : State) : (setSlotState i st s).ntf = s.ntf := rfl
@[simp] theorem setSlotState_psr (i : Nat) (st : SlotState) (s : State) : (setSlotState i st s).psr = s.psr := rfl
@[simp] theorem setSlotState_ownUid (i : Nat) (st : SlotState) (s : State) : (setSlotState i st s).ownUid = s.ownUid := rfl
@[simp] theorem setSlotState_ownNumber (i : Nat) (st : SlotState) (s : State) : (setSlotState i st s).ownNumber = s.ownNumber := rfl
@[simp] theorem setSlotState_impaired (i : Nat) (st : SlotState) (s : State) : (setSlotState i st s).impaired = s.impaired := rfl
@[simp] theorem setSlotState_transmits (i : Nat) (st : SlotState) (s : State) : (setSlotState i st s).transmits = s.transmits := rfl
@[simp] theorem setSlotState_active (i : Nat) (st : SlotState) (s : State) : (setSlotState i st s).active = s.active := rfl
@[simp] theorem setSlotState_beingTaken (i : Nat) (st : SlotState) (s : State) : (setSlotState i st s).beingTaken = s.beingTaken := rfl
@[simp] theorem setSlotState_notify (i : Nat) (st : SlotState) (s : State) : (setSlotState i st s).notify = s.notify := rfl
@[simp] theorem setSlotState_entry (i : Nat) (st : SlotState) (s : State) (k : Nat) : (setSlotState i st s).entry k = s.entry k := rfl
@[simp] theorem setSlotState_numberOf (i : Nat) (st : SlotState) (s : State) (k : Uid) : (setSlotState i st s).numberOf k = s.numberOf k := rfl
@[simp] theorem setSlotState_lolLevel (i : Nat) (st : SlotState) (s : State) (k : Nat) : (setSlotState i st s).lolLevel k = s.lolLevel k := rfl
@[simp] theorem setSlotState_classOf (i : Nat) (st : SlotState) (s : State) (k : Nat) : (setSlotState i st s).classOf k = s.classOf k := rfl
@[simp] theorem setSlotState_monitorParams (i : Nat) (st : SlotState) (s : State) (k : Nat) : (setSlotState i st s).monitorParams k = s.monitorParams k := rfl
@[simp] theorem setSlotState_intentPeriod (i : Nat) (st : SlotState) (s : State) : (setSlotState i st s).intentPeriod = s.intentPeriod := rfl

@[simp] theorem setIntent_pending (i : Nat) (t : Intent) (s : State) : (setIntent i t s).pending = s.pending := rfl
@[simp] theorem setIntent_inReset (i : Nat) (t : Intent) (s : State) : (setIntent i t s).inReset = s.inReset := rfl
@[simp] theorem setIntent_scr (i : Nat) (t : Intent) (s : State) : (setIntent i t s).scr = s.scr := rfl
@[simp] theorem setIntent_sct (i : Nat) (t : Intent) (s : State) : (setIntent i t s).sct = s.sct := rfl
@[simp] theorem setIntent_pins (i : Nat) (t : Intent) (s : State) : (setIntent i t s).pins = s.pins := rfl
@[simp] theorem setIntent_dir (i : Nat) (t : Intent) (s : State) : (setIntent i t s).dir = s.dir := rfl
@[simp] theorem setIntent_degrees (i : Nat) (t : Intent) (s : State) : (setIntent i t s).degrees = s.degrees := rfl
@[simp] theorem setIntent_spm (i : Nat) (t : Intent) (s : State) : (setIntent i t s).spm = s.spm := rfl
@[simp] theorem setIntent_org (i : Nat) (t : Intent) (s : State) : (setIntent i t s).org = s.org := rfl
@[simp] theorem setIntent_tdb (i : Nat) (t : Intent) (s : State) : (setIntent i t s).tdb = s.tdb := rfl
@[simp] theorem setIntent_reqQueue (i : Nat) (t : Intent) (s : State) : (setIntent i t s).reqQueue = s.reqQueue := rfl
@[simp] theorem setIntent_pen (i : Nat) (t : Intent) (s : State) : (setIntent i t s).pen = s.pen := rfl
@[simp] theorem setIntent_lrp (i : Nat) (t : Intent) (s : State) : (setIntent i t s).lrp = s.lrp := rfl
@[simp] theorem setIntent_ntf (i : Nat) (t : Intent) (s : State) : (setIntent i t s).ntf = s.ntf := rfl
@[simp] theorem setIntent_psr (i : Nat) (t : Intent) (s : State) : (setIntent i t s).psr = s.psr := rfl
@[simp] theorem setIntent_ownUid (i : Nat) (t : Intent) (s : State) : (setIntent i t s).ownUid = s.ownUid := rfl
@[simp] theorem setIntent_ownNumber (i : Nat) (t : Intent) (s : State) : (setIntent i t s).ownNumber = s.ownNumber := rfl
@[simp] theorem setIntent_impaired (i : Nat) (t : Intent) (s : State) : (setIntent i t s).impaired = s.impaired := rfl
@[simp] theorem setIntent_transmits (i : Nat) (t : Intent) (s : State) : (setIntent i t s).transmits = s.transmits := rfl
@[simp] theorem setIntent_active (i : Nat) (t : Intent) (s : State) : (setIntent i t s).active = s.active := rfl
@[simp] theorem setIntent_beingTaken (i : Nat) (t : Intent) (s : State) : (setIntent i t s).beingTaken = s.beingTaken := rfl
@[simp] theorem setIntent_notify (i : Nat) (t : Intent) (s : State) : (setIntent i t s).notify = s.notify := rfl
@[simp] theorem setIntent_entry (i : Nat) (t : Intent) (s : State) (k : Nat) : (setIntent i t s).entry k = s.entry k := rfl
@[simp] theorem setIntent_numberOf (i : Nat) (t : Intent) (s : State) (k : Uid) : (setIntent i t s).numberOf k = s.numberOf k := rfl
@[simp] theorem setIntent_lolLevel (i : Nat) (t : Intent) (s : State) (k : Nat) : (setIntent i t s).lolLevel k = s.lolLevel k := rfl
@[simp] theorem setIntent_classOf (i : Nat) (t : Intent) (s : State) (k : Nat) : (setIntent i t s).classOf k = s.classOf k := rfl
@[simp] theorem setIntent_monitorParams (i : Nat) (t : Intent) (s : State) (k : Nat) : (setIntent i t s).monitorParams k = s.monitorParams k := rfl
@[simp] theorem setIntent_intentPeriod (i : Nat) (t : Intent) (s : State) : (setIntent i t s).intentPeriod = s.intentPeriod := rfl

@[simp] theorem freeSlot_pending (i : Nat) (s : State) : (freeSlot i s).pending = s.pending := rfl
@[simp] theorem freeSlot_inReset (i : Nat) (s : State) : (freeSlot i s).inReset = s.inReset := rfl
@[simp] theorem freeSlot_scr (i : Nat) (s : State) : (freeSlot i s).scr = s.scr := rfl
@[simp] theorem freeSlot_sct (i : Nat) (s : State) : (freeSlot i s).sct = s.sct := rfl
@[simp] theorem freeSlot_pins (i : Nat) (s : State) : (freeSlot i s).pins = s.pins := rfl
@[simp] theorem freeSlot_dir (i : Nat) (s : State) : (freeSlot i s).dir = s.dir := rfl
@[simp] theorem freeSlot_degrees (i : Nat) (s : State) : (freeSlot i s).degrees = s.degrees := rfl
@[simp] theorem freeSlot_spm (i : Nat) (s : State) : (freeSlot i s).spm = s.spm := rfl
@[simp] theorem freeSlot_org (i : Nat) (s : State) : (freeSlot i s).org = s.org := rfl
@[simp] theorem freeSlot_tdb (i : Nat) (s : State) : (freeSlot i s).tdb = s.tdb := rfl
@[simp] theorem freeSlot_reqQueue (i : Nat) (s : State) : (freeSlot i s).reqQueue = s.reqQueue := rfl
@[simp] theorem freeSlot_pen (i : Nat) (s : State) : (freeSlot i s).pen = s.pen := rfl
@[simp] theorem freeSlot_lrp (i : Nat) (s : State) : (freeSlot i s).lrp = s.lrp := rfl
@[simp] theorem freeSlot_ntf (i : Nat) (s : State) : (freeSlot i s).ntf = s.ntf := rfl
@[simp] theorem freeSlot_psr (i : Nat) (s : State) : (freeSlot i s).psr = s.psr := rfl
@[simp] theorem freeSlot_ownUid (i : Nat) (s : State) : (freeSlot i s).ownUid = s.ownUid := rfl
@[simp] theorem freeSlot_ownNumber (i : Nat) (s : State) : (freeSlot i s).ownNumber = s.ownNumber := rfl
@[simp] theorem freeSlot_impaired (i : Nat) (s : State) : (freeSlot i s).impaired = s.impaired := rfl
@[simp] theorem freeSlot_transmits (i : Nat) (s : State) : (freeSlot i s).transmits = s.transmits := rfl
@[simp] theorem freeSlot_active (i : Nat) (s : State) : (freeSlot i s).active = s.active := rfl
@[simp] theorem freeSlot_beingTaken (i : Nat) (s : State) : (freeSlot i s).beingTaken = s.beingTaken := rfl
@[simp] theorem freeSlot_notify (i : Nat) (s : State) : (freeSlot i s).notify = s.notify := rfl
@[simp] theorem freeSlot_entry (i : Nat) (s : State) (k : Nat) : (freeSlot i s).entry k = s.entry k := rfl
@[simp] theorem freeSlot_numberOf (i : Nat) (s : State) (k : Uid) : (freeSlot i s).numberOf k = s.numberOf k := rfl
@[simp] theorem freeSlot_lolLevel (i : Nat) (s : State) (k : Nat) : (freeSlot i s).lolLevel k = s.lolLevel k := rfl
@[simp] theorem freeSlot_classOf (i : Nat) (s : State) (k : Nat) : (freeSlot i s).classOf k = s.classOf k := rfl
@[simp] theorem freeSlot_monitorParams (i : Nat) (s : State) (k : Nat) : (freeSlot i s).monitorParams k = s.monitorParams k := rfl
@[simp] theorem freeSlot_intentPeriod (i : Nat) (s : State) : (freeSlot i s).intentPeriod = s.intentPeriod := rfl

@[simp] theorem startClaim_pending (i pr : Nat) (ps : List Pair) (s : State) : (startClaim i pr ps s).pending = s.pending := rfl
@[simp] theorem startClaim_inReset (i pr : Nat) (ps : List Pair) (s : State) : (startClaim i pr ps s).inReset = s.inReset := rfl
@[simp] theorem startClaim_scr (i pr : Nat) (ps : List Pair) (s : State) : (startClaim i pr ps s).scr = s.scr := rfl
@[simp] theorem startClaim_sct (i pr : Nat) (ps : List Pair) (s : State) : (startClaim i pr ps s).sct = s.sct := rfl
@[simp] theorem startClaim_pins (i pr : Nat) (ps : List Pair) (s : State) : (startClaim i pr ps s).pins = s.pins := rfl
@[simp] theorem startClaim_dir (i pr : Nat) (ps : List Pair) (s : State) : (startClaim i pr ps s).dir = s.dir := rfl
@[simp] theorem startClaim_degrees (i pr : Nat) (ps : List Pair) (s : State) : (startClaim i pr ps s).degrees = s.degrees := rfl
@[simp] theorem startClaim_spm (i pr : Nat) (ps : List Pair) (s : State) : (startClaim i pr ps s).spm = s.spm := rfl
@[simp] theorem startClaim_org (i pr : Nat) (ps : List Pair) (s : State) : (startClaim i pr ps s).org = s.org := rfl
@[simp] theorem startClaim_tdb (i pr : Nat) (ps : List Pair) (s : State) : (startClaim i pr ps s).tdb = s.tdb := rfl
@[simp] theorem startClaim_reqQueue (i pr : Nat) (ps : List Pair) (s : State) : (startClaim i pr ps s).reqQueue = s.reqQueue := rfl
@[simp] theorem startClaim_pen (i pr : Nat) (ps : List Pair) (s : State) : (startClaim i pr ps s).pen = s.pen := rfl
@[simp] theorem startClaim_lrp (i pr : Nat) (ps : List Pair) (s : State) : (startClaim i pr ps s).lrp = s.lrp := rfl
@[simp] theorem startClaim_ntf (i pr : Nat) (ps : List Pair) (s : State) : (startClaim i pr ps s).ntf = s.ntf := rfl
@[simp] theorem startClaim_psr (i pr : Nat) (ps : List Pair) (s : State) : (startClaim i pr ps s).psr = s.psr := rfl
@[simp] theorem startClaim_ownUid (i pr : Nat) (ps : List Pair) (s : State) : (startClaim i pr ps s).ownUid = s.ownUid := rfl
@[simp] theorem startClaim_ownNumber (i pr : Nat) (ps : List Pair) (s : State) : (startClaim i pr ps s).ownNumber = s.ownNumber := rfl
@[simp] theorem startClaim_impaired (i pr : Nat) (ps : List Pair) (s : State) : (startClaim i pr ps s).impaired = s.impaired := rfl
@[simp] theorem startClaim_transmits (i pr : Nat) (ps : List Pair) (s : State) : (startClaim i pr ps s).transmits = s.transmits := rfl
@[simp] theorem startClaim_active (i pr : Nat) (ps : List Pair) (s : State) : (startClaim i pr ps s).active = s.active := rfl
@[simp] theorem startClaim_beingTaken (i pr : Nat) (ps : List Pair) (s : State) : (startClaim i pr ps s).beingTaken = s.beingTaken := rfl
@[simp] theorem startClaim_notify (i pr : Nat) (ps : List Pair) (s : State) : (startClaim i pr ps s).notify = s.notify := rfl
@[simp] theorem startClaim_entry (i pr : Nat) (ps : List Pair) (s : State) (k : Nat) : (startClaim i pr ps s).entry k = s.entry k := rfl
@[simp] theorem startClaim_numberOf (i pr : Nat) (ps : List Pair) (s : State) (k : Uid) : (startClaim i pr ps s).numberOf k = s.numberOf k := rfl
@[simp] theorem startClaim_lolLevel (i pr : Nat) (ps : List Pair) (s : State) (k : Nat) : (startClaim i pr ps s).lolLevel k = s.lolLevel k := rfl
@[simp] theorem startClaim_classOf (i pr : Nat) (ps : List Pair) (s : State) (k : Nat) : (startClaim i pr ps s).classOf k = s.classOf k := rfl
@[simp] theorem startClaim_monitorParams (i pr : Nat) (ps : List Pair) (s : State) (k : Nat) : (startClaim i pr ps s).monitorParams k = s.monitorParams k := rfl
@[simp] theorem startClaim_intentPeriod (i pr : Nat) (ps : List Pair) (s : State) : (startClaim i pr ps s).intentPeriod = s.intentPeriod := rfl

@[simp] theorem setDegree_pending (d : Nat) (x : Degree) (s : State) : (setDegree d x s).pending = s.pending := rfl
@[simp] theorem setDegree_inReset (d : Nat) (x : Degree) (s : State) : (setDegree d x s).inReset = s.inReset := rfl
@[simp] theorem setDegree_scr (d : Nat) (x : Degree) (s : State) : (setDegree d x s).scr = s.scr := rfl
@[simp] theorem setDegree_sct (d : Nat) (x : Degree) (s : State) : (setDegree d x s).sct = s.sct := rfl
@[simp] theorem setDegree_pins (d : Nat) (x : Degree) (s : State) : (setDegree d x s).pins = s.pins := rfl
@[simp] theorem setDegree_dir (d : Nat) (x : Degree) (s : State) : (setDegree d x s).dir = s.dir := rfl
@[simp] theorem setDegree_spm (d : Nat) (x : Degree) (s : State) : (setDegree d x s).spm = s.spm := rfl
@[simp] theorem setDegree_org (d : Nat) (x : Degree) (s : State) : (setDegree d x s).org = s.org := rfl
@[simp] theorem setDegree_tdb (d : Nat) (x : Degree) (s : State) : (setDegree d x s).tdb = s.tdb := rfl
@[simp] theorem setDegree_slots (d : Nat) (x : Degree) (s : State) : (setDegree d x s).slots = s.slots := rfl
@[simp] theorem setDegree_reqQueue (d : Nat) (x : Degree) (s : State) : (setDegree d x s).reqQueue = s.reqQueue := rfl
@[simp] theorem setDegree_pen (d : Nat) (x : Degree) (s : State) : (setDegree d x s).pen = s.pen := rfl
@[simp] theorem setDegree_lrp (d : Nat) (x : Degree) (s : State) : (setDegree d x s).lrp = s.lrp := rfl
@[simp] theorem setDegree_ntf (d : Nat) (x : Degree) (s : State) : (setDegree d x s).ntf = s.ntf := rfl
@[simp] theorem setDegree_psr (d : Nat) (x : Degree) (s : State) : (setDegree d x s).psr = s.psr := rfl
@[simp] theorem setDegree_ownUid (d : Nat) (x : Degree) (s : State) : (setDegree d x s).ownUid = s.ownUid := rfl
@[simp] theorem setDegree_ownNumber (d : Nat) (x : Degree) (s : State) : (setDegree d x s).ownNumber = s.ownNumber := rfl
@[simp] theorem setDegree_impaired (d : Nat) (x : Degree) (s : State) : (setDegree d x s).impaired = s.impaired := rfl
@[simp] theorem setDegree_transmits (d : Nat) (x : Degree) (s : State) : (setDegree d x s).transmits = s.transmits := rfl
@[simp] theorem setDegree_active (d : Nat) (x : Degree) (s : State) : (setDegree d x s).active = s.active := rfl
@[simp] theorem setDegree_beingTaken (d : Nat) (x : Degree) (s : State) : (setDegree d x s).beingTaken = s.beingTaken := rfl
@[simp] theorem setDegree_notify (d : Nat) (x : Degree) (s : State) : (setDegree d x s).notify = s.notify := rfl
@[simp] theorem setDegree_anyRunning (d : Nat) (x : Degree) (s : State) : (setDegree d x s).anyRunning = s.anyRunning := rfl
@[simp] theorem setDegree_slot (d : Nat) (x : Degree) (s : State) (k : Nat) : (setDegree d x s).slot k = s.slot k := rfl
@[simp] theorem setDegree_slotState (d : Nat) (x : Degree) (s : State) (k : Nat) : (setDegree d x s).slotState k = s.slotState k := rfl
@[simp] theorem setDegree_entry (d : Nat) (x : Degree) (s : State) (k : Nat) : (setDegree d x s).entry k = s.entry k := rfl
@[simp] theorem setDegree_numberOf (d : Nat) (x : Degree) (s : State) (k : Uid) : (setDegree d x s).numberOf k = s.numberOf k := rfl
@[simp] theorem setDegree_lolLevel (d : Nat) (x : Degree) (s : State) (k : Nat) : (setDegree d x s).lolLevel k = s.lolLevel k := rfl
@[simp] theorem setDegree_classOf (d : Nat) (x : Degree) (s : State) (k : Nat) : (setDegree d x s).classOf k = s.classOf k := rfl
@[simp] theorem setDegree_monitorParams (d : Nat) (x : Degree) (s : State) (k : Nat) : (setDegree d x s).monitorParams k = s.monitorParams k := rfl
@[simp] theorem setDegree_otherIntentPairs (d : Nat) (x : Degree) (s : State) (k : Nat) : (setDegree d x s).otherIntentPairs k = s.otherIntentPairs k := rfl
@[simp] theorem setDegree_intentPeriod (d : Nat) (x : Degree) (s : State) : (setDegree d x s).intentPeriod = s.intentPeriod := rfl

@[simp] theorem cutTraceLines_pending (s : State) : (cutTraceLines s).pending = s.pending := rfl
@[simp] theorem cutTraceLines_inReset (s : State) : (cutTraceLines s).inReset = s.inReset := rfl
@[simp] theorem cutTraceLines_scr (s : State) : (cutTraceLines s).scr = s.scr := rfl
@[simp] theorem cutTraceLines_sct (s : State) : (cutTraceLines s).sct = s.sct := rfl
@[simp] theorem cutTraceLines_pins (s : State) : (cutTraceLines s).pins = s.pins := rfl
@[simp] theorem cutTraceLines_dir (s : State) : (cutTraceLines s).dir = s.dir := rfl
@[simp] theorem cutTraceLines_spm (s : State) : (cutTraceLines s).spm = s.spm := rfl
@[simp] theorem cutTraceLines_org (s : State) : (cutTraceLines s).org = s.org := rfl
@[simp] theorem cutTraceLines_tdb (s : State) : (cutTraceLines s).tdb = s.tdb := rfl
@[simp] theorem cutTraceLines_slots (s : State) : (cutTraceLines s).slots = s.slots := rfl
@[simp] theorem cutTraceLines_reqQueue (s : State) : (cutTraceLines s).reqQueue = s.reqQueue := rfl
@[simp] theorem cutTraceLines_pen (s : State) : (cutTraceLines s).pen = s.pen := rfl
@[simp] theorem cutTraceLines_lrp (s : State) : (cutTraceLines s).lrp = s.lrp := rfl
@[simp] theorem cutTraceLines_ntf (s : State) : (cutTraceLines s).ntf = s.ntf := rfl
@[simp] theorem cutTraceLines_psr (s : State) : (cutTraceLines s).psr = s.psr := rfl
@[simp] theorem cutTraceLines_ownUid (s : State) : (cutTraceLines s).ownUid = s.ownUid := rfl
@[simp] theorem cutTraceLines_ownNumber (s : State) : (cutTraceLines s).ownNumber = s.ownNumber := rfl
@[simp] theorem cutTraceLines_impaired (s : State) : (cutTraceLines s).impaired = s.impaired := rfl
@[simp] theorem cutTraceLines_transmits (s : State) : (cutTraceLines s).transmits = s.transmits := rfl
@[simp] theorem cutTraceLines_active (s : State) : (cutTraceLines s).active = s.active := rfl
@[simp] theorem cutTraceLines_beingTaken (s : State) : (cutTraceLines s).beingTaken = s.beingTaken := rfl
@[simp] theorem cutTraceLines_notify (s : State) : (cutTraceLines s).notify = s.notify := rfl
@[simp] theorem cutTraceLines_anyRunning (s : State) : (cutTraceLines s).anyRunning = s.anyRunning := rfl
@[simp] theorem cutTraceLines_slot (s : State) (k : Nat) : (cutTraceLines s).slot k = s.slot k := rfl
@[simp] theorem cutTraceLines_slotState (s : State) (k : Nat) : (cutTraceLines s).slotState k = s.slotState k := rfl
@[simp] theorem cutTraceLines_entry (s : State) (k : Nat) : (cutTraceLines s).entry k = s.entry k := rfl
@[simp] theorem cutTraceLines_numberOf (s : State) (k : Uid) : (cutTraceLines s).numberOf k = s.numberOf k := rfl
@[simp] theorem cutTraceLines_lolLevel (s : State) (k : Nat) : (cutTraceLines s).lolLevel k = s.lolLevel k := rfl
@[simp] theorem cutTraceLines_classOf (s : State) (k : Nat) : (cutTraceLines s).classOf k = s.classOf k := rfl
@[simp] theorem cutTraceLines_monitorParams (s : State) (k : Nat) : (cutTraceLines s).monitorParams k = s.monitorParams k := rfl
@[simp] theorem cutTraceLines_otherIntentPairs (s : State) (k : Nat) : (cutTraceLines s).otherIntentPairs k = s.otherIntentPairs k := rfl
@[simp] theorem cutTraceLines_intentPeriod (s : State) : (cutTraceLines s).intentPeriod = s.intentPeriod := rfl

@[simp] theorem setSpmDegree_pending (d : Nat) (x : SpmDegree) (s : State) : (setSpmDegree d x s).pending = s.pending := rfl
@[simp] theorem setSpmDegree_inReset (d : Nat) (x : SpmDegree) (s : State) : (setSpmDegree d x s).inReset = s.inReset := rfl
@[simp] theorem setSpmDegree_scr (d : Nat) (x : SpmDegree) (s : State) : (setSpmDegree d x s).scr = s.scr := rfl
@[simp] theorem setSpmDegree_sct (d : Nat) (x : SpmDegree) (s : State) : (setSpmDegree d x s).sct = s.sct := rfl
@[simp] theorem setSpmDegree_pins (d : Nat) (x : SpmDegree) (s : State) : (setSpmDegree d x s).pins = s.pins := rfl
@[simp] theorem setSpmDegree_dir (d : Nat) (x : SpmDegree) (s : State) : (setSpmDegree d x s).dir = s.dir := rfl
@[simp] theorem setSpmDegree_degrees (d : Nat) (x : SpmDegree) (s : State) : (setSpmDegree d x s).degrees = s.degrees := rfl
@[simp] theorem setSpmDegree_org (d : Nat) (x : SpmDegree) (s : State) : (setSpmDegree d x s).org = s.org := rfl
@[simp] theorem setSpmDegree_tdb (d : Nat) (x : SpmDegree) (s : State) : (setSpmDegree d x s).tdb = s.tdb := rfl
@[simp] theorem setSpmDegree_slots (d : Nat) (x : SpmDegree) (s : State) : (setSpmDegree d x s).slots = s.slots := rfl
@[simp] theorem setSpmDegree_reqQueue (d : Nat) (x : SpmDegree) (s : State) : (setSpmDegree d x s).reqQueue = s.reqQueue := rfl
@[simp] theorem setSpmDegree_pen (d : Nat) (x : SpmDegree) (s : State) : (setSpmDegree d x s).pen = s.pen := rfl
@[simp] theorem setSpmDegree_lrp (d : Nat) (x : SpmDegree) (s : State) : (setSpmDegree d x s).lrp = s.lrp := rfl
@[simp] theorem setSpmDegree_ntf (d : Nat) (x : SpmDegree) (s : State) : (setSpmDegree d x s).ntf = s.ntf := rfl
@[simp] theorem setSpmDegree_psr (d : Nat) (x : SpmDegree) (s : State) : (setSpmDegree d x s).psr = s.psr := rfl
@[simp] theorem setSpmDegree_ownUid (d : Nat) (x : SpmDegree) (s : State) : (setSpmDegree d x s).ownUid = s.ownUid := rfl
@[simp] theorem setSpmDegree_ownNumber (d : Nat) (x : SpmDegree) (s : State) : (setSpmDegree d x s).ownNumber = s.ownNumber := rfl
@[simp] theorem setSpmDegree_impaired (d : Nat) (x : SpmDegree) (s : State) : (setSpmDegree d x s).impaired = s.impaired := rfl
@[simp] theorem setSpmDegree_transmits (d : Nat) (x : SpmDegree) (s : State) : (setSpmDegree d x s).transmits = s.transmits := rfl
@[simp] theorem setSpmDegree_active (d : Nat) (x : SpmDegree) (s : State) : (setSpmDegree d x s).active = s.active := rfl
@[simp] theorem setSpmDegree_beingTaken (d : Nat) (x : SpmDegree) (s : State) : (setSpmDegree d x s).beingTaken = s.beingTaken := rfl
@[simp] theorem setSpmDegree_notify (d : Nat) (x : SpmDegree) (s : State) : (setSpmDegree d x s).notify = s.notify := rfl
@[simp] theorem setSpmDegree_anyRunning (d : Nat) (x : SpmDegree) (s : State) : (setSpmDegree d x s).anyRunning = s.anyRunning := rfl
@[simp] theorem setSpmDegree_slot (d : Nat) (x : SpmDegree) (s : State) (k : Nat) : (setSpmDegree d x s).slot k = s.slot k := rfl
@[simp] theorem setSpmDegree_slotState (d : Nat) (x : SpmDegree) (s : State) (k : Nat) : (setSpmDegree d x s).slotState k = s.slotState k := rfl
@[simp] theorem setSpmDegree_entry (d : Nat) (x : SpmDegree) (s : State) (k : Nat) : (setSpmDegree d x s).entry k = s.entry k := rfl
@[simp] theorem setSpmDegree_numberOf (d : Nat) (x : SpmDegree) (s : State) (k : Uid) : (setSpmDegree d x s).numberOf k = s.numberOf k := rfl
@[simp] theorem setSpmDegree_lolLevel (d : Nat) (x : SpmDegree) (s : State) (k : Nat) : (setSpmDegree d x s).lolLevel k = s.lolLevel k := rfl
@[simp] theorem setSpmDegree_classOf (d : Nat) (x : SpmDegree) (s : State) (k : Nat) : (setSpmDegree d x s).classOf k = s.classOf k := rfl
@[simp] theorem setSpmDegree_monitorParams (d : Nat) (x : SpmDegree) (s : State) (k : Nat) : (setSpmDegree d x s).monitorParams k = s.monitorParams k := rfl
@[simp] theorem setSpmDegree_otherIntentPairs (d : Nat) (x : SpmDegree) (s : State) (k : Nat) : (setSpmDegree d x s).otherIntentPairs k = s.otherIntentPairs k := rfl
@[simp] theorem setSpmDegree_intentPeriod (d : Nat) (x : SpmDegree) (s : State) : (setSpmDegree d x s).intentPeriod = s.intentPeriod := rfl

@[simp] theorem setTxQueue_pending (q : List Body) (s : State) : (setTxQueue q s).pending = s.pending := rfl
@[simp] theorem setTxQueue_inReset (q : List Body) (s : State) : (setTxQueue q s).inReset = s.inReset := rfl
@[simp] theorem setTxQueue_scr (q : List Body) (s : State) : (setTxQueue q s).scr = s.scr := rfl
@[simp] theorem setTxQueue_pins (q : List Body) (s : State) : (setTxQueue q s).pins = s.pins := rfl
@[simp] theorem setTxQueue_dir (q : List Body) (s : State) : (setTxQueue q s).dir = s.dir := rfl
@[simp] theorem setTxQueue_degrees (q : List Body) (s : State) : (setTxQueue q s).degrees = s.degrees := rfl
@[simp] theorem setTxQueue_spm (q : List Body) (s : State) : (setTxQueue q s).spm = s.spm := rfl
@[simp] theorem setTxQueue_org (q : List Body) (s : State) : (setTxQueue q s).org = s.org := rfl
@[simp] theorem setTxQueue_tdb (q : List Body) (s : State) : (setTxQueue q s).tdb = s.tdb := rfl
@[simp] theorem setTxQueue_slots (q : List Body) (s : State) : (setTxQueue q s).slots = s.slots := rfl
@[simp] theorem setTxQueue_reqQueue (q : List Body) (s : State) : (setTxQueue q s).reqQueue = s.reqQueue := rfl
@[simp] theorem setTxQueue_pen (q : List Body) (s : State) : (setTxQueue q s).pen = s.pen := rfl
@[simp] theorem setTxQueue_lrp (q : List Body) (s : State) : (setTxQueue q s).lrp = s.lrp := rfl
@[simp] theorem setTxQueue_ntf (q : List Body) (s : State) : (setTxQueue q s).ntf = s.ntf := rfl
@[simp] theorem setTxQueue_psr (q : List Body) (s : State) : (setTxQueue q s).psr = s.psr := rfl
@[simp] theorem setTxQueue_ownUid (q : List Body) (s : State) : (setTxQueue q s).ownUid = s.ownUid := rfl
@[simp] theorem setTxQueue_ownNumber (q : List Body) (s : State) : (setTxQueue q s).ownNumber = s.ownNumber := rfl
@[simp] theorem setTxQueue_impaired (q : List Body) (s : State) : (setTxQueue q s).impaired = s.impaired := rfl
@[simp] theorem setTxQueue_transmits (q : List Body) (s : State) : (setTxQueue q s).transmits = s.transmits := rfl
@[simp] theorem setTxQueue_active (q : List Body) (s : State) : (setTxQueue q s).active = s.active := rfl
@[simp] theorem setTxQueue_beingTaken (q : List Body) (s : State) : (setTxQueue q s).beingTaken = s.beingTaken := rfl
@[simp] theorem setTxQueue_notify (q : List Body) (s : State) : (setTxQueue q s).notify = s.notify := rfl
@[simp] theorem setTxQueue_anyRunning (q : List Body) (s : State) : (setTxQueue q s).anyRunning = s.anyRunning := rfl
@[simp] theorem setTxQueue_slot (q : List Body) (s : State) (k : Nat) : (setTxQueue q s).slot k = s.slot k := rfl
@[simp] theorem setTxQueue_slotState (q : List Body) (s : State) (k : Nat) : (setTxQueue q s).slotState k = s.slotState k := rfl
@[simp] theorem setTxQueue_entry (q : List Body) (s : State) (k : Nat) : (setTxQueue q s).entry k = s.entry k := rfl
@[simp] theorem setTxQueue_numberOf (q : List Body) (s : State) (k : Uid) : (setTxQueue q s).numberOf k = s.numberOf k := rfl
@[simp] theorem setTxQueue_lolLevel (q : List Body) (s : State) (k : Nat) : (setTxQueue q s).lolLevel k = s.lolLevel k := rfl
@[simp] theorem setTxQueue_classOf (q : List Body) (s : State) (k : Nat) : (setTxQueue q s).classOf k = s.classOf k := rfl
@[simp] theorem setTxQueue_monitorParams (q : List Body) (s : State) (k : Nat) : (setTxQueue q s).monitorParams k = s.monitorParams k := rfl
@[simp] theorem setTxQueue_otherIntentPairs (q : List Body) (s : State) (k : Nat) : (setTxQueue q s).otherIntentPairs k = s.otherIntentPairs k := rfl
@[simp] theorem setTxQueue_intentPeriod (q : List Body) (s : State) : (setTxQueue q s).intentPeriod = s.intentPeriod := rfl

@[simp] theorem setService_pending (v : Option Service) (s : State) : (setService v s).pending = s.pending := rfl
@[simp] theorem setService_inReset (v : Option Service) (s : State) : (setService v s).inReset = s.inReset := rfl
@[simp] theorem setService_scr (v : Option Service) (s : State) : (setService v s).scr = s.scr := rfl
@[simp] theorem setService_pins (v : Option Service) (s : State) : (setService v s).pins = s.pins := rfl
@[simp] theorem setService_dir (v : Option Service) (s : State) : (setService v s).dir = s.dir := rfl
@[simp] theorem setService_degrees (v : Option Service) (s : State) : (setService v s).degrees = s.degrees := rfl
@[simp] theorem setService_spm (v : Option Service) (s : State) : (setService v s).spm = s.spm := rfl
@[simp] theorem setService_org (v : Option Service) (s : State) : (setService v s).org = s.org := rfl
@[simp] theorem setService_tdb (v : Option Service) (s : State) : (setService v s).tdb = s.tdb := rfl
@[simp] theorem setService_slots (v : Option Service) (s : State) : (setService v s).slots = s.slots := rfl
@[simp] theorem setService_reqQueue (v : Option Service) (s : State) : (setService v s).reqQueue = s.reqQueue := rfl
@[simp] theorem setService_pen (v : Option Service) (s : State) : (setService v s).pen = s.pen := rfl
@[simp] theorem setService_lrp (v : Option Service) (s : State) : (setService v s).lrp = s.lrp := rfl
@[simp] theorem setService_ntf (v : Option Service) (s : State) : (setService v s).ntf = s.ntf := rfl
@[simp] theorem setService_psr (v : Option Service) (s : State) : (setService v s).psr = s.psr := rfl
@[simp] theorem setService_ownUid (v : Option Service) (s : State) : (setService v s).ownUid = s.ownUid := rfl
@[simp] theorem setService_ownNumber (v : Option Service) (s : State) : (setService v s).ownNumber = s.ownNumber := rfl
@[simp] theorem setService_impaired (v : Option Service) (s : State) : (setService v s).impaired = s.impaired := rfl
@[simp] theorem setService_transmits (v : Option Service) (s : State) : (setService v s).transmits = s.transmits := rfl
@[simp] theorem setService_active (v : Option Service) (s : State) : (setService v s).active = s.active := rfl
@[simp] theorem setService_beingTaken (v : Option Service) (s : State) : (setService v s).beingTaken = s.beingTaken := rfl
@[simp] theorem setService_notify (v : Option Service) (s : State) : (setService v s).notify = s.notify := rfl
@[simp] theorem setService_anyRunning (v : Option Service) (s : State) : (setService v s).anyRunning = s.anyRunning := rfl
@[simp] theorem setService_slot (v : Option Service) (s : State) (k : Nat) : (setService v s).slot k = s.slot k := rfl
@[simp] theorem setService_slotState (v : Option Service) (s : State) (k : Nat) : (setService v s).slotState k = s.slotState k := rfl
@[simp] theorem setService_entry (v : Option Service) (s : State) (k : Nat) : (setService v s).entry k = s.entry k := rfl
@[simp] theorem setService_numberOf (v : Option Service) (s : State) (k : Uid) : (setService v s).numberOf k = s.numberOf k := rfl
@[simp] theorem setService_lolLevel (v : Option Service) (s : State) (k : Nat) : (setService v s).lolLevel k = s.lolLevel k := rfl
@[simp] theorem setService_classOf (v : Option Service) (s : State) (k : Nat) : (setService v s).classOf k = s.classOf k := rfl
@[simp] theorem setService_monitorParams (v : Option Service) (s : State) (k : Nat) : (setService v s).monitorParams k = s.monitorParams k := rfl
@[simp] theorem setService_otherIntentPairs (v : Option Service) (s : State) (k : Nat) : (setService v s).otherIntentPairs k = s.otherIntentPairs k := rfl
@[simp] theorem setService_intentPeriod (v : Option Service) (s : State) : (setService v s).intentPeriod = s.intentPeriod := rfl

@[simp] theorem clearSct_pending (s : State) : (clearSct s).pending = s.pending := rfl
@[simp] theorem clearSct_inReset (s : State) : (clearSct s).inReset = s.inReset := rfl
@[simp] theorem clearSct_scr (s : State) : (clearSct s).scr = s.scr := rfl
@[simp] theorem clearSct_pins (s : State) : (clearSct s).pins = s.pins := rfl
@[simp] theorem clearSct_dir (s : State) : (clearSct s).dir = s.dir := rfl
@[simp] theorem clearSct_degrees (s : State) : (clearSct s).degrees = s.degrees := rfl
@[simp] theorem clearSct_spm (s : State) : (clearSct s).spm = s.spm := rfl
@[simp] theorem clearSct_org (s : State) : (clearSct s).org = s.org := rfl
@[simp] theorem clearSct_tdb (s : State) : (clearSct s).tdb = s.tdb := rfl
@[simp] theorem clearSct_slots (s : State) : (clearSct s).slots = s.slots := rfl
@[simp] theorem clearSct_reqQueue (s : State) : (clearSct s).reqQueue = s.reqQueue := rfl
@[simp] theorem clearSct_pen (s : State) : (clearSct s).pen = s.pen := rfl
@[simp] theorem clearSct_lrp (s : State) : (clearSct s).lrp = s.lrp := rfl
@[simp] theorem clearSct_ntf (s : State) : (clearSct s).ntf = s.ntf := rfl
@[simp] theorem clearSct_psr (s : State) : (clearSct s).psr = s.psr := rfl
@[simp] theorem clearSct_ownUid (s : State) : (clearSct s).ownUid = s.ownUid := rfl
@[simp] theorem clearSct_ownNumber (s : State) : (clearSct s).ownNumber = s.ownNumber := rfl
@[simp] theorem clearSct_impaired (s : State) : (clearSct s).impaired = s.impaired := rfl
@[simp] theorem clearSct_transmits (s : State) : (clearSct s).transmits = s.transmits := rfl
@[simp] theorem clearSct_active (s : State) : (clearSct s).active = s.active := rfl
@[simp] theorem clearSct_beingTaken (s : State) : (clearSct s).beingTaken = s.beingTaken := rfl
@[simp] theorem clearSct_notify (s : State) : (clearSct s).notify = s.notify := rfl
@[simp] theorem clearSct_anyRunning (s : State) : (clearSct s).anyRunning = s.anyRunning := rfl
@[simp] theorem clearSct_slot (s : State) (k : Nat) : (clearSct s).slot k = s.slot k := rfl
@[simp] theorem clearSct_slotState (s : State) (k : Nat) : (clearSct s).slotState k = s.slotState k := rfl
@[simp] theorem clearSct_entry (s : State) (k : Nat) : (clearSct s).entry k = s.entry k := rfl
@[simp] theorem clearSct_numberOf (s : State) (k : Uid) : (clearSct s).numberOf k = s.numberOf k := rfl
@[simp] theorem clearSct_lolLevel (s : State) (k : Nat) : (clearSct s).lolLevel k = s.lolLevel k := rfl
@[simp] theorem clearSct_classOf (s : State) (k : Nat) : (clearSct s).classOf k = s.classOf k := rfl
@[simp] theorem clearSct_monitorParams (s : State) (k : Nat) : (clearSct s).monitorParams k = s.monitorParams k := rfl
@[simp] theorem clearSct_otherIntentPairs (s : State) (k : Nat) : (clearSct s).otherIntentPairs k = s.otherIntentPairs k := rfl
@[simp] theorem clearSct_intentPeriod (s : State) : (clearSct s).intentPeriod = s.intentPeriod := rfl

@[simp] theorem seedGenerator_pending (s : State) : (seedGenerator s).pending = s.pending := rfl
@[simp] theorem seedGenerator_inReset (s : State) : (seedGenerator s).inReset = s.inReset := rfl
@[simp] theorem seedGenerator_scr (s : State) : (seedGenerator s).scr = s.scr := rfl
@[simp] theorem seedGenerator_pins (s : State) : (seedGenerator s).pins = s.pins := rfl
@[simp] theorem seedGenerator_dir (s : State) : (seedGenerator s).dir = s.dir := rfl
@[simp] theorem seedGenerator_degrees (s : State) : (seedGenerator s).degrees = s.degrees := rfl
@[simp] theorem seedGenerator_spm (s : State) : (seedGenerator s).spm = s.spm := rfl
@[simp] theorem seedGenerator_org (s : State) : (seedGenerator s).org = s.org := rfl
@[simp] theorem seedGenerator_tdb (s : State) : (seedGenerator s).tdb = s.tdb := rfl
@[simp] theorem seedGenerator_slots (s : State) : (seedGenerator s).slots = s.slots := rfl
@[simp] theorem seedGenerator_reqQueue (s : State) : (seedGenerator s).reqQueue = s.reqQueue := rfl
@[simp] theorem seedGenerator_pen (s : State) : (seedGenerator s).pen = s.pen := rfl
@[simp] theorem seedGenerator_lrp (s : State) : (seedGenerator s).lrp = s.lrp := rfl
@[simp] theorem seedGenerator_ntf (s : State) : (seedGenerator s).ntf = s.ntf := rfl
@[simp] theorem seedGenerator_psr (s : State) : (seedGenerator s).psr = s.psr := rfl
@[simp] theorem seedGenerator_ownUid (s : State) : (seedGenerator s).ownUid = s.ownUid := rfl
@[simp] theorem seedGenerator_ownNumber (s : State) : (seedGenerator s).ownNumber = s.ownNumber := rfl
@[simp] theorem seedGenerator_impaired (s : State) : (seedGenerator s).impaired = s.impaired := rfl
@[simp] theorem seedGenerator_transmits (s : State) : (seedGenerator s).transmits = s.transmits := rfl
@[simp] theorem seedGenerator_active (s : State) : (seedGenerator s).active = s.active := rfl
@[simp] theorem seedGenerator_beingTaken (s : State) : (seedGenerator s).beingTaken = s.beingTaken := rfl
@[simp] theorem seedGenerator_notify (s : State) : (seedGenerator s).notify = s.notify := rfl
@[simp] theorem seedGenerator_anyRunning (s : State) : (seedGenerator s).anyRunning = s.anyRunning := rfl
@[simp] theorem seedGenerator_slot (s : State) (k : Nat) : (seedGenerator s).slot k = s.slot k := rfl
@[simp] theorem seedGenerator_slotState (s : State) (k : Nat) : (seedGenerator s).slotState k = s.slotState k := rfl
@[simp] theorem seedGenerator_entry (s : State) (k : Nat) : (seedGenerator s).entry k = s.entry k := rfl
@[simp] theorem seedGenerator_numberOf (s : State) (k : Uid) : (seedGenerator s).numberOf k = s.numberOf k := rfl
@[simp] theorem seedGenerator_lolLevel (s : State) (k : Nat) : (seedGenerator s).lolLevel k = s.lolLevel k := rfl
@[simp] theorem seedGenerator_classOf (s : State) (k : Nat) : (seedGenerator s).classOf k = s.classOf k := rfl
@[simp] theorem seedGenerator_monitorParams (s : State) (k : Nat) : (seedGenerator s).monitorParams k = s.monitorParams k := rfl
@[simp] theorem seedGenerator_otherIntentPairs (s : State) (k : Nat) : (seedGenerator s).otherIntentPairs k = s.otherIntentPairs k := rfl
@[simp] theorem seedGenerator_intentPeriod (s : State) : (seedGenerator s).intentPeriod = s.intentPeriod := rfl

@[simp] theorem setEntry_pending (n : Nat) (e : Option DirEntry) (s : State) : (setEntry n e s).pending = s.pending := rfl
@[simp] theorem setEntry_inReset (n : Nat) (e : Option DirEntry) (s : State) : (setEntry n e s).inReset = s.inReset := rfl
@[simp] theorem setEntry_scr (n : Nat) (e : Option DirEntry) (s : State) : (setEntry n e s).scr = s.scr := rfl
@[simp] theorem setEntry_sct (n : Nat) (e : Option DirEntry) (s : State) : (setEntry n e s).sct = s.sct := rfl
@[simp] theorem setEntry_pins (n : Nat) (e : Option DirEntry) (s : State) : (setEntry n e s).pins = s.pins := rfl
@[simp] theorem setEntry_degrees (n : Nat) (e : Option DirEntry) (s : State) : (setEntry n e s).degrees = s.degrees := rfl
@[simp] theorem setEntry_spm (n : Nat) (e : Option DirEntry) (s : State) : (setEntry n e s).spm = s.spm := rfl
@[simp] theorem setEntry_org (n : Nat) (e : Option DirEntry) (s : State) : (setEntry n e s).org = s.org := rfl
@[simp] theorem setEntry_tdb (n : Nat) (e : Option DirEntry) (s : State) : (setEntry n e s).tdb = s.tdb := rfl
@[simp] theorem setEntry_slots (n : Nat) (e : Option DirEntry) (s : State) : (setEntry n e s).slots = s.slots := rfl
@[simp] theorem setEntry_reqQueue (n : Nat) (e : Option DirEntry) (s : State) : (setEntry n e s).reqQueue = s.reqQueue := rfl
@[simp] theorem setEntry_pen (n : Nat) (e : Option DirEntry) (s : State) : (setEntry n e s).pen = s.pen := rfl
@[simp] theorem setEntry_lrp (n : Nat) (e : Option DirEntry) (s : State) : (setEntry n e s).lrp = s.lrp := rfl
@[simp] theorem setEntry_ntf (n : Nat) (e : Option DirEntry) (s : State) : (setEntry n e s).ntf = s.ntf := rfl
@[simp] theorem setEntry_psr (n : Nat) (e : Option DirEntry) (s : State) : (setEntry n e s).psr = s.psr := rfl
@[simp] theorem setEntry_ownUid (n : Nat) (e : Option DirEntry) (s : State) : (setEntry n e s).ownUid = s.ownUid := rfl
@[simp] theorem setEntry_impaired (n : Nat) (e : Option DirEntry) (s : State) : (setEntry n e s).impaired = s.impaired := rfl
@[simp] theorem setEntry_beingTaken (n : Nat) (e : Option DirEntry) (s : State) : (setEntry n e s).beingTaken = s.beingTaken := rfl
@[simp] theorem setEntry_notify (n : Nat) (e : Option DirEntry) (s : State) : (setEntry n e s).notify = s.notify := rfl
@[simp] theorem setEntry_anyRunning (n : Nat) (e : Option DirEntry) (s : State) : (setEntry n e s).anyRunning = s.anyRunning := rfl
@[simp] theorem setEntry_slot (n : Nat) (e : Option DirEntry) (s : State) (k : Nat) : (setEntry n e s).slot k = s.slot k := rfl
@[simp] theorem setEntry_slotState (n : Nat) (e : Option DirEntry) (s : State) (k : Nat) : (setEntry n e s).slotState k = s.slotState k := rfl
@[simp] theorem setEntry_lolLevel (n : Nat) (e : Option DirEntry) (s : State) (k : Nat) : (setEntry n e s).lolLevel k = s.lolLevel k := rfl
@[simp] theorem setEntry_classOf (n : Nat) (e : Option DirEntry) (s : State) (k : Nat) : (setEntry n e s).classOf k = s.classOf k := rfl
@[simp] theorem setEntry_monitorParams (n : Nat) (e : Option DirEntry) (s : State) (k : Nat) : (setEntry n e s).monitorParams k = s.monitorParams k := rfl
@[simp] theorem setEntry_otherIntentPairs (n : Nat) (e : Option DirEntry) (s : State) (k : Nat) : (setEntry n e s).otherIntentPairs k = s.otherIntentPairs k := rfl
@[simp] theorem setEntry_intentPeriod (n : Nat) (e : Option DirEntry) (s : State) : (setEntry n e s).intentPeriod = s.intentPeriod := rfl

@[simp] theorem setStation_pending (x : Station) (s : State) : (setStation x s).pending = s.pending := rfl
@[simp] theorem setStation_inReset (x : Station) (s : State) : (setStation x s).inReset = s.inReset := rfl
@[simp] theorem setStation_scr (x : Station) (s : State) : (setStation x s).scr = s.scr := rfl
@[simp] theorem setStation_sct (x : Station) (s : State) : (setStation x s).sct = s.sct := rfl
@[simp] theorem setStation_pins (x : Station) (s : State) : (setStation x s).pins = s.pins := rfl
@[simp] theorem setStation_degrees (x : Station) (s : State) : (setStation x s).degrees = s.degrees := rfl
@[simp] theorem setStation_spm (x : Station) (s : State) : (setStation x s).spm = s.spm := rfl
@[simp] theorem setStation_org (x : Station) (s : State) : (setStation x s).org = s.org := rfl
@[simp] theorem setStation_tdb (x : Station) (s : State) : (setStation x s).tdb = s.tdb := rfl
@[simp] theorem setStation_slots (x : Station) (s : State) : (setStation x s).slots = s.slots := rfl
@[simp] theorem setStation_reqQueue (x : Station) (s : State) : (setStation x s).reqQueue = s.reqQueue := rfl
@[simp] theorem setStation_pen (x : Station) (s : State) : (setStation x s).pen = s.pen := rfl
@[simp] theorem setStation_lrp (x : Station) (s : State) : (setStation x s).lrp = s.lrp := rfl
@[simp] theorem setStation_ntf (x : Station) (s : State) : (setStation x s).ntf = s.ntf := rfl
@[simp] theorem setStation_psr (x : Station) (s : State) : (setStation x s).psr = s.psr := rfl
@[simp] theorem setStation_ownUid (x : Station) (s : State) : (setStation x s).ownUid = s.ownUid := rfl
@[simp] theorem setStation_impaired (x : Station) (s : State) : (setStation x s).impaired = s.impaired := rfl
@[simp] theorem setStation_beingTaken (x : Station) (s : State) : (setStation x s).beingTaken = s.beingTaken := rfl
@[simp] theorem setStation_notify (x : Station) (s : State) : (setStation x s).notify = s.notify := rfl
@[simp] theorem setStation_anyRunning (x : Station) (s : State) : (setStation x s).anyRunning = s.anyRunning := rfl
@[simp] theorem setStation_slot (x : Station) (s : State) (k : Nat) : (setStation x s).slot k = s.slot k := rfl
@[simp] theorem setStation_slotState (x : Station) (s : State) (k : Nat) : (setStation x s).slotState k = s.slotState k := rfl
@[simp] theorem setStation_lolLevel (x : Station) (s : State) (k : Nat) : (setStation x s).lolLevel k = s.lolLevel k := rfl
@[simp] theorem setStation_classOf (x : Station) (s : State) (k : Nat) : (setStation x s).classOf k = s.classOf k := rfl
@[simp] theorem setStation_monitorParams (x : Station) (s : State) (k : Nat) : (setStation x s).monitorParams k = s.monitorParams k := rfl
@[simp] theorem setStation_otherIntentPairs (x : Station) (s : State) (k : Nat) : (setStation x s).otherIntentPairs k = s.otherIntentPairs k := rfl
@[simp] theorem setStation_intentPeriod (x : Station) (s : State) : (setStation x s).intentPeriod = s.intentPeriod := rfl

@[simp] theorem setPen_pending (p : Pen) (s : State) : (setPen p s).pending = s.pending := rfl
@[simp] theorem setPen_inReset (p : Pen) (s : State) : (setPen p s).inReset = s.inReset := rfl
@[simp] theorem setPen_scr (p : Pen) (s : State) : (setPen p s).scr = s.scr := rfl
@[simp] theorem setPen_sct (p : Pen) (s : State) : (setPen p s).sct = s.sct := rfl
@[simp] theorem setPen_pins (p : Pen) (s : State) : (setPen p s).pins = s.pins := rfl
@[simp] theorem setPen_dir (p : Pen) (s : State) : (setPen p s).dir = s.dir := rfl
@[simp] theorem setPen_degrees (p : Pen) (s : State) : (setPen p s).degrees = s.degrees := rfl
@[simp] theorem setPen_spm (p : Pen) (s : State) : (setPen p s).spm = s.spm := rfl
@[simp] theorem setPen_org (p : Pen) (s : State) : (setPen p s).org = s.org := rfl
@[simp] theorem setPen_tdb (p : Pen) (s : State) : (setPen p s).tdb = s.tdb := rfl
@[simp] theorem setPen_slots (p : Pen) (s : State) : (setPen p s).slots = s.slots := rfl
@[simp] theorem setPen_reqQueue (p : Pen) (s : State) : (setPen p s).reqQueue = s.reqQueue := rfl
@[simp] theorem setPen_lrp (p : Pen) (s : State) : (setPen p s).lrp = s.lrp := rfl
@[simp] theorem setPen_ntf (p : Pen) (s : State) : (setPen p s).ntf = s.ntf := rfl
@[simp] theorem setPen_psr (p : Pen) (s : State) : (setPen p s).psr = s.psr := rfl
@[simp] theorem setPen_ownUid (p : Pen) (s : State) : (setPen p s).ownUid = s.ownUid := rfl
@[simp] theorem setPen_ownNumber (p : Pen) (s : State) : (setPen p s).ownNumber = s.ownNumber := rfl
@[simp] theorem setPen_impaired (p : Pen) (s : State) : (setPen p s).impaired = s.impaired := rfl
@[simp] theorem setPen_transmits (p : Pen) (s : State) : (setPen p s).transmits = s.transmits := rfl
@[simp] theorem setPen_active (p : Pen) (s : State) : (setPen p s).active = s.active := rfl
@[simp] theorem setPen_beingTaken (p : Pen) (s : State) : (setPen p s).beingTaken = s.beingTaken := rfl
@[simp] theorem setPen_notify (p : Pen) (s : State) : (setPen p s).notify = s.notify := rfl
@[simp] theorem setPen_anyRunning (p : Pen) (s : State) : (setPen p s).anyRunning = s.anyRunning := rfl
@[simp] theorem setPen_slot (p : Pen) (s : State) (k : Nat) : (setPen p s).slot k = s.slot k := rfl
@[simp] theorem setPen_slotState (p : Pen) (s : State) (k : Nat) : (setPen p s).slotState k = s.slotState k := rfl
@[simp] theorem setPen_entry (p : Pen) (s : State) (k : Nat) : (setPen p s).entry k = s.entry k := rfl
@[simp] theorem setPen_numberOf (p : Pen) (s : State) (k : Uid) : (setPen p s).numberOf k = s.numberOf k := rfl
@[simp] theorem setPen_lolLevel (p : Pen) (s : State) (k : Nat) : (setPen p s).lolLevel k = s.lolLevel k := rfl
@[simp] theorem setPen_classOf (p : Pen) (s : State) (k : Nat) : (setPen p s).classOf k = s.classOf k := rfl
@[simp] theorem setPen_monitorParams (p : Pen) (s : State) (k : Nat) : (setPen p s).monitorParams k = s.monitorParams k := rfl
@[simp] theorem setPen_otherIntentPairs (p : Pen) (s : State) (k : Nat) : (setPen p s).otherIntentPairs k = s.otherIntentPairs k := rfl
@[simp] theorem setPen_intentPeriod (p : Pen) (s : State) : (setPen p s).intentPeriod = s.intentPeriod := rfl

@[simp] theorem setPsr_pending (p : Psr) (s : State) : (setPsr p s).pending = s.pending := rfl
@[simp] theorem setPsr_inReset (p : Psr) (s : State) : (setPsr p s).inReset = s.inReset := rfl
@[simp] theorem setPsr_scr (p : Psr) (s : State) : (setPsr p s).scr = s.scr := rfl
@[simp] theorem setPsr_sct (p : Psr) (s : State) : (setPsr p s).sct = s.sct := rfl
@[simp] theorem setPsr_pins (p : Psr) (s : State) : (setPsr p s).pins = s.pins := rfl
@[simp] theorem setPsr_dir (p : Psr) (s : State) : (setPsr p s).dir = s.dir := rfl
@[simp] theorem setPsr_degrees (p : Psr) (s : State) : (setPsr p s).degrees = s.degrees := rfl
@[simp] theorem setPsr_spm (p : Psr) (s : State) : (setPsr p s).spm = s.spm := rfl
@[simp] theorem setPsr_org (p : Psr) (s : State) : (setPsr p s).org = s.org := rfl
@[simp] theorem setPsr_tdb (p : Psr) (s : State) : (setPsr p s).tdb = s.tdb := rfl
@[simp] theorem setPsr_slots (p : Psr) (s : State) : (setPsr p s).slots = s.slots := rfl
@[simp] theorem setPsr_reqQueue (p : Psr) (s : State) : (setPsr p s).reqQueue = s.reqQueue := rfl
@[simp] theorem setPsr_pen (p : Psr) (s : State) : (setPsr p s).pen = s.pen := rfl
@[simp] theorem setPsr_lrp (p : Psr) (s : State) : (setPsr p s).lrp = s.lrp := rfl
@[simp] theorem setPsr_ntf (p : Psr) (s : State) : (setPsr p s).ntf = s.ntf := rfl
@[simp] theorem setPsr_ownNumber (p : Psr) (s : State) : (setPsr p s).ownNumber = s.ownNumber := rfl
@[simp] theorem setPsr_impaired (p : Psr) (s : State) : (setPsr p s).impaired = s.impaired := rfl
@[simp] theorem setPsr_transmits (p : Psr) (s : State) : (setPsr p s).transmits = s.transmits := rfl
@[simp] theorem setPsr_active (p : Psr) (s : State) : (setPsr p s).active = s.active := rfl
@[simp] theorem setPsr_beingTaken (p : Psr) (s : State) : (setPsr p s).beingTaken = s.beingTaken := rfl
@[simp] theorem setPsr_notify (p : Psr) (s : State) : (setPsr p s).notify = s.notify := rfl
@[simp] theorem setPsr_anyRunning (p : Psr) (s : State) : (setPsr p s).anyRunning = s.anyRunning := rfl
@[simp] theorem setPsr_slot (p : Psr) (s : State) (k : Nat) : (setPsr p s).slot k = s.slot k := rfl
@[simp] theorem setPsr_slotState (p : Psr) (s : State) (k : Nat) : (setPsr p s).slotState k = s.slotState k := rfl
@[simp] theorem setPsr_entry (p : Psr) (s : State) (k : Nat) : (setPsr p s).entry k = s.entry k := rfl
@[simp] theorem setPsr_numberOf (p : Psr) (s : State) (k : Uid) : (setPsr p s).numberOf k = s.numberOf k := rfl
@[simp] theorem setPsr_lolLevel (p : Psr) (s : State) (k : Nat) : (setPsr p s).lolLevel k = s.lolLevel k := rfl
@[simp] theorem setPsr_otherIntentPairs (p : Psr) (s : State) (k : Nat) : (setPsr p s).otherIntentPairs k = s.otherIntentPairs k := rfl

@[simp] theorem setHeld_pending (h : List EpochAsk) (s : State) : (setHeld h s).pending = s.pending := rfl
@[simp] theorem setHeld_inReset (h : List EpochAsk) (s : State) : (setHeld h s).inReset = s.inReset := rfl
@[simp] theorem setHeld_scr (h : List EpochAsk) (s : State) : (setHeld h s).scr = s.scr := rfl
@[simp] theorem setHeld_sct (h : List EpochAsk) (s : State) : (setHeld h s).sct = s.sct := rfl
@[simp] theorem setHeld_pins (h : List EpochAsk) (s : State) : (setHeld h s).pins = s.pins := rfl
@[simp] theorem setHeld_dir (h : List EpochAsk) (s : State) : (setHeld h s).dir = s.dir := rfl
@[simp] theorem setHeld_degrees (h : List EpochAsk) (s : State) : (setHeld h s).degrees = s.degrees := rfl
@[simp] theorem setHeld_spm (h : List EpochAsk) (s : State) : (setHeld h s).spm = s.spm := rfl
@[simp] theorem setHeld_org (h : List EpochAsk) (s : State) : (setHeld h s).org = s.org := rfl
@[simp] theorem setHeld_slots (h : List EpochAsk) (s : State) : (setHeld h s).slots = s.slots := rfl
@[simp] theorem setHeld_reqQueue (h : List EpochAsk) (s : State) : (setHeld h s).reqQueue = s.reqQueue := rfl
@[simp] theorem setHeld_pen (h : List EpochAsk) (s : State) : (setHeld h s).pen = s.pen := rfl
@[simp] theorem setHeld_lrp (h : List EpochAsk) (s : State) : (setHeld h s).lrp = s.lrp := rfl
@[simp] theorem setHeld_ntf (h : List EpochAsk) (s : State) : (setHeld h s).ntf = s.ntf := rfl
@[simp] theorem setHeld_psr (h : List EpochAsk) (s : State) : (setHeld h s).psr = s.psr := rfl
@[simp] theorem setHeld_ownUid (h : List EpochAsk) (s : State) : (setHeld h s).ownUid = s.ownUid := rfl
@[simp] theorem setHeld_ownNumber (h : List EpochAsk) (s : State) : (setHeld h s).ownNumber = s.ownNumber := rfl
@[simp] theorem setHeld_impaired (h : List EpochAsk) (s : State) : (setHeld h s).impaired = s.impaired := rfl
@[simp] theorem setHeld_transmits (h : List EpochAsk) (s : State) : (setHeld h s).transmits = s.transmits := rfl
@[simp] theorem setHeld_active (h : List EpochAsk) (s : State) : (setHeld h s).active = s.active := rfl
@[simp] theorem setHeld_beingTaken (h : List EpochAsk) (s : State) : (setHeld h s).beingTaken = s.beingTaken := rfl
@[simp] theorem setHeld_notify (h : List EpochAsk) (s : State) : (setHeld h s).notify = s.notify := rfl
@[simp] theorem setHeld_anyRunning (h : List EpochAsk) (s : State) : (setHeld h s).anyRunning = s.anyRunning := rfl
@[simp] theorem setHeld_slot (h : List EpochAsk) (s : State) (k : Nat) : (setHeld h s).slot k = s.slot k := rfl
@[simp] theorem setHeld_slotState (h : List EpochAsk) (s : State) (k : Nat) : (setHeld h s).slotState k = s.slotState k := rfl
@[simp] theorem setHeld_entry (h : List EpochAsk) (s : State) (k : Nat) : (setHeld h s).entry k = s.entry k := rfl
@[simp] theorem setHeld_numberOf (h : List EpochAsk) (s : State) (k : Uid) : (setHeld h s).numberOf k = s.numberOf k := rfl
@[simp] theorem setHeld_lolLevel (h : List EpochAsk) (s : State) (k : Nat) : (setHeld h s).lolLevel k = s.lolLevel k := rfl
@[simp] theorem setHeld_classOf (h : List EpochAsk) (s : State) (k : Nat) : (setHeld h s).classOf k = s.classOf k := rfl
@[simp] theorem setHeld_monitorParams (h : List EpochAsk) (s : State) (k : Nat) : (setHeld h s).monitorParams k = s.monitorParams k := rfl
@[simp] theorem setHeld_otherIntentPairs (h : List EpochAsk) (s : State) (k : Nat) : (setHeld h s).otherIntentPairs k = s.otherIntentPairs k := rfl
@[simp] theorem setHeld_intentPeriod (h : List EpochAsk) (s : State) : (setHeld h s).intentPeriod = s.intentPeriod := rfl

@[simp] theorem stageReport_pending (n : Nat) (u : Uid) (r : Report) (s : State) : (stageReport n u r s).pending = s.pending := rfl
@[simp] theorem stageReport_inReset (n : Nat) (u : Uid) (r : Report) (s : State) : (stageReport n u r s).inReset = s.inReset := rfl
@[simp] theorem stageReport_scr (n : Nat) (u : Uid) (r : Report) (s : State) : (stageReport n u r s).scr = s.scr := rfl
@[simp] theorem stageReport_sct (n : Nat) (u : Uid) (r : Report) (s : State) : (stageReport n u r s).sct = s.sct := rfl
@[simp] theorem stageReport_pins (n : Nat) (u : Uid) (r : Report) (s : State) : (stageReport n u r s).pins = s.pins := rfl
@[simp] theorem stageReport_dir (n : Nat) (u : Uid) (r : Report) (s : State) : (stageReport n u r s).dir = s.dir := rfl
@[simp] theorem stageReport_degrees (n : Nat) (u : Uid) (r : Report) (s : State) : (stageReport n u r s).degrees = s.degrees := rfl
@[simp] theorem stageReport_spm (n : Nat) (u : Uid) (r : Report) (s : State) : (stageReport n u r s).spm = s.spm := rfl
@[simp] theorem stageReport_org (n : Nat) (u : Uid) (r : Report) (s : State) : (stageReport n u r s).org = s.org := rfl
@[simp] theorem stageReport_slots (n : Nat) (u : Uid) (r : Report) (s : State) : (stageReport n u r s).slots = s.slots := rfl
@[simp] theorem stageReport_reqQueue (n : Nat) (u : Uid) (r : Report) (s : State) : (stageReport n u r s).reqQueue = s.reqQueue := rfl
@[simp] theorem stageReport_pen (n : Nat) (u : Uid) (r : Report) (s : State) : (stageReport n u r s).pen = s.pen := rfl
@[simp] theorem stageReport_lrp (n : Nat) (u : Uid) (r : Report) (s : State) : (stageReport n u r s).lrp = s.lrp := rfl
@[simp] theorem stageReport_ntf (n : Nat) (u : Uid) (r : Report) (s : State) : (stageReport n u r s).ntf = s.ntf := rfl
@[simp] theorem stageReport_psr (n : Nat) (u : Uid) (r : Report) (s : State) : (stageReport n u r s).psr = s.psr := rfl
@[simp] theorem stageReport_ownUid (n : Nat) (u : Uid) (r : Report) (s : State) : (stageReport n u r s).ownUid = s.ownUid := rfl
@[simp] theorem stageReport_ownNumber (n : Nat) (u : Uid) (r : Report) (s : State) : (stageReport n u r s).ownNumber = s.ownNumber := rfl
@[simp] theorem stageReport_impaired (n : Nat) (u : Uid) (r : Report) (s : State) : (stageReport n u r s).impaired = s.impaired := rfl
@[simp] theorem stageReport_transmits (n : Nat) (u : Uid) (r : Report) (s : State) : (stageReport n u r s).transmits = s.transmits := rfl
@[simp] theorem stageReport_active (n : Nat) (u : Uid) (r : Report) (s : State) : (stageReport n u r s).active = s.active := rfl
@[simp] theorem stageReport_beingTaken (n : Nat) (u : Uid) (r : Report) (s : State) : (stageReport n u r s).beingTaken = s.beingTaken := rfl
@[simp] theorem stageReport_notify (n : Nat) (u : Uid) (r : Report) (s : State) : (stageReport n u r s).notify = s.notify := rfl
@[simp] theorem stageReport_anyRunning (n : Nat) (u : Uid) (r : Report) (s : State) : (stageReport n u r s).anyRunning = s.anyRunning := rfl
@[simp] theorem stageReport_slot (n : Nat) (u : Uid) (r : Report) (s : State) (k : Nat) : (stageReport n u r s).slot k = s.slot k := rfl
@[simp] theorem stageReport_slotState (n : Nat) (u : Uid) (r : Report) (s : State) (k : Nat) : (stageReport n u r s).slotState k = s.slotState k := rfl
@[simp] theorem stageReport_entry (n : Nat) (u : Uid) (r : Report) (s : State) (k : Nat) : (stageReport n u r s).entry k = s.entry k := rfl
@[simp] theorem stageReport_numberOf (n : Nat) (u : Uid) (r : Report) (s : State) (k : Uid) : (stageReport n u r s).numberOf k = s.numberOf k := rfl
@[simp] theorem stageReport_lolLevel (n : Nat) (u : Uid) (r : Report) (s : State) (k : Nat) : (stageReport n u r s).lolLevel k = s.lolLevel k := rfl
@[simp] theorem stageReport_classOf (n : Nat) (u : Uid) (r : Report) (s : State) (k : Nat) : (stageReport n u r s).classOf k = s.classOf k := rfl
@[simp] theorem stageReport_monitorParams (n : Nat) (u : Uid) (r : Report) (s : State) (k : Nat) : (stageReport n u r s).monitorParams k = s.monitorParams k := rfl
@[simp] theorem stageReport_otherIntentPairs (n : Nat) (u : Uid) (r : Report) (s : State) (k : Nat) : (stageReport n u r s).otherIntentPairs k = s.otherIntentPairs k := rfl
@[simp] theorem stageReport_intentPeriod (n : Nat) (u : Uid) (r : Report) (s : State) : (stageReport n u r s).intentPeriod = s.intentPeriod := rfl

@[simp] theorem setStagedIntent_pending (p : Nat) (x : Option StagedIntent) (b : Bool) (s : State) : (setStagedIntent p x b s).pending = s.pending := rfl
@[simp] theorem setStagedIntent_inReset (p : Nat) (x : Option StagedIntent) (b : Bool) (s : State) : (setStagedIntent p x b s).inReset = s.inReset := rfl
@[simp] theorem setStagedIntent_scr (p : Nat) (x : Option StagedIntent) (b : Bool) (s : State) : (setStagedIntent p x b s).scr = s.scr := rfl
@[simp] theorem setStagedIntent_sct (p : Nat) (x : Option StagedIntent) (b : Bool) (s : State) : (setStagedIntent p x b s).sct = s.sct := rfl
@[simp] theorem setStagedIntent_pins (p : Nat) (x : Option StagedIntent) (b : Bool) (s : State) : (setStagedIntent p x b s).pins = s.pins := rfl
@[simp] theorem setStagedIntent_dir (p : Nat) (x : Option StagedIntent) (b : Bool) (s : State) : (setStagedIntent p x b s).dir = s.dir := rfl
@[simp] theorem setStagedIntent_degrees (p : Nat) (x : Option StagedIntent) (b : Bool) (s : State) : (setStagedIntent p x b s).degrees = s.degrees := rfl
@[simp] theorem setStagedIntent_spm (p : Nat) (x : Option StagedIntent) (b : Bool) (s : State) : (setStagedIntent p x b s).spm = s.spm := rfl
@[simp] theorem setStagedIntent_org (p : Nat) (x : Option StagedIntent) (b : Bool) (s : State) : (setStagedIntent p x b s).org = s.org := rfl
@[simp] theorem setStagedIntent_slots (p : Nat) (x : Option StagedIntent) (b : Bool) (s : State) : (setStagedIntent p x b s).slots = s.slots := rfl
@[simp] theorem setStagedIntent_reqQueue (p : Nat) (x : Option StagedIntent) (b : Bool) (s : State) : (setStagedIntent p x b s).reqQueue = s.reqQueue := rfl
@[simp] theorem setStagedIntent_pen (p : Nat) (x : Option StagedIntent) (b : Bool) (s : State) : (setStagedIntent p x b s).pen = s.pen := rfl
@[simp] theorem setStagedIntent_lrp (p : Nat) (x : Option StagedIntent) (b : Bool) (s : State) : (setStagedIntent p x b s).lrp = s.lrp := rfl
@[simp] theorem setStagedIntent_ntf (p : Nat) (x : Option StagedIntent) (b : Bool) (s : State) : (setStagedIntent p x b s).ntf = s.ntf := rfl
@[simp] theorem setStagedIntent_psr (p : Nat) (x : Option StagedIntent) (b : Bool) (s : State) : (setStagedIntent p x b s).psr = s.psr := rfl
@[simp] theorem setStagedIntent_ownUid (p : Nat) (x : Option StagedIntent) (b : Bool) (s : State) : (setStagedIntent p x b s).ownUid = s.ownUid := rfl
@[simp] theorem setStagedIntent_ownNumber (p : Nat) (x : Option StagedIntent) (b : Bool) (s : State) : (setStagedIntent p x b s).ownNumber = s.ownNumber := rfl
@[simp] theorem setStagedIntent_impaired (p : Nat) (x : Option StagedIntent) (b : Bool) (s : State) : (setStagedIntent p x b s).impaired = s.impaired := rfl
@[simp] theorem setStagedIntent_transmits (p : Nat) (x : Option StagedIntent) (b : Bool) (s : State) : (setStagedIntent p x b s).transmits = s.transmits := rfl
@[simp] theorem setStagedIntent_active (p : Nat) (x : Option StagedIntent) (b : Bool) (s : State) : (setStagedIntent p x b s).active = s.active := rfl
@[simp] theorem setStagedIntent_beingTaken (p : Nat) (x : Option StagedIntent) (b : Bool) (s : State) : (setStagedIntent p x b s).beingTaken = s.beingTaken := rfl
@[simp] theorem setStagedIntent_notify (p : Nat) (x : Option StagedIntent) (b : Bool) (s : State) : (setStagedIntent p x b s).notify = s.notify := rfl
@[simp] theorem setStagedIntent_anyRunning (p : Nat) (x : Option StagedIntent) (b : Bool) (s : State) : (setStagedIntent p x b s).anyRunning = s.anyRunning := rfl
@[simp] theorem setStagedIntent_slot (p : Nat) (x : Option StagedIntent) (b : Bool) (s : State) (k : Nat) : (setStagedIntent p x b s).slot k = s.slot k := rfl
@[simp] theorem setStagedIntent_slotState (p : Nat) (x : Option StagedIntent) (b : Bool) (s : State) (k : Nat) : (setStagedIntent p x b s).slotState k = s.slotState k := rfl
@[simp] theorem setStagedIntent_entry (p : Nat) (x : Option StagedIntent) (b : Bool) (s : State) (k : Nat) : (setStagedIntent p x b s).entry k = s.entry k := rfl
@[simp] theorem setStagedIntent_numberOf (p : Nat) (x : Option StagedIntent) (b : Bool) (s : State) (k : Uid) : (setStagedIntent p x b s).numberOf k = s.numberOf k := rfl
@[simp] theorem setStagedIntent_lolLevel (p : Nat) (x : Option StagedIntent) (b : Bool) (s : State) (k : Nat) : (setStagedIntent p x b s).lolLevel k = s.lolLevel k := rfl
@[simp] theorem setStagedIntent_classOf (p : Nat) (x : Option StagedIntent) (b : Bool) (s : State) (k : Nat) : (setStagedIntent p x b s).classOf k = s.classOf k := rfl
@[simp] theorem setStagedIntent_monitorParams (p : Nat) (x : Option StagedIntent) (b : Bool) (s : State) (k : Nat) : (setStagedIntent p x b s).monitorParams k = s.monitorParams k := rfl
@[simp] theorem setStagedIntent_otherIntentPairs (p : Nat) (x : Option StagedIntent) (b : Bool) (s : State) (k : Nat) : (setStagedIntent p x b s).otherIntentPairs k = s.otherIntentPairs k := rfl
@[simp] theorem setStagedIntent_intentPeriod (p : Nat) (x : Option StagedIntent) (b : Bool) (s : State) : (setStagedIntent p x b s).intentPeriod = s.intentPeriod := rfl

@[simp] theorem setNtf_pending (x : Ntf) (s : State) : (setNtf x s).pending = s.pending := rfl
@[simp] theorem setNtf_inReset (x : Ntf) (s : State) : (setNtf x s).inReset = s.inReset := rfl
@[simp] theorem setNtf_scr (x : Ntf) (s : State) : (setNtf x s).scr = s.scr := rfl
@[simp] theorem setNtf_sct (x : Ntf) (s : State) : (setNtf x s).sct = s.sct := rfl
@[simp] theorem setNtf_pins (x : Ntf) (s : State) : (setNtf x s).pins = s.pins := rfl
@[simp] theorem setNtf_dir (x : Ntf) (s : State) : (setNtf x s).dir = s.dir := rfl
@[simp] theorem setNtf_degrees (x : Ntf) (s : State) : (setNtf x s).degrees = s.degrees := rfl
@[simp] theorem setNtf_spm (x : Ntf) (s : State) : (setNtf x s).spm = s.spm := rfl
@[simp] theorem setNtf_org (x : Ntf) (s : State) : (setNtf x s).org = s.org := rfl
@[simp] theorem setNtf_tdb (x : Ntf) (s : State) : (setNtf x s).tdb = s.tdb := rfl
@[simp] theorem setNtf_slots (x : Ntf) (s : State) : (setNtf x s).slots = s.slots := rfl
@[simp] theorem setNtf_reqQueue (x : Ntf) (s : State) : (setNtf x s).reqQueue = s.reqQueue := rfl
@[simp] theorem setNtf_pen (x : Ntf) (s : State) : (setNtf x s).pen = s.pen := rfl
@[simp] theorem setNtf_lrp (x : Ntf) (s : State) : (setNtf x s).lrp = s.lrp := rfl
@[simp] theorem setNtf_psr (x : Ntf) (s : State) : (setNtf x s).psr = s.psr := rfl
@[simp] theorem setNtf_ownUid (x : Ntf) (s : State) : (setNtf x s).ownUid = s.ownUid := rfl
@[simp] theorem setNtf_ownNumber (x : Ntf) (s : State) : (setNtf x s).ownNumber = s.ownNumber := rfl
@[simp] theorem setNtf_impaired (x : Ntf) (s : State) : (setNtf x s).impaired = s.impaired := rfl
@[simp] theorem setNtf_transmits (x : Ntf) (s : State) : (setNtf x s).transmits = s.transmits := rfl
@[simp] theorem setNtf_active (x : Ntf) (s : State) : (setNtf x s).active = s.active := rfl
@[simp] theorem setNtf_beingTaken (x : Ntf) (s : State) : (setNtf x s).beingTaken = s.beingTaken := rfl
@[simp] theorem setNtf_anyRunning (x : Ntf) (s : State) : (setNtf x s).anyRunning = s.anyRunning := rfl
@[simp] theorem setNtf_slot (x : Ntf) (s : State) (k : Nat) : (setNtf x s).slot k = s.slot k := rfl
@[simp] theorem setNtf_slotState (x : Ntf) (s : State) (k : Nat) : (setNtf x s).slotState k = s.slotState k := rfl
@[simp] theorem setNtf_entry (x : Ntf) (s : State) (k : Nat) : (setNtf x s).entry k = s.entry k := rfl
@[simp] theorem setNtf_numberOf (x : Ntf) (s : State) (k : Uid) : (setNtf x s).numberOf k = s.numberOf k := rfl
@[simp] theorem setNtf_lolLevel (x : Ntf) (s : State) (k : Nat) : (setNtf x s).lolLevel k = s.lolLevel k := rfl
@[simp] theorem setNtf_classOf (x : Ntf) (s : State) (k : Nat) : (setNtf x s).classOf k = s.classOf k := rfl
@[simp] theorem setNtf_monitorParams (x : Ntf) (s : State) (k : Nat) : (setNtf x s).monitorParams k = s.monitorParams k := rfl
@[simp] theorem setNtf_otherIntentPairs (x : Ntf) (s : State) (k : Nat) : (setNtf x s).otherIntentPairs k = s.otherIntentPairs k := rfl
@[simp] theorem setNtf_intentPeriod (x : Ntf) (s : State) : (setNtf x s).intentPeriod = s.intentPeriod := rfl

@[simp] theorem orgStop_pending (s : State) : (orgStop s).pending = s.pending := rfl
@[simp] theorem orgStop_inReset (s : State) : (orgStop s).inReset = s.inReset := rfl
@[simp] theorem orgStop_scr (s : State) : (orgStop s).scr = s.scr := rfl
@[simp] theorem orgStop_sct (s : State) : (orgStop s).sct = s.sct := rfl
@[simp] theorem orgStop_pins (s : State) : (orgStop s).pins = s.pins := rfl
@[simp] theorem orgStop_dir (s : State) : (orgStop s).dir = s.dir := rfl
@[simp] theorem orgStop_degrees (s : State) : (orgStop s).degrees = s.degrees := rfl
@[simp] theorem orgStop_spm (s : State) : (orgStop s).spm = s.spm := rfl
@[simp] theorem orgStop_tdb (s : State) : (orgStop s).tdb = s.tdb := rfl
@[simp] theorem orgStop_slots (s : State) : (orgStop s).slots = s.slots := rfl
@[simp] theorem orgStop_reqQueue (s : State) : (orgStop s).reqQueue = s.reqQueue := rfl
@[simp] theorem orgStop_pen (s : State) : (orgStop s).pen = s.pen := rfl
@[simp] theorem orgStop_lrp (s : State) : (orgStop s).lrp = s.lrp := rfl
@[simp] theorem orgStop_ntf (s : State) : (orgStop s).ntf = s.ntf := rfl
@[simp] theorem orgStop_psr (s : State) : (orgStop s).psr = s.psr := rfl
@[simp] theorem orgStop_ownUid (s : State) : (orgStop s).ownUid = s.ownUid := rfl
@[simp] theorem orgStop_ownNumber (s : State) : (orgStop s).ownNumber = s.ownNumber := rfl
@[simp] theorem orgStop_impaired (s : State) : (orgStop s).impaired = s.impaired := rfl
@[simp] theorem orgStop_transmits (s : State) : (orgStop s).transmits = s.transmits := rfl
@[simp] theorem orgStop_active (s : State) : (orgStop s).active = s.active := rfl
@[simp] theorem orgStop_beingTaken (s : State) : (orgStop s).beingTaken = s.beingTaken := rfl
@[simp] theorem orgStop_notify (s : State) : (orgStop s).notify = s.notify := rfl
@[simp] theorem orgStop_anyRunning (s : State) : (orgStop s).anyRunning = s.anyRunning := rfl
@[simp] theorem orgStop_slot (s : State) (k : Nat) : (orgStop s).slot k = s.slot k := rfl
@[simp] theorem orgStop_slotState (s : State) (k : Nat) : (orgStop s).slotState k = s.slotState k := rfl
@[simp] theorem orgStop_entry (s : State) (k : Nat) : (orgStop s).entry k = s.entry k := rfl
@[simp] theorem orgStop_numberOf (s : State) (k : Uid) : (orgStop s).numberOf k = s.numberOf k := rfl
@[simp] theorem orgStop_lolLevel (s : State) (k : Nat) : (orgStop s).lolLevel k = s.lolLevel k := rfl
@[simp] theorem orgStop_classOf (s : State) (k : Nat) : (orgStop s).classOf k = s.classOf k := rfl
@[simp] theorem orgStop_monitorParams (s : State) (k : Nat) : (orgStop s).monitorParams k = s.monitorParams k := rfl
@[simp] theorem orgStop_otherIntentPairs (s : State) (k : Nat) : (orgStop s).otherIntentPairs k = s.otherIntentPairs k := rfl
@[simp] theorem orgStop_intentPeriod (s : State) : (orgStop s).intentPeriod = s.intentPeriod := rfl

@[simp] theorem withRxQueue_pending (s : State) (q : List Frame) : ((s.withRxQueue q)).pending = s.pending := rfl
@[simp] theorem withRxQueue_inReset (s : State) (q : List Frame) : ((s.withRxQueue q)).inReset = s.inReset := rfl
@[simp] theorem withRxQueue_sct (s : State) (q : List Frame) : ((s.withRxQueue q)).sct = s.sct := rfl
@[simp] theorem withRxQueue_pins (s : State) (q : List Frame) : ((s.withRxQueue q)).pins = s.pins := rfl
@[simp] theorem withRxQueue_dir (s : State) (q : List Frame) : ((s.withRxQueue q)).dir = s.dir := rfl
@[simp] theorem withRxQueue_degrees (s : State) (q : List Frame) : ((s.withRxQueue q)).degrees = s.degrees := rfl
@[simp] theorem withRxQueue_spm (s : State) (q : List Frame) : ((s.withRxQueue q)).spm = s.spm := rfl
@[simp] theorem withRxQueue_org (s : State) (q : List Frame) : ((s.withRxQueue q)).org = s.org := rfl
@[simp] theorem withRxQueue_tdb (s : State) (q : List Frame) : ((s.withRxQueue q)).tdb = s.tdb := rfl
@[simp] theorem withRxQueue_slots (s : State) (q : List Frame) : ((s.withRxQueue q)).slots = s.slots := rfl
@[simp] theorem withRxQueue_reqQueue (s : State) (q : List Frame) : ((s.withRxQueue q)).reqQueue = s.reqQueue := rfl
@[simp] theorem withRxQueue_pen (s : State) (q : List Frame) : ((s.withRxQueue q)).pen = s.pen := rfl
@[simp] theorem withRxQueue_lrp (s : State) (q : List Frame) : ((s.withRxQueue q)).lrp = s.lrp := rfl
@[simp] theorem withRxQueue_ntf (s : State) (q : List Frame) : ((s.withRxQueue q)).ntf = s.ntf := rfl
@[simp] theorem withRxQueue_psr (s : State) (q : List Frame) : ((s.withRxQueue q)).psr = s.psr := rfl
@[simp] theorem withRxQueue_ownUid (s : State) (q : List Frame) : ((s.withRxQueue q)).ownUid = s.ownUid := rfl
@[simp] theorem withRxQueue_ownNumber (s : State) (q : List Frame) : ((s.withRxQueue q)).ownNumber = s.ownNumber := rfl
@[simp] theorem withRxQueue_transmits (s : State) (q : List Frame) : ((s.withRxQueue q)).transmits = s.transmits := rfl
@[simp] theorem withRxQueue_active (s : State) (q : List Frame) : ((s.withRxQueue q)).active = s.active := rfl
@[simp] theorem withRxQueue_beingTaken (s : State) (q : List Frame) : ((s.withRxQueue q)).beingTaken = s.beingTaken := rfl
@[simp] theorem withRxQueue_notify (s : State) (q : List Frame) : ((s.withRxQueue q)).notify = s.notify := rfl
@[simp] theorem withRxQueue_anyRunning (s : State) (q : List Frame) : ((s.withRxQueue q)).anyRunning = s.anyRunning := rfl
@[simp] theorem withRxQueue_slot (s : State) (q : List Frame) (k : Nat) : ((s.withRxQueue q)).slot k = s.slot k := rfl
@[simp] theorem withRxQueue_slotState (s : State) (q : List Frame) (k : Nat) : ((s.withRxQueue q)).slotState k = s.slotState k := rfl
@[simp] theorem withRxQueue_entry (s : State) (q : List Frame) (k : Nat) : ((s.withRxQueue q)).entry k = s.entry k := rfl
@[simp] theorem withRxQueue_numberOf (s : State) (q : List Frame) (k : Uid) : ((s.withRxQueue q)).numberOf k = s.numberOf k := rfl
@[simp] theorem withRxQueue_lolLevel (s : State) (q : List Frame) (k : Nat) : ((s.withRxQueue q)).lolLevel k = s.lolLevel k := rfl
@[simp] theorem withRxQueue_classOf (s : State) (q : List Frame) (k : Nat) : ((s.withRxQueue q)).classOf k = s.classOf k := rfl
@[simp] theorem withRxQueue_monitorParams (s : State) (q : List Frame) (k : Nat) : ((s.withRxQueue q)).monitorParams k = s.monitorParams k := rfl
@[simp] theorem withRxQueue_otherIntentPairs (s : State) (q : List Frame) (k : Nat) : ((s.withRxQueue q)).otherIntentPairs k = s.otherIntentPairs k := rfl
@[simp] theorem withRxQueue_intentPeriod (s : State) (q : List Frame) : ((s.withRxQueue q)).intentPeriod = s.intentPeriod := rfl

@[simp] theorem answered_pending (s : State) (n : Nat) (c : Byte) (st : Status) (cl : Bool) (p : List Byte) : ((s.answered n c st cl p)).pending = s.pending := rfl
@[simp] theorem answered_inReset (s : State) (n : Nat) (c : Byte) (st : Status) (cl : Bool) (p : List Byte) : ((s.answered n c st cl p)).inReset = s.inReset := rfl
@[simp] theorem answered_scr (s : State) (n : Nat) (c : Byte) (st : Status) (cl : Bool) (p : List Byte) : ((s.answered n c st cl p)).scr = s.scr := rfl
@[simp] theorem answered_sct (s : State) (n : Nat) (c : Byte) (st : Status) (cl : Bool) (p : List Byte) : ((s.answered n c st cl p)).sct = s.sct := rfl
@[simp] theorem answered_pins (s : State) (n : Nat) (c : Byte) (st : Status) (cl : Bool) (p : List Byte) : ((s.answered n c st cl p)).pins = s.pins := rfl
@[simp] theorem answered_dir (s : State) (n : Nat) (c : Byte) (st : Status) (cl : Bool) (p : List Byte) : ((s.answered n c st cl p)).dir = s.dir := rfl
@[simp] theorem answered_degrees (s : State) (n : Nat) (c : Byte) (st : Status) (cl : Bool) (p : List Byte) : ((s.answered n c st cl p)).degrees = s.degrees := rfl
@[simp] theorem answered_spm (s : State) (n : Nat) (c : Byte) (st : Status) (cl : Bool) (p : List Byte) : ((s.answered n c st cl p)).spm = s.spm := rfl
@[simp] theorem answered_org (s : State) (n : Nat) (c : Byte) (st : Status) (cl : Bool) (p : List Byte) : ((s.answered n c st cl p)).org = s.org := rfl
@[simp] theorem answered_tdb (s : State) (n : Nat) (c : Byte) (st : Status) (cl : Bool) (p : List Byte) : ((s.answered n c st cl p)).tdb = s.tdb := rfl
@[simp] theorem answered_slots (s : State) (n : Nat) (c : Byte) (st : Status) (cl : Bool) (p : List Byte) : ((s.answered n c st cl p)).slots = s.slots := rfl
@[simp] theorem answered_reqQueue (s : State) (n : Nat) (c : Byte) (st : Status) (cl : Bool) (p : List Byte) : ((s.answered n c st cl p)).reqQueue = s.reqQueue := rfl
@[simp] theorem answered_pen (s : State) (n : Nat) (c : Byte) (st : Status) (cl : Bool) (p : List Byte) : ((s.answered n c st cl p)).pen = s.pen := rfl
@[simp] theorem answered_ntf (s : State) (n : Nat) (c : Byte) (st : Status) (cl : Bool) (p : List Byte) : ((s.answered n c st cl p)).ntf = s.ntf := rfl
@[simp] theorem answered_psr (s : State) (n : Nat) (c : Byte) (st : Status) (cl : Bool) (p : List Byte) : ((s.answered n c st cl p)).psr = s.psr := rfl
@[simp] theorem answered_ownUid (s : State) (n : Nat) (c : Byte) (st : Status) (cl : Bool) (p : List Byte) : ((s.answered n c st cl p)).ownUid = s.ownUid := rfl
@[simp] theorem answered_ownNumber (s : State) (n : Nat) (c : Byte) (st : Status) (cl : Bool) (p : List Byte) : ((s.answered n c st cl p)).ownNumber = s.ownNumber := rfl
@[simp] theorem answered_impaired (s : State) (n : Nat) (c : Byte) (st : Status) (cl : Bool) (p : List Byte) : ((s.answered n c st cl p)).impaired = s.impaired := rfl
@[simp] theorem answered_transmits (s : State) (n : Nat) (c : Byte) (st : Status) (cl : Bool) (p : List Byte) : ((s.answered n c st cl p)).transmits = s.transmits := rfl
@[simp] theorem answered_active (s : State) (n : Nat) (c : Byte) (st : Status) (cl : Bool) (p : List Byte) : ((s.answered n c st cl p)).active = s.active := rfl
@[simp] theorem answered_notify (s : State) (n : Nat) (c : Byte) (st : Status) (cl : Bool) (p : List Byte) : ((s.answered n c st cl p)).notify = s.notify := rfl
@[simp] theorem answered_anyRunning (s : State) (n : Nat) (c : Byte) (st : Status) (cl : Bool) (p : List Byte) : ((s.answered n c st cl p)).anyRunning = s.anyRunning := rfl
@[simp] theorem answered_slot (s : State) (n : Nat) (c : Byte) (st : Status) (cl : Bool) (p : List Byte) (k : Nat) : ((s.answered n c st cl p)).slot k = s.slot k := rfl
@[simp] theorem answered_slotState (s : State) (n : Nat) (c : Byte) (st : Status) (cl : Bool) (p : List Byte) (k : Nat) : ((s.answered n c st cl p)).slotState k = s.slotState k := rfl
@[simp] theorem answered_entry (s : State) (n : Nat) (c : Byte) (st : Status) (cl : Bool) (p : List Byte) (k : Nat) : ((s.answered n c st cl p)).entry k = s.entry k := rfl
@[simp] theorem answered_numberOf (s : State) (n : Nat) (c : Byte) (st : Status) (cl : Bool) (p : List Byte) (k : Uid) : ((s.answered n c st cl p)).numberOf k = s.numberOf k := rfl
@[simp] theorem answered_lolLevel (s : State) (n : Nat) (c : Byte) (st : Status) (cl : Bool) (p : List Byte) (k : Nat) : ((s.answered n c st cl p)).lolLevel k = s.lolLevel k := rfl
@[simp] theorem answered_classOf (s : State) (n : Nat) (c : Byte) (st : Status) (cl : Bool) (p : List Byte) (k : Nat) : ((s.answered n c st cl p)).classOf k = s.classOf k := rfl
@[simp] theorem answered_monitorParams (s : State) (n : Nat) (c : Byte) (st : Status) (cl : Bool) (p : List Byte) (k : Nat) : ((s.answered n c st cl p)).monitorParams k = s.monitorParams k := rfl
@[simp] theorem answered_otherIntentPairs (s : State) (n : Nat) (c : Byte) (st : Status) (cl : Bool) (p : List Byte) (k : Nat) : ((s.answered n c st cl p)).otherIntentPairs k = s.otherIntentPairs k := rfl
@[simp] theorem answered_intentPeriod (s : State) (n : Nat) (c : Byte) (st : Status) (cl : Bool) (p : List Byte) : ((s.answered n c st cl p)).intentPeriod = s.intentPeriod := rfl

@[simp] theorem raise_indications (i : Indication) (s : State) : (raise i s).ntf.indications = s.ntf.indications ||| i.mask := rfl
@[simp] theorem raise_enables (i : Indication) (s : State) : (raise i s).ntf.enables = s.ntf.enables := rfl
@[simp] theorem respond_number (c : Byte) (st : Status) (cl : Bool) (p : List Byte) (s : State) :
    (respond c st cl p s).lrp.number = s.lrp.number + 1 := rfl
@[simp] theorem respond_status (c : Byte) (st : Status) (cl : Bool) (p : List Byte) (s : State) : (respond c st cl p s).lrp.status = st := rfl
@[simp] theorem respond_payload (c : Byte) (st : Status) (cl : Bool) (p : List Byte) (s : State) : (respond c st cl p s).lrp.payload = p := rfl
@[simp] theorem respond_dataOut (c : Byte) (st : Status) (cl : Bool) (p : List Byte) (s : State) :
    (respond c st cl p s).lrp.dataOut = s.lrp.dataOut := rfl
@[simp] theorem setTxQueue_queue (q : List Body) (s : State) : (setTxQueue q s).sct.queue = q := rfl
@[simp] theorem setTxQueue_service (q : List Body) (s : State) : (setTxQueue q s).sct.service = s.sct.service := rfl
@[simp] theorem setTxQueue_mute (q : List Body) (s : State) : (setTxQueue q s).sct.mute = s.sct.mute := rfl
@[simp] theorem setService_service (v : Option Service) (s : State) : (setService v s).sct.service = v := rfl
@[simp] theorem setService_queue (v : Option Service) (s : State) : (setService v s).sct.queue = s.sct.queue := rfl
@[simp] theorem setService_mute (v : Option Service) (s : State) : (setService v s).sct.mute = s.sct.mute := rfl
@[simp] theorem setEntry_entries (n : Nat) (e : Option DirEntry) (s : State) : (setEntry n e s).dir.entries = s.dir.entries.set n e := rfl
@[simp] theorem setEntry_station (n : Nat) (e : Option DirEntry) (s : State) : (setEntry n e s).dir.station = s.dir.station := rfl
@[simp] theorem setEntry_candidate (n : Nat) (e : Option DirEntry) (s : State) : (setEntry n e s).dir.candidate = s.dir.candidate := rfl
@[simp] theorem setEntry_transmits (n : Nat) (e : Option DirEntry) (s : State) : (setEntry n e s).transmits = s.transmits := rfl
@[simp] theorem setEntry_active (n : Nat) (e : Option DirEntry) (s : State) : (setEntry n e s).active = s.active := rfl
@[simp] theorem setEntry_ownNumber (n : Nat) (e : Option DirEntry) (s : State) : (setEntry n e s).ownNumber = s.ownNumber := rfl
@[simp] theorem setPen_pen (p : Pen) (s : State) : (setPen p s).pen = p := rfl
@[simp] theorem setPsr_psr (p : Psr) (s : State) : (setPsr p s).psr = p := rfl
@[simp] theorem setNtf_ntf (x : Ntf) (s : State) : (setNtf x s).ntf = x := rfl
@[simp] theorem setSlotState_slots (i : Nat) (st : SlotState) (s : State) :
    (setSlotState i st s).slots = s.slots.modify i (fun x => { x with state := st }) := rfl
@[simp] theorem setIntent_slots (i : Nat) (t : Intent) (s : State) :
    (setIntent i t s).slots = s.slots.modify i (fun x => { x with intent := t }) := rfl
@[simp] theorem freeSlot_slots (i : Nat) (s : State) :
    (freeSlot i s).slots = s.slots.modify i (fun _ => { state := .free, intent := .none }) := rfl
@[simp] theorem setDegree_degrees (d : Nat) (x : Degree) (s : State) : (setDegree d x s).degrees = s.degrees.set d x := rfl
@[simp] theorem setSpmDegree_spm_degrees (d : Nat) (x : SpmDegree) (s : State) : (setSpmDegree d x s).spm.degrees = s.spm.degrees.set d x := rfl
@[simp] theorem withRxQueue_rxQueue (s : State) (q : List Frame) : (s.withRxQueue q).scr.rxQueue = q := rfl

end Sys2Proof.Machine
end

