-- ==== Sys2Proof/Laws/Frames.lean ====
section
/-! SUPPORT. What the shared operations leave alone: for each, one lemma that names every field it never changes, and its parts. -/

set_option linter.unusedTactic false
set_option linter.unnecessarySeqFocus false

namespace Sys2Proof.Machine

/-- A fold keeps what each of its steps keeps. -/
theorem foldl_keeps {α β : Type} (f : State → α → State) (g : State → β) (h : ∀ s a, g (f s a) = g s) (l : List α) (s : State) :
    g (l.foldl f s) = g s := by
  induction l generalizing s with
  | nil => rfl
  | cons a l ih => rw [List.foldl_cons, ih, h]

theorem raiseIf_keeps (c : Bool) (i : Indication) (s : State) :
    (raiseIf c i s).pending = s.pending ∧ (raiseIf c i s).inReset = s.inReset ∧ (raiseIf c i s).scr = s.scr ∧ (raiseIf c i s).sct = s.sct ∧ (raiseIf c i s).pins = s.pins ∧ (raiseIf c i s).dir = s.dir ∧ (raiseIf c i s).degrees = s.degrees ∧ (raiseIf c i s).spm = s.spm ∧ (raiseIf c i s).org = s.org ∧ (raiseIf c i s).tdb = s.tdb ∧ (raiseIf c i s).slots = s.slots ∧ (raiseIf c i s).reqQueue = s.reqQueue ∧ (raiseIf c i s).pen = s.pen ∧ (raiseIf c i s).lrp = s.lrp ∧ (raiseIf c i s).psr = s.psr := by
  unfold raiseIf
  (repeat' split) <;> simp
@[simp] theorem raiseIf_pending (c : Bool) (i : Indication) (s : State) : (raiseIf c i s).pending = s.pending := (raiseIf_keeps c i s).1
@[simp] theorem raiseIf_inReset (c : Bool) (i : Indication) (s : State) : (raiseIf c i s).inReset = s.inReset := (raiseIf_keeps c i s).2.1
@[simp] theorem raiseIf_scr (c : Bool) (i : Indication) (s : State) : (raiseIf c i s).scr = s.scr := (raiseIf_keeps c i s).2.2.1
@[simp] theorem raiseIf_sct (c : Bool) (i : Indication) (s : State) : (raiseIf c i s).sct = s.sct := (raiseIf_keeps c i s).2.2.2.1
@[simp] theorem raiseIf_pins (c : Bool) (i : Indication) (s : State) : (raiseIf c i s).pins = s.pins := (raiseIf_keeps c i s).2.2.2.2.1
@[simp] theorem raiseIf_dir (c : Bool) (i : Indication) (s : State) : (raiseIf c i s).dir = s.dir := (raiseIf_keeps c i s).2.2.2.2.2.1
@[simp] theorem raiseIf_degrees (c : Bool) (i : Indication) (s : State) : (raiseIf c i s).degrees = s.degrees := (raiseIf_keeps c i s).2.2.2.2.2.2.1
@[simp] theorem raiseIf_spm (c : Bool) (i : Indication) (s : State) : (raiseIf c i s).spm = s.spm := (raiseIf_keeps c i s).2.2.2.2.2.2.2.1
@[simp] theorem raiseIf_org (c : Bool) (i : Indication) (s : State) : (raiseIf c i s).org = s.org := (raiseIf_keeps c i s).2.2.2.2.2.2.2.2.1
@[simp] theorem raiseIf_tdb (c : Bool) (i : Indication) (s : State) : (raiseIf c i s).tdb = s.tdb := (raiseIf_keeps c i s).2.2.2.2.2.2.2.2.2.1
@[simp] theorem raiseIf_slots (c : Bool) (i : Indication) (s : State) : (raiseIf c i s).slots = s.slots := (raiseIf_keeps c i s).2.2.2.2.2.2.2.2.2.2.1
@[simp] theorem raiseIf_reqQueue (c : Bool) (i : Indication) (s : State) : (raiseIf c i s).reqQueue = s.reqQueue := (raiseIf_keeps c i s).2.2.2.2.2.2.2.2.2.2.2.1
@[simp] theorem raiseIf_pen (c : Bool) (i : Indication) (s : State) : (raiseIf c i s).pen = s.pen := (raiseIf_keeps c i s).2.2.2.2.2.2.2.2.2.2.2.2.1
@[simp] theorem raiseIf_lrp (c : Bool) (i : Indication) (s : State) : (raiseIf c i s).lrp = s.lrp := (raiseIf_keeps c i s).2.2.2.2.2.2.2.2.2.2.2.2.2.1
@[simp] theorem raiseIf_psr (c : Bool) (i : Indication) (s : State) : (raiseIf c i s).psr = s.psr := (raiseIf_keeps c i s).2.2.2.2.2.2.2.2.2.2.2.2.2.2

theorem handOverPlain_keeps (f : Body) (s : State) :
    (handOverPlain f s).pending = s.pending ∧ (handOverPlain f s).inReset = s.inReset ∧ (handOverPlain f s).scr = s.scr ∧ (handOverPlain f s).pins = s.pins ∧ (handOverPlain f s).dir = s.dir ∧ (handOverPlain f s).degrees = s.degrees ∧ (handOverPlain f s).spm = s.spm ∧ (handOverPlain f s).org = s.org ∧ (handOverPlain f s).tdb = s.tdb ∧ (handOverPlain f s).slots = s.slots ∧ (handOverPlain f s).reqQueue = s.reqQueue ∧ (handOverPlain f s).pen = s.pen ∧ (handOverPlain f s).lrp = s.lrp ∧ (handOverPlain f s).psr = s.psr := by
  unfold handOverPlain
  (repeat' split) <;> simp
@[simp] theorem handOverPlain_pending (f : Body) (s : State) : (handOverPlain f s).pending = s.pending := (handOverPlain_keeps f s).1
@[simp] theorem handOverPlain_inReset (f : Body) (s : State) : (handOverPlain f s).inReset = s.inReset := (handOverPlain_keeps f s).2.1
@[simp] theorem handOverPlain_scr (f : Body) (s : State) : (handOverPlain f s).scr = s.scr := (handOverPlain_keeps f s).2.2.1
@[simp] theorem handOverPlain_pins (f : Body) (s : State) : (handOverPlain f s).pins = s.pins := (handOverPlain_keeps f s).2.2.2.1
@[simp] theorem handOverPlain_dir (f : Body) (s : State) : (handOverPlain f s).dir = s.dir := (handOverPlain_keeps f s).2.2.2.2.1
@[simp] theorem handOverPlain_degrees (f : Body) (s : State) : (handOverPlain f s).degrees = s.degrees := (handOverPlain_keeps f s).2.2.2.2.2.1
@[simp] theorem handOverPlain_spm (f : Body) (s : State) : (handOverPlain f s).spm = s.spm := (handOverPlain_keeps f s).2.2.2.2.2.2.1
@[simp] theorem handOverPlain_org (f : Body) (s : State) : (handOverPlain f s).org = s.org := (handOverPlain_keeps f s).2.2.2.2.2.2.2.1
@[simp] theorem handOverPlain_tdb (f : Body) (s : State) : (handOverPlain f s).tdb = s.tdb := (handOverPlain_keeps f s).2.2.2.2.2.2.2.2.1
@[simp] theorem handOverPlain_slots (f : Body) (s : State) : (handOverPlain f s).slots = s.slots := (handOverPlain_keeps f s).2.2.2.2.2.2.2.2.2.1
@[simp] theorem handOverPlain_reqQueue (f : Body) (s : State) : (handOverPlain f s).reqQueue = s.reqQueue := (handOverPlain_keeps f s).2.2.2.2.2.2.2.2.2.2.1
@[simp] theorem handOverPlain_pen (f : Body) (s : State) : (handOverPlain f s).pen = s.pen := (handOverPlain_keeps f s).2.2.2.2.2.2.2.2.2.2.2.1
@[simp] theorem handOverPlain_lrp (f : Body) (s : State) : (handOverPlain f s).lrp = s.lrp := (handOverPlain_keeps f s).2.2.2.2.2.2.2.2.2.2.2.2.1
@[simp] theorem handOverPlain_psr (f : Body) (s : State) : (handOverPlain f s).psr = s.psr := (handOverPlain_keeps f s).2.2.2.2.2.2.2.2.2.2.2.2.2

theorem announceRelease_keeps (i : Nat) (s : State) :
    (announceRelease i s).pending = s.pending ∧ (announceRelease i s).inReset = s.inReset ∧ (announceRelease i s).scr = s.scr ∧ (announceRelease i s).pins = s.pins ∧ (announceRelease i s).dir = s.dir ∧ (announceRelease i s).degrees = s.degrees ∧ (announceRelease i s).spm = s.spm ∧ (announceRelease i s).org = s.org ∧ (announceRelease i s).tdb = s.tdb ∧ (announceRelease i s).slots = s.slots ∧ (announceRelease i s).reqQueue = s.reqQueue ∧ (announceRelease i s).pen = s.pen ∧ (announceRelease i s).lrp = s.lrp ∧ (announceRelease i s).psr = s.psr := by
  unfold announceRelease
  (repeat' split) <;> simp
@[simp] theorem announceRelease_pending (i : Nat) (s : State) : (announceRelease i s).pending = s.pending := (announceRelease_keeps i s).1
@[simp] theorem announceRelease_inReset (i : Nat) (s : State) : (announceRelease i s).inReset = s.inReset := (announceRelease_keeps i s).2.1
@[simp] theorem announceRelease_scr (i : Nat) (s : State) : (announceRelease i s).scr = s.scr := (announceRelease_keeps i s).2.2.1
@[simp] theorem announceRelease_pins (i : Nat) (s : State) : (announceRelease i s).pins = s.pins := (announceRelease_keeps i s).2.2.2.1
@[simp] theorem announceRelease_dir (i : Nat) (s : State) : (announceRelease i s).dir = s.dir := (announceRelease_keeps i s).2.2.2.2.1
@[simp] theorem announceRelease_degrees (i : Nat) (s : State) : (announceRelease i s).degrees = s.degrees := (announceRelease_keeps i s).2.2.2.2.2.1
@[simp] theorem announceRelease_spm (i : Nat) (s : State) : (announceRelease i s).spm = s.spm := (announceRelease_keeps i s).2.2.2.2.2.2.1
@[simp] theorem announceRelease_org (i : Nat) (s : State) : (announceRelease i s).org = s.org := (announceRelease_keeps i s).2.2.2.2.2.2.2.1
@[simp] theorem announceRelease_tdb (i : Nat) (s : State) : (announceRelease i s).tdb = s.tdb := (announceRelease_keeps i s).2.2.2.2.2.2.2.2.1
@[simp] theorem announceRelease_slots (i : Nat) (s : State) : (announceRelease i s).slots = s.slots := (announceRelease_keeps i s).2.2.2.2.2.2.2.2.2.1
@[simp] theorem announceRelease_reqQueue (i : Nat) (s : State) : (announceRelease i s).reqQueue = s.reqQueue := (announceRelease_keeps i s).2.2.2.2.2.2.2.2.2.2.1
@[simp] theorem announceRelease_pen (i : Nat) (s : State) : (announceRelease i s).pen = s.pen := (announceRelease_keeps i s).2.2.2.2.2.2.2.2.2.2.2.1
@[simp] theorem announceRelease_lrp (i : Nat) (s : State) : (announceRelease i s).lrp = s.lrp := (announceRelease_keeps i s).2.2.2.2.2.2.2.2.2.2.2.2.1
@[simp] theorem announceRelease_psr (i : Nat) (s : State) : (announceRelease i s).psr = s.psr := (announceRelease_keeps i s).2.2.2.2.2.2.2.2.2.2.2.2.2

theorem loseIntent_keeps (i : Nat) (w : LostReason) (s : State) :
    (loseIntent i w s).pending = s.pending ∧ (loseIntent i w s).inReset = s.inReset ∧ (loseIntent i w s).scr = s.scr ∧ (loseIntent i w s).sct = s.sct ∧ (loseIntent i w s).pins = s.pins ∧ (loseIntent i w s).dir = s.dir ∧ (loseIntent i w s).degrees = s.degrees ∧ (loseIntent i w s).spm = s.spm ∧ (loseIntent i w s).org = s.org ∧ (loseIntent i w s).tdb = s.tdb ∧ (loseIntent i w s).reqQueue = s.reqQueue ∧ (loseIntent i w s).pen = s.pen ∧ (loseIntent i w s).lrp = s.lrp ∧ (loseIntent i w s).psr = s.psr := by
  unfold loseIntent
  (repeat' split) <;> simp
@[simp] theorem loseIntent_pending (i : Nat) (w : LostReason) (s : State) : (loseIntent i w s).pending = s.pending := (loseIntent_keeps i w s).1
@[simp] theorem loseIntent_inReset (i : Nat) (w : LostReason) (s : State) : (loseIntent i w s).inReset = s.inReset := (loseIntent_keeps i w s).2.1
@[simp] theorem loseIntent_scr (i : Nat) (w : LostReason) (s : State) : (loseIntent i w s).scr = s.scr := (loseIntent_keeps i w s).2.2.1
@[simp] theorem loseIntent_sct (i : Nat) (w : LostReason) (s : State) : (loseIntent i w s).sct = s.sct := (loseIntent_keeps i w s).2.2.2.1
@[simp] theorem loseIntent_pins (i : Nat) (w : LostReason) (s : State) : (loseIntent i w s).pins = s.pins := (loseIntent_keeps i w s).2.2.2.2.1
@[simp] theorem loseIntent_dir (i : Nat) (w : LostReason) (s : State) : (loseIntent i w s).dir = s.dir := (loseIntent_keeps i w s).2.2.2.2.2.1
@[simp] theorem loseIntent_degrees (i : Nat) (w : LostReason) (s : State) : (loseIntent i w s).degrees = s.degrees := (loseIntent_keeps i w s).2.2.2.2.2.2.1
@[simp] theorem loseIntent_spm (i : Nat) (w : LostReason) (s : State) : (loseIntent i w s).spm = s.spm := (loseIntent_keeps i w s).2.2.2.2.2.2.2.1
@[simp] theorem loseIntent_org (i : Nat) (w : LostReason) (s : State) : (loseIntent i w s).org = s.org := (loseIntent_keeps i w s).2.2.2.2.2.2.2.2.1
@[simp] theorem loseIntent_tdb (i : Nat) (w : LostReason) (s : State) : (loseIntent i w s).tdb = s.tdb := (loseIntent_keeps i w s).2.2.2.2.2.2.2.2.2.1
@[simp] theorem loseIntent_reqQueue (i : Nat) (w : LostReason) (s : State) : (loseIntent i w s).reqQueue = s.reqQueue := (loseIntent_keeps i w s).2.2.2.2.2.2.2.2.2.2.1
@[simp] theorem loseIntent_pen (i : Nat) (w : LostReason) (s : State) : (loseIntent i w s).pen = s.pen := (loseIntent_keeps i w s).2.2.2.2.2.2.2.2.2.2.2.1
@[simp] theorem loseIntent_lrp (i : Nat) (w : LostReason) (s : State) : (loseIntent i w s).lrp = s.lrp := (loseIntent_keeps i w s).2.2.2.2.2.2.2.2.2.2.2.2.1
@[simp] theorem loseIntent_psr (i : Nat) (w : LostReason) (s : State) : (loseIntent i w s).psr = s.psr := (loseIntent_keeps i w s).2.2.2.2.2.2.2.2.2.2.2.2.2

theorem notSent_keeps (i pr : Nat) (ps : List Pair) (s : State) :
    (notSent i pr ps s).pending = s.pending ∧ (notSent i pr ps s).inReset = s.inReset ∧ (notSent i pr ps s).scr = s.scr ∧ (notSent i pr ps s).pins = s.pins ∧ (notSent i pr ps s).dir = s.dir ∧ (notSent i pr ps s).degrees = s.degrees ∧ (notSent i pr ps s).spm = s.spm ∧ (notSent i pr ps s).org = s.org ∧ (notSent i pr ps s).tdb = s.tdb ∧ (notSent i pr ps s).reqQueue = s.reqQueue ∧ (notSent i pr ps s).pen = s.pen ∧ (notSent i pr ps s).lrp = s.lrp ∧ (notSent i pr ps s).psr = s.psr := by
  unfold notSent
  (repeat' split) <;> simp
@[simp] theorem notSent_pending (i pr : Nat) (ps : List Pair) (s : State) : (notSent i pr ps s).pending = s.pending := (notSent_keeps i pr ps s).1
@[simp] theorem notSent_inReset (i pr : Nat) (ps : List Pair) (s : State) : (notSent i pr ps s).inReset = s.inReset := (notSent_keeps i pr ps s).2.1
@[simp] theorem notSent_scr (i pr : Nat) (ps : List Pair) (s : State) : (notSent i pr ps s).scr = s.scr := (notSent_keeps i pr ps s).2.2.1
@[simp] theorem notSent_pins (i pr : Nat) (ps : List Pair) (s : State) : (notSent i pr ps s).pins = s.pins := (notSent_keeps i pr ps s).2.2.2.1
@[simp] theorem notSent_dir (i pr : Nat) (ps : List Pair) (s : State) : (notSent i pr ps s).dir = s.dir := (notSent_keeps i pr ps s).2.2.2.2.1
@[simp] theorem notSent_degrees (i pr : Nat) (ps : List Pair) (s : State) : (notSent i pr ps s).degrees = s.degrees := (notSent_keeps i pr ps s).2.2.2.2.2.1
@[simp] theorem notSent_spm (i pr : Nat) (ps : List Pair) (s : State) : (notSent i pr ps s).spm = s.spm := (notSent_keeps i pr ps s).2.2.2.2.2.2.1
@[simp] theorem notSent_org (i pr : Nat) (ps : List Pair) (s : State) : (notSent i pr ps s).org = s.org := (notSent_keeps i pr ps s).2.2.2.2.2.2.2.1
@[simp] theorem notSent_tdb (i pr : Nat) (ps : List Pair) (s : State) : (notSent i pr ps s).tdb = s.tdb := (notSent_keeps i pr ps s).2.2.2.2.2.2.2.2.1
@[simp] theorem notSent_reqQueue (i pr : Nat) (ps : List Pair) (s : State) : (notSent i pr ps s).reqQueue = s.reqQueue := (notSent_keeps i pr ps s).2.2.2.2.2.2.2.2.2.1
@[simp] theorem notSent_pen (i pr : Nat) (ps : List Pair) (s : State) : (notSent i pr ps s).pen = s.pen := (notSent_keeps i pr ps s).2.2.2.2.2.2.2.2.2.2.1
@[simp] theorem notSent_lrp (i pr : Nat) (ps : List Pair) (s : State) : (notSent i pr ps s).lrp = s.lrp := (notSent_keeps i pr ps s).2.2.2.2.2.2.2.2.2.2.2.1
@[simp] theorem notSent_psr (i pr : Nat) (ps : List Pair) (s : State) : (notSent i pr ps s).psr = s.psr := (notSent_keeps i pr ps s).2.2.2.2.2.2.2.2.2.2.2.2

theorem handOver_keeps (f : Body) (s : State) :
    (handOver f s).pending = s.pending ∧ (handOver f s).inReset = s.inReset ∧ (handOver f s).scr = s.scr ∧ (handOver f s).pins = s.pins ∧ (handOver f s).dir = s.dir ∧ (handOver f s).degrees = s.degrees ∧ (handOver f s).spm = s.spm ∧ (handOver f s).org = s.org ∧ (handOver f s).tdb = s.tdb ∧ (handOver f s).reqQueue = s.reqQueue ∧ (handOver f s).pen = s.pen ∧ (handOver f s).lrp = s.lrp ∧ (handOver f s).psr = s.psr := by
  unfold handOver
  (repeat' split) <;> simp
@[simp] theorem handOver_pending (f : Body) (s : State) : (handOver f s).pending = s.pending := (handOver_keeps f s).1
@[simp] theorem handOver_inReset (f : Body) (s : State) : (handOver f s).inReset = s.inReset := (handOver_keeps f s).2.1
@[simp] theorem handOver_scr (f : Body) (s : State) : (handOver f s).scr = s.scr := (handOver_keeps f s).2.2.1
@[simp] theorem handOver_pins (f : Body) (s : State) : (handOver f s).pins = s.pins := (handOver_keeps f s).2.2.2.1
@[simp] theorem handOver_dir (f : Body) (s : State) : (handOver f s).dir = s.dir := (handOver_keeps f s).2.2.2.2.1
@[simp] theorem handOver_degrees (f : Body) (s : State) : (handOver f s).degrees = s.degrees := (handOver_keeps f s).2.2.2.2.2.1
@[simp] theorem handOver_spm (f : Body) (s : State) : (handOver f s).spm = s.spm := (handOver_keeps f s).2.2.2.2.2.2.1
@[simp] theorem handOver_org (f : Body) (s : State) : (handOver f s).org = s.org := (handOver_keeps f s).2.2.2.2.2.2.2.1
@[simp] theorem handOver_tdb (f : Body) (s : State) : (handOver f s).tdb = s.tdb := (handOver_keeps f s).2.2.2.2.2.2.2.2.1
@[simp] theorem handOver_reqQueue (f : Body) (s : State) : (handOver f s).reqQueue = s.reqQueue := (handOver_keeps f s).2.2.2.2.2.2.2.2.2.1
@[simp] theorem handOver_pen (f : Body) (s : State) : (handOver f s).pen = s.pen := (handOver_keeps f s).2.2.2.2.2.2.2.2.2.2.1
@[simp] theorem handOver_lrp (f : Body) (s : State) : (handOver f s).lrp = s.lrp := (handOver_keeps f s).2.2.2.2.2.2.2.2.2.2.2.1
@[simp] theorem handOver_psr (f : Body) (s : State) : (handOver f s).psr = s.psr := (handOver_keeps f s).2.2.2.2.2.2.2.2.2.2.2.2

theorem completionReport_keeps (i pr : Nat) (ps : List Pair) (s : State) :
    (completionReport i pr ps s).pending = s.pending ∧ (completionReport i pr ps s).inReset = s.inReset ∧ (completionReport i pr ps s).scr = s.scr ∧ (completionReport i pr ps s).sct = s.sct ∧ (completionReport i pr ps s).pins = s.pins ∧ (completionReport i pr ps s).dir = s.dir ∧ (completionReport i pr ps s).degrees = s.degrees ∧ (completionReport i pr ps s).spm = s.spm ∧ (completionReport i pr ps s).org = s.org ∧ (completionReport i pr ps s).tdb = s.tdb ∧ (completionReport i pr ps s).reqQueue = s.reqQueue ∧ (completionReport i pr ps s).pen = s.pen ∧ (completionReport i pr ps s).lrp = s.lrp ∧ (completionReport i pr ps s).ntf = s.ntf ∧ (completionReport i pr ps s).psr = s.psr := by
  unfold completionReport
  (repeat' split) <;> simp
@[simp] theorem completionReport_pending (i pr : Nat) (ps : List Pair) (s : State) : (completionReport i pr ps s).pending = s.pending := (completionReport_keeps i pr ps s).1
@[simp] theorem completionReport_inReset (i pr : Nat) (ps : List Pair) (s : State) : (completionReport i pr ps s).inReset = s.inReset := (completionReport_keeps i pr ps s).2.1
@[simp] theorem completionReport_scr (i pr : Nat) (ps : List Pair) (s : State) : (completionReport i pr ps s).scr = s.scr := (completionReport_keeps i pr ps s).2.2.1
@[simp] theorem completionReport_sct (i pr : Nat) (ps : List Pair) (s : State) : (completionReport i pr ps s).sct = s.sct := (completionReport_keeps i pr ps s).2.2.2.1
@[simp] theorem completionReport_pins (i pr : Nat) (ps : List Pair) (s : State) : (completionReport i pr ps s).pins = s.pins := (completionReport_keeps i pr ps s).2.2.2.2.1
@[simp] theorem completionReport_dir (i pr : Nat) (ps : List Pair) (s : State) : (completionReport i pr ps s).dir = s.dir := (completionReport_keeps i pr ps s).2.2.2.2.2.1
@[simp] theorem completionReport_degrees (i pr : Nat) (ps : List Pair) (s : State) : (completionReport i pr ps s).degrees = s.degrees := (completionReport_keeps i pr ps s).2.2.2.2.2.2.1
@[simp] theorem completionReport_spm (i pr : Nat) (ps : List Pair) (s : State) : (completionReport i pr ps s).spm = s.spm := (completionReport_keeps i pr ps s).2.2.2.2.2.2.2.1
@[simp] theorem completionReport_org (i pr : Nat) (ps : List Pair) (s : State) : (completionReport i pr ps s).org = s.org := (completionReport_keeps i pr ps s).2.2.2.2.2.2.2.2.1
@[simp] theorem completionReport_tdb (i pr : Nat) (ps : List Pair) (s : State) : (completionReport i pr ps s).tdb = s.tdb := (completionReport_keeps i pr ps s).2.2.2.2.2.2.2.2.2.1
@[simp] theorem completionReport_reqQueue (i pr : Nat) (ps : List Pair) (s : State) : (completionReport i pr ps s).reqQueue = s.reqQueue := (completionReport_keeps i pr ps s).2.2.2.2.2.2.2.2.2.2.1
@[simp] theorem completionReport_pen (i pr : Nat) (ps : List Pair) (s : State) : (completionReport i pr ps s).pen = s.pen := (completionReport_keeps i pr ps s).2.2.2.2.2.2.2.2.2.2.2.1
@[simp] theorem completionReport_lrp (i pr : Nat) (ps : List Pair) (s : State) : (completionReport i pr ps s).lrp = s.lrp := (completionReport_keeps i pr ps s).2.2.2.2.2.2.2.2.2.2.2.2.1
@[simp] theorem completionReport_ntf (i pr : Nat) (ps : List Pair) (s : State) : (completionReport i pr ps s).ntf = s.ntf := (completionReport_keeps i pr ps s).2.2.2.2.2.2.2.2.2.2.2.2.2.1
@[simp] theorem completionReport_psr (i pr : Nat) (ps : List Pair) (s : State) : (completionReport i pr ps s).psr = s.psr := (completionReport_keeps i pr ps s).2.2.2.2.2.2.2.2.2.2.2.2.2.2

theorem announce_keeps (i : Nat) (s : State) :
    (announce i s).pending = s.pending ∧ (announce i s).inReset = s.inReset ∧ (announce i s).scr = s.scr ∧ (announce i s).pins = s.pins ∧ (announce i s).dir = s.dir ∧ (announce i s).degrees = s.degrees ∧ (announce i s).spm = s.spm ∧ (announce i s).org = s.org ∧ (announce i s).tdb = s.tdb ∧ (announce i s).reqQueue = s.reqQueue ∧ (announce i s).pen = s.pen ∧ (announce i s).lrp = s.lrp ∧ (announce i s).psr = s.psr := by
  unfold announce
  (repeat' split) <;> simp
@[simp] theorem announce_pending (i : Nat) (s : State) : (announce i s).pending = s.pending := (announce_keeps i s).1
@[simp] theorem announce_inReset (i : Nat) (s : State) : (announce i s).inReset = s.inReset := (announce_keeps i s).2.1
@[simp] theorem announce_scr (i : Nat) (s : State) : (announce i s).scr = s.scr := (announce_keeps i s).2.2.1
@[simp] theorem announce_pins (i : Nat) (s : State) : (announce i s).pins = s.pins := (announce_keeps i s).2.2.2.1
@[simp] theorem announce_dir (i : Nat) (s : State) : (announce i s).dir = s.dir := (announce_keeps i s).2.2.2.2.1
@[simp] theorem announce_degrees (i : Nat) (s : State) : (announce i s).degrees = s.degrees := (announce_keeps i s).2.2.2.2.2.1
@[simp] theorem announce_spm (i : Nat) (s : State) : (announce i s).spm = s.spm := (announce_keeps i s).2.2.2.2.2.2.1
@[simp] theorem announce_org (i : Nat) (s : State) : (announce i s).org = s.org := (announce_keeps i s).2.2.2.2.2.2.2.1
@[simp] theorem announce_tdb (i : Nat) (s : State) : (announce i s).tdb = s.tdb := (announce_keeps i s).2.2.2.2.2.2.2.2.1
@[simp] theorem announce_reqQueue (i : Nat) (s : State) : (announce i s).reqQueue = s.reqQueue := (announce_keeps i s).2.2.2.2.2.2.2.2.2.1
@[simp] theorem announce_pen (i : Nat) (s : State) : (announce i s).pen = s.pen := (announce_keeps i s).2.2.2.2.2.2.2.2.2.2.1
@[simp] theorem announce_lrp (i : Nat) (s : State) : (announce i s).lrp = s.lrp := (announce_keeps i s).2.2.2.2.2.2.2.2.2.2.2.1
@[simp] theorem announce_psr (i : Nat) (s : State) : (announce i s).psr = s.psr := (announce_keeps i s).2.2.2.2.2.2.2.2.2.2.2.2

theorem claimAbandoned_keeps (s : State) :
    (claimAbandoned s).pending = s.pending ∧ (claimAbandoned s).inReset = s.inReset ∧ (claimAbandoned s).scr = s.scr ∧ (claimAbandoned s).pins = s.pins ∧ (claimAbandoned s).dir = s.dir ∧ (claimAbandoned s).degrees = s.degrees ∧ (claimAbandoned s).spm = s.spm ∧ (claimAbandoned s).org = s.org ∧ (claimAbandoned s).tdb = s.tdb ∧ (claimAbandoned s).slots = s.slots ∧ (claimAbandoned s).reqQueue = s.reqQueue ∧ (claimAbandoned s).pen = s.pen ∧ (claimAbandoned s).lrp = s.lrp ∧ (claimAbandoned s).psr = s.psr := by
  unfold claimAbandoned
  (repeat' split) <;> simp
@[simp] theorem claimAbandoned_pending (s : State) : (claimAbandoned s).pending = s.pending := (claimAbandoned_keeps s).1
@[simp] theorem claimAbandoned_inReset (s : State) : (claimAbandoned s).inReset = s.inReset := (claimAbandoned_keeps s).2.1
@[simp] theorem claimAbandoned_scr (s : State) : (claimAbandoned s).scr = s.scr := (claimAbandoned_keeps s).2.2.1
@[simp] theorem claimAbandoned_pins (s : State) : (claimAbandoned s).pins = s.pins := (claimAbandoned_keeps s).2.2.2.1
@[simp] theorem claimAbandoned_dir (s : State) : (claimAbandoned s).dir = s.dir := (claimAbandoned_keeps s).2.2.2.2.1
@[simp] theorem claimAbandoned_degrees (s : State) : (claimAbandoned s).degrees = s.degrees := (claimAbandoned_keeps s).2.2.2.2.2.1
@[simp] theorem claimAbandoned_spm (s : State) : (claimAbandoned s).spm = s.spm := (claimAbandoned_keeps s).2.2.2.2.2.2.1
@[simp] theorem claimAbandoned_org (s : State) : (claimAbandoned s).org = s.org := (claimAbandoned_keeps s).2.2.2.2.2.2.2.1
@[simp] theorem claimAbandoned_tdb (s : State) : (claimAbandoned s).tdb = s.tdb := (claimAbandoned_keeps s).2.2.2.2.2.2.2.2.1
@[simp] theorem claimAbandoned_slots (s : State) : (claimAbandoned s).slots = s.slots := (claimAbandoned_keeps s).2.2.2.2.2.2.2.2.2.1
@[simp] theorem claimAbandoned_reqQueue (s : State) : (claimAbandoned s).reqQueue = s.reqQueue := (claimAbandoned_keeps s).2.2.2.2.2.2.2.2.2.2.1
@[simp] theorem claimAbandoned_pen (s : State) : (claimAbandoned s).pen = s.pen := (claimAbandoned_keeps s).2.2.2.2.2.2.2.2.2.2.2.1
@[simp] theorem claimAbandoned_lrp (s : State) : (claimAbandoned s).lrp = s.lrp := (claimAbandoned_keeps s).2.2.2.2.2.2.2.2.2.2.2.2.1
@[simp] theorem claimAbandoned_psr (s : State) : (claimAbandoned s).psr = s.psr := (claimAbandoned_keeps s).2.2.2.2.2.2.2.2.2.2.2.2.2

theorem claimCompleted_keeps (n : Nat) (s : State) :
    (claimCompleted n s).pending = s.pending ∧ (claimCompleted n s).inReset = s.inReset ∧ (claimCompleted n s).scr = s.scr ∧ (claimCompleted n s).sct = s.sct ∧ (claimCompleted n s).pins = s.pins ∧ (claimCompleted n s).degrees = s.degrees ∧ (claimCompleted n s).spm = s.spm ∧ (claimCompleted n s).org = s.org ∧ (claimCompleted n s).tdb = s.tdb ∧ (claimCompleted n s).slots = s.slots ∧ (claimCompleted n s).reqQueue = s.reqQueue ∧ (claimCompleted n s).pen = s.pen ∧ (claimCompleted n s).lrp = s.lrp ∧ (claimCompleted n s).ntf = s.ntf ∧ (claimCompleted n s).psr = s.psr := by
  unfold claimCompleted
  (repeat' split) <;> simp
@[simp] theorem claimCompleted_pending (n : Nat) (s : State) : (claimCompleted n s).pending = s.pending := (claimCompleted_keeps n s).1
@[simp] theorem claimCompleted_inReset (n : Nat) (s : State) : (claimCompleted n s).inReset = s.inReset := (claimCompleted_keeps n s).2.1
@[simp] theorem claimCompleted_scr (n : Nat) (s : State) : (claimCompleted n s).scr = s.scr := (claimCompleted_keeps n s).2.2.1
@[simp] theorem claimCompleted_sct (n : Nat) (s : State) : (claimCompleted n s).sct = s.sct := (claimCompleted_keeps n s).2.2.2.1
@[simp] theorem claimCompleted_pins (n : Nat) (s : State) : (claimCompleted n s).pins = s.pins := (claimCompleted_keeps n s).2.2.2.2.1
@[simp] theorem claimCompleted_degrees (n : Nat) (s : State) : (claimCompleted n s).degrees = s.degrees := (claimCompleted_keeps n s).2.2.2.2.2.1
@[simp] theorem claimCompleted_spm (n : Nat) (s : State) : (claimCompleted n s).spm = s.spm := (claimCompleted_keeps n s).2.2.2.2.2.2.1
@[simp] theorem claimCompleted_org (n : Nat) (s : State) : (claimCompleted n s).org = s.org := (claimCompleted_keeps n s).2.2.2.2.2.2.2.1
@[simp] theorem claimCompleted_tdb (n : Nat) (s : State) : (claimCompleted n s).tdb = s.tdb := (claimCompleted_keeps n s).2.2.2.2.2.2.2.2.1
@[simp] theorem claimCompleted_slots (n : Nat) (s : State) : (claimCompleted n s).slots = s.slots := (claimCompleted_keeps n s).2.2.2.2.2.2.2.2.2.1
@[simp] theorem claimCompleted_reqQueue (n : Nat) (s : State) : (claimCompleted n s).reqQueue = s.reqQueue := (claimCompleted_keeps n s).2.2.2.2.2.2.2.2.2.2.1
@[simp] theorem claimCompleted_pen (n : Nat) (s : State) : (claimCompleted n s).pen = s.pen := (claimCompleted_keeps n s).2.2.2.2.2.2.2.2.2.2.2.1
@[simp] theorem claimCompleted_lrp (n : Nat) (s : State) : (claimCompleted n s).lrp = s.lrp := (claimCompleted_keeps n s).2.2.2.2.2.2.2.2.2.2.2.2.1
@[simp] theorem claimCompleted_ntf (n : Nat) (s : State) : (claimCompleted n s).ntf = s.ntf := (claimCompleted_keeps n s).2.2.2.2.2.2.2.2.2.2.2.2.2.1
@[simp] theorem claimCompleted_psr (n : Nat) (s : State) : (claimCompleted n s).psr = s.psr := (claimCompleted_keeps n s).2.2.2.2.2.2.2.2.2.2.2.2.2.2

theorem reportNotSent_keeps (f : Body) (s : State) :
    (reportNotSent f s).pending = s.pending ∧ (reportNotSent f s).inReset = s.inReset ∧ (reportNotSent f s).scr = s.scr ∧ (reportNotSent f s).pins = s.pins ∧ (reportNotSent f s).dir = s.dir ∧ (reportNotSent f s).degrees = s.degrees ∧ (reportNotSent f s).spm = s.spm ∧ (reportNotSent f s).org = s.org ∧ (reportNotSent f s).tdb = s.tdb ∧ (reportNotSent f s).reqQueue = s.reqQueue ∧ (reportNotSent f s).pen = s.pen ∧ (reportNotSent f s).lrp = s.lrp ∧ (reportNotSent f s).psr = s.psr := by
  unfold reportNotSent
  (repeat' split) <;> simp
@[simp] theorem reportNotSent_pending (f : Body) (s : State) : (reportNotSent f s).pending = s.pending := (reportNotSent_keeps f s).1
@[simp] theorem reportNotSent_inReset (f : Body) (s : State) : (reportNotSent f s).inReset = s.inReset := (reportNotSent_keeps f s).2.1
@[simp] theorem reportNotSent_scr (f : Body) (s : State) : (reportNotSent f s).scr = s.scr := (reportNotSent_keeps f s).2.2.1
@[simp] theorem reportNotSent_pins (f : Body) (s : State) : (reportNotSent f s).pins = s.pins := (reportNotSent_keeps f s).2.2.2.1
@[simp] theorem reportNotSent_dir (f : Body) (s : State) : (reportNotSent f s).dir = s.dir := (reportNotSent_keeps f s).2.2.2.2.1
@[simp] theorem reportNotSent_degrees (f : Body) (s : State) : (reportNotSent f s).degrees = s.degrees := (reportNotSent_keeps f s).2.2.2.2.2.1
@[simp] theorem reportNotSent_spm (f : Body) (s : State) : (reportNotSent f s).spm = s.spm := (reportNotSent_keeps f s).2.2.2.2.2.2.1
@[simp] theorem reportNotSent_org (f : Body) (s : State) : (reportNotSent f s).org = s.org := (reportNotSent_keeps f s).2.2.2.2.2.2.2.1
@[simp] theorem reportNotSent_tdb (f : Body) (s : State) : (reportNotSent f s).tdb = s.tdb := (reportNotSent_keeps f s).2.2.2.2.2.2.2.2.1
@[simp] theorem reportNotSent_reqQueue (f : Body) (s : State) : (reportNotSent f s).reqQueue = s.reqQueue := (reportNotSent_keeps f s).2.2.2.2.2.2.2.2.2.1
@[simp] theorem reportNotSent_pen (f : Body) (s : State) : (reportNotSent f s).pen = s.pen := (reportNotSent_keeps f s).2.2.2.2.2.2.2.2.2.2.1
@[simp] theorem reportNotSent_lrp (f : Body) (s : State) : (reportNotSent f s).lrp = s.lrp := (reportNotSent_keeps f s).2.2.2.2.2.2.2.2.2.2.2.1
@[simp] theorem reportNotSent_psr (f : Body) (s : State) : (reportNotSent f s).psr = s.psr := (reportNotSent_keeps f s).2.2.2.2.2.2.2.2.2.2.2.2

theorem completeAttempt_keeps (v : Service) (s : State) :
    (completeAttempt v s).pending = s.pending ∧ (completeAttempt v s).inReset = s.inReset ∧ (completeAttempt v s).scr = s.scr ∧ (completeAttempt v s).pins = s.pins ∧ (completeAttempt v s).degrees = s.degrees ∧ (completeAttempt v s).spm = s.spm ∧ (completeAttempt v s).org = s.org ∧ (completeAttempt v s).tdb = s.tdb ∧ (completeAttempt v s).reqQueue = s.reqQueue ∧ (completeAttempt v s).pen = s.pen ∧ (completeAttempt v s).lrp = s.lrp ∧ (completeAttempt v s).ntf = s.ntf ∧ (completeAttempt v s).psr = s.psr := by
  unfold completeAttempt
  (repeat' split) <;> simp
@[simp] theorem completeAttempt_pending (v : Service) (s : State) : (completeAttempt v s).pending = s.pending := (completeAttempt_keeps v s).1
@[simp] theorem completeAttempt_inReset (v : Service) (s : State) : (completeAttempt v s).inReset = s.inReset := (completeAttempt_keeps v s).2.1
@[simp] theorem completeAttempt_scr (v : Service) (s : State) : (completeAttempt v s).scr = s.scr := (completeAttempt_keeps v s).2.2.1
@[simp] theorem completeAttempt_pins (v : Service) (s : State) : (completeAttempt v s).pins = s.pins := (completeAttempt_keeps v s).2.2.2.1
@[simp] theorem completeAttempt_degrees (v : Service) (s : State) : (completeAttempt v s).degrees = s.degrees := (completeAttempt_keeps v s).2.2.2.2.1
@[simp] theorem completeAttempt_spm (v : Service) (s : State) : (completeAttempt v s).spm = s.spm := (completeAttempt_keeps v s).2.2.2.2.2.1
@[simp] theorem completeAttempt_org (v : Service) (s : State) : (completeAttempt v s).org = s.org := (completeAttempt_keeps v s).2.2.2.2.2.2.1
@[simp] theorem completeAttempt_tdb (v : Service) (s : State) : (completeAttempt v s).tdb = s.tdb := (completeAttempt_keeps v s).2.2.2.2.2.2.2.1
@[simp] theorem completeAttempt_reqQueue (v : Service) (s : State) : (completeAttempt v s).reqQueue = s.reqQueue := (completeAttempt_keeps v s).2.2.2.2.2.2.2.2.1
@[simp] theorem completeAttempt_pen (v : Service) (s : State) : (completeAttempt v s).pen = s.pen := (completeAttempt_keeps v s).2.2.2.2.2.2.2.2.2.1
@[simp] theorem completeAttempt_lrp (v : Service) (s : State) : (completeAttempt v s).lrp = s.lrp := (completeAttempt_keeps v s).2.2.2.2.2.2.2.2.2.2.1
@[simp] theorem completeAttempt_ntf (v : Service) (s : State) : (completeAttempt v s).ntf = s.ntf := (completeAttempt_keeps v s).2.2.2.2.2.2.2.2.2.2.2.1
@[simp] theorem completeAttempt_psr (v : Service) (s : State) : (completeAttempt v s).psr = s.psr := (completeAttempt_keeps v s).2.2.2.2.2.2.2.2.2.2.2.2

theorem failAttempt_keeps (v : Service) (s : State) :
    (failAttempt v s).pending = s.pending ∧ (failAttempt v s).inReset = s.inReset ∧ (failAttempt v s).scr = s.scr ∧ (failAttempt v s).pins = s.pins ∧ (failAttempt v s).dir = s.dir ∧ (failAttempt v s).degrees = s.degrees ∧ (failAttempt v s).spm = s.spm ∧ (failAttempt v s).org = s.org ∧ (failAttempt v s).tdb = s.tdb ∧ (failAttempt v s).reqQueue = s.reqQueue ∧ (failAttempt v s).pen = s.pen ∧ (failAttempt v s).lrp = s.lrp ∧ (failAttempt v s).psr = s.psr := by
  unfold failAttempt
  (repeat' split) <;> simp
@[simp] theorem failAttempt_pending (v : Service) (s : State) : (failAttempt v s).pending = s.pending := (failAttempt_keeps v s).1
@[simp] theorem failAttempt_inReset (v : Service) (s : State) : (failAttempt v s).inReset = s.inReset := (failAttempt_keeps v s).2.1
@[simp] theorem failAttempt_scr (v : Service) (s : State) : (failAttempt v s).scr = s.scr := (failAttempt_keeps v s).2.2.1
@[simp] theorem failAttempt_pins (v : Service) (s : State) : (failAttempt v s).pins = s.pins := (failAttempt_keeps v s).2.2.2.1
@[simp] theorem failAttempt_dir (v : Service) (s : State) : (failAttempt v s).dir = s.dir := (failAttempt_keeps v s).2.2.2.2.1
@[simp] theorem failAttempt_degrees (v : Service) (s : State) : (failAttempt v s).degrees = s.degrees := (failAttempt_keeps v s).2.2.2.2.2.1
@[simp] theorem failAttempt_spm (v : Service) (s : State) : (failAttempt v s).spm = s.spm := (failAttempt_keeps v s).2.2.2.2.2.2.1
@[simp] theorem failAttempt_org (v : Service) (s : State) : (failAttempt v s).org = s.org := (failAttempt_keeps v s).2.2.2.2.2.2.2.1
@[simp] theorem failAttempt_tdb (v : Service) (s : State) : (failAttempt v s).tdb = s.tdb := (failAttempt_keeps v s).2.2.2.2.2.2.2.2.1
@[simp] theorem failAttempt_reqQueue (v : Service) (s : State) : (failAttempt v s).reqQueue = s.reqQueue := (failAttempt_keeps v s).2.2.2.2.2.2.2.2.2.1
@[simp] theorem failAttempt_pen (v : Service) (s : State) : (failAttempt v s).pen = s.pen := (failAttempt_keeps v s).2.2.2.2.2.2.2.2.2.2.1
@[simp] theorem failAttempt_lrp (v : Service) (s : State) : (failAttempt v s).lrp = s.lrp := (failAttempt_keeps v s).2.2.2.2.2.2.2.2.2.2.2.1
@[simp] theorem failAttempt_psr (v : Service) (s : State) : (failAttempt v s).psr = s.psr := (failAttempt_keeps v s).2.2.2.2.2.2.2.2.2.2.2.2

theorem resolveAttempt_keeps (c : Bool) (v : Service) (s : State) :
    (resolveAttempt c v s).pending = s.pending ∧ (resolveAttempt c v s).inReset = s.inReset ∧ (resolveAttempt c v s).scr = s.scr ∧ (resolveAttempt c v s).pins = s.pins ∧ (resolveAttempt c v s).degrees = s.degrees ∧ (resolveAttempt c v s).spm = s.spm ∧ (resolveAttempt c v s).org = s.org ∧ (resolveAttempt c v s).tdb = s.tdb ∧ (resolveAttempt c v s).reqQueue = s.reqQueue ∧ (resolveAttempt c v s).pen = s.pen ∧ (resolveAttempt c v s).lrp = s.lrp ∧ (resolveAttempt c v s).psr = s.psr := by
  unfold resolveAttempt
  (repeat' split) <;> simp
@[simp] theorem resolveAttempt_pending (c : Bool) (v : Service) (s : State) : (resolveAttempt c v s).pending = s.pending := (resolveAttempt_keeps c v s).1
@[simp] theorem resolveAttempt_inReset (c : Bool) (v : Service) (s : State) : (resolveAttempt c v s).inReset = s.inReset := (resolveAttempt_keeps c v s).2.1
@[simp] theorem resolveAttempt_scr (c : Bool) (v : Service) (s : State) : (resolveAttempt c v s).scr = s.scr := (resolveAttempt_keeps c v s).2.2.1
@[simp] theorem resolveAttempt_pins (c : Bool) (v : Service) (s : State) : (resolveAttempt c v s).pins = s.pins := (resolveAttempt_keeps c v s).2.2.2.1
@[simp] theorem resolveAttempt_degrees (c : Bool) (v : Service) (s : State) : (resolveAttempt c v s).degrees = s.degrees := (resolveAttempt_keeps c v s).2.2.2.2.1
@[simp] theorem resolveAttempt_spm (c : Bool) (v : Service) (s : State) : (resolveAttempt c v s).spm = s.spm := (resolveAttempt_keeps c v s).2.2.2.2.2.1
@[simp] theorem resolveAttempt_org (c : Bool) (v : Service) (s : State) : (resolveAttempt c v s).org = s.org := (resolveAttempt_keeps c v s).2.2.2.2.2.2.1
@[simp] theorem resolveAttempt_tdb (c : Bool) (v : Service) (s : State) : (resolveAttempt c v s).tdb = s.tdb := (resolveAttempt_keeps c v s).2.2.2.2.2.2.2.1
@[simp] theorem resolveAttempt_reqQueue (c : Bool) (v : Service) (s : State) : (resolveAttempt c v s).reqQueue = s.reqQueue := (resolveAttempt_keeps c v s).2.2.2.2.2.2.2.2.1
@[simp] theorem resolveAttempt_pen (c : Bool) (v : Service) (s : State) : (resolveAttempt c v s).pen = s.pen := (resolveAttempt_keeps c v s).2.2.2.2.2.2.2.2.2.1
@[simp] theorem resolveAttempt_lrp (c : Bool) (v : Service) (s : State) : (resolveAttempt c v s).lrp = s.lrp := (resolveAttempt_keeps c v s).2.2.2.2.2.2.2.2.2.2.1
@[simp] theorem resolveAttempt_psr (c : Bool) (v : Service) (s : State) : (resolveAttempt c v s).psr = s.psr := (resolveAttempt_keeps c v s).2.2.2.2.2.2.2.2.2.2.2

theorem decideAttempt_keeps (c : Bool) (s : State) :
    (decideAttempt c s).pending = s.pending ∧ (decideAttempt c s).inReset = s.inReset ∧ (decideAttempt c s).scr = s.scr ∧ (decideAttempt c s).pins = s.pins ∧ (decideAttempt c s).degrees = s.degrees ∧ (decideAttempt c s).spm = s.spm ∧ (decideAttempt c s).org = s.org ∧ (decideAttempt c s).tdb = s.tdb ∧ (decideAttempt c s).reqQueue = s.reqQueue ∧ (decideAttempt c s).pen = s.pen ∧ (decideAttempt c s).lrp = s.lrp ∧ (decideAttempt c s).psr = s.psr := by
  unfold decideAttempt
  (repeat' split) <;> simp
@[simp] theorem decideAttempt_pending (c : Bool) (s : State) : (decideAttempt c s).pending = s.pending := (decideAttempt_keeps c s).1
@[simp] theorem decideAttempt_inReset (c : Bool) (s : State) : (decideAttempt c s).inReset = s.inReset := (decideAttempt_keeps c s).2.1
@[simp] theorem decideAttempt_scr (c : Bool) (s : State) : (decideAttempt c s).scr = s.scr := (decideAttempt_keeps c s).2.2.1
@[simp] theorem decideAttempt_pins (c : Bool) (s : State) : (decideAttempt c s).pins = s.pins := (decideAttempt_keeps c s).2.2.2.1
@[simp] theorem decideAttempt_degrees (c : Bool) (s : State) : (decideAttempt c s).degrees = s.degrees := (decideAttempt_keeps c s).2.2.2.2.1
@[simp] theorem decideAttempt_spm (c : Bool) (s : State) : (decideAttempt c s).spm = s.spm := (decideAttempt_keeps c s).2.2.2.2.2.1
@[simp] theorem decideAttempt_org (c : Bool) (s : State) : (decideAttempt c s).org = s.org := (decideAttempt_keeps c s).2.2.2.2.2.2.1
@[simp] theorem decideAttempt_tdb (c : Bool) (s : State) : (decideAttempt c s).tdb = s.tdb := (decideAttempt_keeps c s).2.2.2.2.2.2.2.1
@[simp] theorem decideAttempt_reqQueue (c : Bool) (s : State) : (decideAttempt c s).reqQueue = s.reqQueue := (decideAttempt_keeps c s).2.2.2.2.2.2.2.2.1
@[simp] theorem decideAttempt_pen (c : Bool) (s : State) : (decideAttempt c s).pen = s.pen := (decideAttempt_keeps c s).2.2.2.2.2.2.2.2.2.1
@[simp] theorem decideAttempt_lrp (c : Bool) (s : State) : (decideAttempt c s).lrp = s.lrp := (decideAttempt_keeps c s).2.2.2.2.2.2.2.2.2.2.1
@[simp] theorem decideAttempt_psr (c : Bool) (s : State) : (decideAttempt c s).psr = s.psr := (decideAttempt_keeps c s).2.2.2.2.2.2.2.2.2.2.2

theorem muteService_keeps (s : State) :
    (muteService s).pending = s.pending ∧ (muteService s).inReset = s.inReset ∧ (muteService s).scr = s.scr ∧ (muteService s).pins = s.pins ∧ (muteService s).dir = s.dir ∧ (muteService s).degrees = s.degrees ∧ (muteService s).spm = s.spm ∧ (muteService s).org = s.org ∧ (muteService s).tdb = s.tdb ∧ (muteService s).reqQueue = s.reqQueue ∧ (muteService s).pen = s.pen ∧ (muteService s).lrp = s.lrp ∧ (muteService s).psr = s.psr := by
  unfold muteService
  (repeat' split) <;> simp
@[simp] theorem muteService_pending (s : State) : (muteService s).pending = s.pending := (muteService_keeps s).1
@[simp] theorem muteService_inReset (s : State) : (muteService s).inReset = s.inReset := (muteService_keeps s).2.1
@[simp] theorem muteService_scr (s : State) : (muteService s).scr = s.scr := (muteService_keeps s).2.2.1
@[simp] theorem muteService_pins (s : State) : (muteService s).pins = s.pins := (muteService_keeps s).2.2.2.1
@[simp] theorem muteService_dir (s : State) : (muteService s).dir = s.dir := (muteService_keeps s).2.2.2.2.1
@[simp] theorem muteService_degrees (s : State) : (muteService s).degrees = s.degrees := (muteService_keeps s).2.2.2.2.2.1
@[simp] theorem muteService_spm (s : State) : (muteService s).spm = s.spm := (muteService_keeps s).2.2.2.2.2.2.1
@[simp] theorem muteService_org (s : State) : (muteService s).org = s.org := (muteService_keeps s).2.2.2.2.2.2.2.1
@[simp] theorem muteService_tdb (s : State) : (muteService s).tdb = s.tdb := (muteService_keeps s).2.2.2.2.2.2.2.2.1
@[simp] theorem muteService_reqQueue (s : State) : (muteService s).reqQueue = s.reqQueue := (muteService_keeps s).2.2.2.2.2.2.2.2.2.1
@[simp] theorem muteService_pen (s : State) : (muteService s).pen = s.pen := (muteService_keeps s).2.2.2.2.2.2.2.2.2.2.1
@[simp] theorem muteService_lrp (s : State) : (muteService s).lrp = s.lrp := (muteService_keeps s).2.2.2.2.2.2.2.2.2.2.2.1
@[simp] theorem muteService_psr (s : State) : (muteService s).psr = s.psr := (muteService_keeps s).2.2.2.2.2.2.2.2.2.2.2.2

theorem setMute_keeps (s : State) :
    (setMute s).pending = s.pending ∧ (setMute s).inReset = s.inReset ∧ (setMute s).scr = s.scr ∧ (setMute s).pins = s.pins ∧ (setMute s).dir = s.dir ∧ (setMute s).degrees = s.degrees ∧ (setMute s).spm = s.spm ∧ (setMute s).org = s.org ∧ (setMute s).tdb = s.tdb ∧ (setMute s).reqQueue = s.reqQueue ∧ (setMute s).pen = s.pen ∧ (setMute s).lrp = s.lrp ∧ (setMute s).psr = s.psr := by
  unfold setMute
  (repeat' split) <;> simp
@[simp] theorem setMute_pending (s : State) : (setMute s).pending = s.pending := (setMute_keeps s).1
@[simp] theorem setMute_inReset (s : State) : (setMute s).inReset = s.inReset := (setMute_keeps s).2.1
@[simp] theorem setMute_scr (s : State) : (setMute s).scr = s.scr := (setMute_keeps s).2.2.1
@[simp] theorem setMute_pins (s : State) : (setMute s).pins = s.pins := (setMute_keeps s).2.2.2.1
@[simp] theorem setMute_dir (s : State) : (setMute s).dir = s.dir := (setMute_keeps s).2.2.2.2.1
@[simp] theorem setMute_degrees (s : State) : (setMute s).degrees = s.degrees := (setMute_keeps s).2.2.2.2.2.1
@[simp] theorem setMute_spm (s : State) : (setMute s).spm = s.spm := (setMute_keeps s).2.2.2.2.2.2.1
@[simp] theorem setMute_org (s : State) : (setMute s).org = s.org := (setMute_keeps s).2.2.2.2.2.2.2.1
@[simp] theorem setMute_tdb (s : State) : (setMute s).tdb = s.tdb := (setMute_keeps s).2.2.2.2.2.2.2.2.1
@[simp] theorem setMute_reqQueue (s : State) : (setMute s).reqQueue = s.reqQueue := (setMute_keeps s).2.2.2.2.2.2.2.2.2.1
@[simp] theorem setMute_pen (s : State) : (setMute s).pen = s.pen := (setMute_keeps s).2.2.2.2.2.2.2.2.2.2.1
@[simp] theorem setMute_lrp (s : State) : (setMute s).lrp = s.lrp := (setMute_keeps s).2.2.2.2.2.2.2.2.2.2.2.1
@[simp] theorem setMute_psr (s : State) : (setMute s).psr = s.psr := (setMute_keeps s).2.2.2.2.2.2.2.2.2.2.2.2

theorem unmute_keeps (s : State) :
    (unmute s).pending = s.pending ∧ (unmute s).inReset = s.inReset ∧ (unmute s).scr = s.scr ∧ (unmute s).pins = s.pins ∧ (unmute s).dir = s.dir ∧ (unmute s).degrees = s.degrees ∧ (unmute s).spm = s.spm ∧ (unmute s).org = s.org ∧ (unmute s).tdb = s.tdb ∧ (unmute s).slots = s.slots ∧ (unmute s).reqQueue = s.reqQueue ∧ (unmute s).pen = s.pen ∧ (unmute s).lrp = s.lrp ∧ (unmute s).ntf = s.ntf ∧ (unmute s).psr = s.psr := by
  unfold unmute
  try dsimp only
  repeat' apply And.intro
  all_goals (repeat' split) <;> simp
@[simp] theorem unmute_pending (s : State) : (unmute s).pending = s.pending := (unmute_keeps s).1
@[simp] theorem unmute_inReset (s : State) : (unmute s).inReset = s.inReset := (unmute_keeps s).2.1
@[simp] theorem unmute_scr (s : State) : (unmute s).scr = s.scr := (unmute_keeps s).2.2.1
@[simp] theorem unmute_pins (s : State) : (unmute s).pins = s.pins := (unmute_keeps s).2.2.2.1
@[simp] theorem unmute_dir (s : State) : (unmute s).dir = s.dir := (unmute_keeps s).2.2.2.2.1
@[simp] theorem unmute_degrees (s : State) : (unmute s).degrees = s.degrees := (unmute_keeps s).2.2.2.2.2.1
@[simp] theorem unmute_spm (s : State) : (unmute s).spm = s.spm := (unmute_keeps s).2.2.2.2.2.2.1
@[simp] theorem unmute_org (s : State) : (unmute s).org = s.org := (unmute_keeps s).2.2.2.2.2.2.2.1
@[simp] theorem unmute_tdb (s : State) : (unmute s).tdb = s.tdb := (unmute_keeps s).2.2.2.2.2.2.2.2.1
@[simp] theorem unmute_slots (s : State) : (unmute s).slots = s.slots := (unmute_keeps s).2.2.2.2.2.2.2.2.2.1
@[simp] theorem unmute_reqQueue (s : State) : (unmute s).reqQueue = s.reqQueue := (unmute_keeps s).2.2.2.2.2.2.2.2.2.2.1
@[simp] theorem unmute_pen (s : State) : (unmute s).pen = s.pen := (unmute_keeps s).2.2.2.2.2.2.2.2.2.2.2.1
@[simp] theorem unmute_lrp (s : State) : (unmute s).lrp = s.lrp := (unmute_keeps s).2.2.2.2.2.2.2.2.2.2.2.2.1
@[simp] theorem unmute_ntf (s : State) : (unmute s).ntf = s.ntf := (unmute_keeps s).2.2.2.2.2.2.2.2.2.2.2.2.2.1
@[simp] theorem unmute_psr (s : State) : (unmute s).psr = s.psr := (unmute_keeps s).2.2.2.2.2.2.2.2.2.2.2.2.2.2

theorem enterSend_keeps (s : State) :
    (enterSend s).pending = s.pending ∧ (enterSend s).inReset = s.inReset ∧ (enterSend s).scr = s.scr ∧ (enterSend s).pins = s.pins ∧ (enterSend s).dir = s.dir ∧ (enterSend s).degrees = s.degrees ∧ (enterSend s).spm = s.spm ∧ (enterSend s).org = s.org ∧ (enterSend s).tdb = s.tdb ∧ (enterSend s).slots = s.slots ∧ (enterSend s).reqQueue = s.reqQueue ∧ (enterSend s).pen = s.pen ∧ (enterSend s).lrp = s.lrp ∧ (enterSend s).ntf = s.ntf ∧ (enterSend s).psr = s.psr := by
  unfold enterSend
  (repeat' split) <;> simp
@[simp] theorem enterSend_pending (s : State) : (enterSend s).pending = s.pending := (enterSend_keeps s).1
@[simp] theorem enterSend_inReset (s : State) : (enterSend s).inReset = s.inReset := (enterSend_keeps s).2.1
@[simp] theorem enterSend_scr (s : State) : (enterSend s).scr = s.scr := (enterSend_keeps s).2.2.1
@[simp] theorem enterSend_pins (s : State) : (enterSend s).pins = s.pins := (enterSend_keeps s).2.2.2.1
@[simp] theorem enterSend_dir (s : State) : (enterSend s).dir = s.dir := (enterSend_keeps s).2.2.2.2.1
@[simp] theorem enterSend_degrees (s : State) : (enterSend s).degrees = s.degrees := (enterSend_keeps s).2.2.2.2.2.1
@[simp] theorem enterSend_spm (s : State) : (enterSend s).spm = s.spm := (enterSend_keeps s).2.2.2.2.2.2.1
@[simp] theorem enterSend_org (s : State) : (enterSend s).org = s.org := (enterSend_keeps s).2.2.2.2.2.2.2.1
@[simp] theorem enterSend_tdb (s : State) : (enterSend s).tdb = s.tdb := (enterSend_keeps s).2.2.2.2.2.2.2.2.1
@[simp] theorem enterSend_slots (s : State) : (enterSend s).slots = s.slots := (enterSend_keeps s).2.2.2.2.2.2.2.2.2.1
@[simp] theorem enterSend_reqQueue (s : State) : (enterSend s).reqQueue = s.reqQueue := (enterSend_keeps s).2.2.2.2.2.2.2.2.2.2.1
@[simp] theorem enterSend_pen (s : State) : (enterSend s).pen = s.pen := (enterSend_keeps s).2.2.2.2.2.2.2.2.2.2.2.1
@[simp] theorem enterSend_lrp (s : State) : (enterSend s).lrp = s.lrp := (enterSend_keeps s).2.2.2.2.2.2.2.2.2.2.2.2.1
@[simp] theorem enterSend_ntf (s : State) : (enterSend s).ntf = s.ntf := (enterSend_keeps s).2.2.2.2.2.2.2.2.2.2.2.2.2.1
@[simp] theorem enterSend_psr (s : State) : (enterSend s).psr = s.psr := (enterSend_keeps s).2.2.2.2.2.2.2.2.2.2.2.2.2.2

theorem takeService_keeps (s : State) :
    (takeService s).pending = s.pending ∧ (takeService s).inReset = s.inReset ∧ (takeService s).scr = s.scr ∧ (takeService s).pins = s.pins ∧ (takeService s).dir = s.dir ∧ (takeService s).degrees = s.degrees ∧ (takeService s).spm = s.spm ∧ (takeService s).org = s.org ∧ (takeService s).tdb = s.tdb ∧ (takeService s).slots = s.slots ∧ (takeService s).reqQueue = s.reqQueue ∧ (takeService s).pen = s.pen ∧ (takeService s).lrp = s.lrp ∧ (takeService s).ntf = s.ntf ∧ (takeService s).psr = s.psr := by
  unfold takeService
  (repeat' split) <;> simp
@[simp] theorem takeService_pending (s : State) : (takeService s).pending = s.pending := (takeService_keeps s).1
@[simp] theorem takeService_inReset (s : State) : (takeService s).inReset = s.inReset := (takeService_keeps s).2.1
@[simp] theorem takeService_scr (s : State) : (takeService s).scr = s.scr := (takeService_keeps s).2.2.1
@[simp] theorem takeService_pins (s : State) : (takeService s).pins = s.pins := (takeService_keeps s).2.2.2.1
@[simp] theorem takeService_dir (s : State) : (takeService s).dir = s.dir := (takeService_keeps s).2.2.2.2.1
@[simp] theorem takeService_degrees (s : State) : (takeService s).degrees = s.degrees := (takeService_keeps s).2.2.2.2.2.1
@[simp] theorem takeService_spm (s : State) : (takeService s).spm = s.spm := (takeService_keeps s).2.2.2.2.2.2.1
@[simp] theorem takeService_org (s : State) : (takeService s).org = s.org := (takeService_keeps s).2.2.2.2.2.2.2.1
@[simp] theorem takeService_tdb (s : State) : (takeService s).tdb = s.tdb := (takeService_keeps s).2.2.2.2.2.2.2.2.1
@[simp] theorem takeService_slots (s : State) : (takeService s).slots = s.slots := (takeService_keeps s).2.2.2.2.2.2.2.2.2.1
@[simp] theorem takeService_reqQueue (s : State) : (takeService s).reqQueue = s.reqQueue := (takeService_keeps s).2.2.2.2.2.2.2.2.2.2.1
@[simp] theorem takeService_pen (s : State) : (takeService s).pen = s.pen := (takeService_keeps s).2.2.2.2.2.2.2.2.2.2.2.1
@[simp] theorem takeService_lrp (s : State) : (takeService s).lrp = s.lrp := (takeService_keeps s).2.2.2.2.2.2.2.2.2.2.2.2.1
@[simp] theorem takeService_ntf (s : State) : (takeService s).ntf = s.ntf := (takeService_keeps s).2.2.2.2.2.2.2.2.2.2.2.2.2.1
@[simp] theorem takeService_psr (s : State) : (takeService s).psr = s.psr := (takeService_keeps s).2.2.2.2.2.2.2.2.2.2.2.2.2.2

theorem endSend_keeps (s : State) :
    (endSend s).pending = s.pending ∧ (endSend s).inReset = s.inReset ∧ (endSend s).scr = s.scr ∧ (endSend s).pins = s.pins ∧ (endSend s).degrees = s.degrees ∧ (endSend s).spm = s.spm ∧ (endSend s).org = s.org ∧ (endSend s).tdb = s.tdb ∧ (endSend s).reqQueue = s.reqQueue ∧ (endSend s).pen = s.pen ∧ (endSend s).lrp = s.lrp ∧ (endSend s).psr = s.psr := by
  unfold endSend
  (repeat' split) <;> simp
@[simp] theorem endSend_pending (s : State) : (endSend s).pending = s.pending := (endSend_keeps s).1
@[simp] theorem endSend_inReset (s : State) : (endSend s).inReset = s.inReset := (endSend_keeps s).2.1
@[simp] theorem endSend_scr (s : State) : (endSend s).scr = s.scr := (endSend_keeps s).2.2.1
@[simp] theorem endSend_pins (s : State) : (endSend s).pins = s.pins := (endSend_keeps s).2.2.2.1
@[simp] theorem endSend_degrees (s : State) : (endSend s).degrees = s.degrees := (endSend_keeps s).2.2.2.2.1
@[simp] theorem endSend_spm (s : State) : (endSend s).spm = s.spm := (endSend_keeps s).2.2.2.2.2.1
@[simp] theorem endSend_org (s : State) : (endSend s).org = s.org := (endSend_keeps s).2.2.2.2.2.2.1
@[simp] theorem endSend_tdb (s : State) : (endSend s).tdb = s.tdb := (endSend_keeps s).2.2.2.2.2.2.2.1
@[simp] theorem endSend_reqQueue (s : State) : (endSend s).reqQueue = s.reqQueue := (endSend_keeps s).2.2.2.2.2.2.2.2.1
@[simp] theorem endSend_pen (s : State) : (endSend s).pen = s.pen := (endSend_keeps s).2.2.2.2.2.2.2.2.2.1
@[simp] theorem endSend_lrp (s : State) : (endSend s).lrp = s.lrp := (endSend_keeps s).2.2.2.2.2.2.2.2.2.2.1
@[simp] theorem endSend_psr (s : State) : (endSend s).psr = s.psr := (endSend_keeps s).2.2.2.2.2.2.2.2.2.2.2

theorem closeEcho_keeps (s : State) :
    (closeEcho s).pending = s.pending ∧ (closeEcho s).inReset = s.inReset ∧ (closeEcho s).scr = s.scr ∧ (closeEcho s).pins = s.pins ∧ (closeEcho s).dir = s.dir ∧ (closeEcho s).degrees = s.degrees ∧ (closeEcho s).spm = s.spm ∧ (closeEcho s).org = s.org ∧ (closeEcho s).tdb = s.tdb ∧ (closeEcho s).reqQueue = s.reqQueue ∧ (closeEcho s).pen = s.pen ∧ (closeEcho s).lrp = s.lrp ∧ (closeEcho s).psr = s.psr := by
  unfold closeEcho
  (repeat' split) <;> simp
@[simp] theorem closeEcho_pending (s : State) : (closeEcho s).pending = s.pending := (closeEcho_keeps s).1
@[simp] theorem closeEcho_inReset (s : State) : (closeEcho s).inReset = s.inReset := (closeEcho_keeps s).2.1
@[simp] theorem closeEcho_scr (s : State) : (closeEcho s).scr = s.scr := (closeEcho_keeps s).2.2.1
@[simp] theorem closeEcho_pins (s : State) : (closeEcho s).pins = s.pins := (closeEcho_keeps s).2.2.2.1
@[simp] theorem closeEcho_dir (s : State) : (closeEcho s).dir = s.dir := (closeEcho_keeps s).2.2.2.2.1
@[simp] theorem closeEcho_degrees (s : State) : (closeEcho s).degrees = s.degrees := (closeEcho_keeps s).2.2.2.2.2.1
@[simp] theorem closeEcho_spm (s : State) : (closeEcho s).spm = s.spm := (closeEcho_keeps s).2.2.2.2.2.2.1
@[simp] theorem closeEcho_org (s : State) : (closeEcho s).org = s.org := (closeEcho_keeps s).2.2.2.2.2.2.2.1
@[simp] theorem closeEcho_tdb (s : State) : (closeEcho s).tdb = s.tdb := (closeEcho_keeps s).2.2.2.2.2.2.2.2.1
@[simp] theorem closeEcho_reqQueue (s : State) : (closeEcho s).reqQueue = s.reqQueue := (closeEcho_keeps s).2.2.2.2.2.2.2.2.2.1
@[simp] theorem closeEcho_pen (s : State) : (closeEcho s).pen = s.pen := (closeEcho_keeps s).2.2.2.2.2.2.2.2.2.2.1
@[simp] theorem closeEcho_lrp (s : State) : (closeEcho s).lrp = s.lrp := (closeEcho_keeps s).2.2.2.2.2.2.2.2.2.2.2.1
@[simp] theorem closeEcho_psr (s : State) : (closeEcho s).psr = s.psr := (closeEcho_keeps s).2.2.2.2.2.2.2.2.2.2.2.2

theorem dropReport_keeps (n : Nat) (s : State) :
    (dropReport n s).pending = s.pending ∧ (dropReport n s).inReset = s.inReset ∧ (dropReport n s).scr = s.scr ∧ (dropReport n s).sct = s.sct ∧ (dropReport n s).pins = s.pins ∧ (dropReport n s).dir = s.dir ∧ (dropReport n s).degrees = s.degrees ∧ (dropReport n s).spm = s.spm ∧ (dropReport n s).org = s.org ∧ (dropReport n s).slots = s.slots ∧ (dropReport n s).reqQueue = s.reqQueue ∧ (dropReport n s).pen = s.pen ∧ (dropReport n s).lrp = s.lrp ∧ (dropReport n s).ntf = s.ntf ∧ (dropReport n s).psr = s.psr := by
  unfold dropReport
  (repeat' split) <;> simp
@[simp] theorem dropReport_pending (n : Nat) (s : State) : (dropReport n s).pending = s.pending := (dropReport_keeps n s).1
@[simp] theorem dropReport_inReset (n : Nat) (s : State) : (dropReport n s).inReset = s.inReset := (dropReport_keeps n s).2.1
@[simp] theorem dropReport_scr (n : Nat) (s : State) : (dropReport n s).scr = s.scr := (dropReport_keeps n s).2.2.1
@[simp] theorem dropReport_sct (n : Nat) (s : State) : (dropReport n s).sct = s.sct := (dropReport_keeps n s).2.2.2.1
@[simp] theorem dropReport_pins (n : Nat) (s : State) : (dropReport n s).pins = s.pins := (dropReport_keeps n s).2.2.2.2.1
@[simp] theorem dropReport_dir (n : Nat) (s : State) : (dropReport n s).dir = s.dir := (dropReport_keeps n s).2.2.2.2.2.1
@[simp] theorem dropReport_degrees (n : Nat) (s : State) : (dropReport n s).degrees = s.degrees := (dropReport_keeps n s).2.2.2.2.2.2.1
@[simp] theorem dropReport_spm (n : Nat) (s : State) : (dropReport n s).spm = s.spm := (dropReport_keeps n s).2.2.2.2.2.2.2.1
@[simp] theorem dropReport_org (n : Nat) (s : State) : (dropReport n s).org = s.org := (dropReport_keeps n s).2.2.2.2.2.2.2.2.1
@[simp] theorem dropReport_slots (n : Nat) (s : State) : (dropReport n s).slots = s.slots := (dropReport_keeps n s).2.2.2.2.2.2.2.2.2.1
@[simp] theorem dropReport_reqQueue (n : Nat) (s : State) : (dropReport n s).reqQueue = s.reqQueue := (dropReport_keeps n s).2.2.2.2.2.2.2.2.2.2.1
@[simp] theorem dropReport_pen (n : Nat) (s : State) : (dropReport n s).pen = s.pen := (dropReport_keeps n s).2.2.2.2.2.2.2.2.2.2.2.1
@[simp] theorem dropReport_lrp (n : Nat) (s : State) : (dropReport n s).lrp = s.lrp := (dropReport_keeps n s).2.2.2.2.2.2.2.2.2.2.2.2.1
@[simp] theorem dropReport_ntf (n : Nat) (s : State) : (dropReport n s).ntf = s.ntf := (dropReport_keeps n s).2.2.2.2.2.2.2.2.2.2.2.2.2.1
@[simp] theorem dropReport_psr (n : Nat) (s : State) : (dropReport n s).psr = s.psr := (dropReport_keeps n s).2.2.2.2.2.2.2.2.2.2.2.2.2.2

theorem dropIntentsOf_keeps (u : Uid) (s : State) :
    (dropIntentsOf u s).pending = s.pending ∧ (dropIntentsOf u s).inReset = s.inReset ∧ (dropIntentsOf u s).scr = s.scr ∧ (dropIntentsOf u s).sct = s.sct ∧ (dropIntentsOf u s).pins = s.pins ∧ (dropIntentsOf u s).dir = s.dir ∧ (dropIntentsOf u s).degrees = s.degrees ∧ (dropIntentsOf u s).spm = s.spm ∧ (dropIntentsOf u s).org = s.org ∧ (dropIntentsOf u s).slots = s.slots ∧ (dropIntentsOf u s).reqQueue = s.reqQueue ∧ (dropIntentsOf u s).pen = s.pen ∧ (dropIntentsOf u s).lrp = s.lrp ∧ (dropIntentsOf u s).ntf = s.ntf ∧ (dropIntentsOf u s).psr = s.psr := by
  unfold dropIntentsOf
  (repeat' split) <;> simp
@[simp] theorem dropIntentsOf_pending (u : Uid) (s : State) : (dropIntentsOf u s).pending = s.pending := (dropIntentsOf_keeps u s).1
@[simp] theorem dropIntentsOf_inReset (u : Uid) (s : State) : (dropIntentsOf u s).inReset = s.inReset := (dropIntentsOf_keeps u s).2.1
@[simp] theorem dropIntentsOf_scr (u : Uid) (s : State) : (dropIntentsOf u s).scr = s.scr := (dropIntentsOf_keeps u s).2.2.1
@[simp] theorem dropIntentsOf_sct (u : Uid) (s : State) : (dropIntentsOf u s).sct = s.sct := (dropIntentsOf_keeps u s).2.2.2.1
@[simp] theorem dropIntentsOf_pins (u : Uid) (s : State) : (dropIntentsOf u s).pins = s.pins := (dropIntentsOf_keeps u s).2.2.2.2.1
@[simp] theorem dropIntentsOf_dir (u : Uid) (s : State) : (dropIntentsOf u s).dir = s.dir := (dropIntentsOf_keeps u s).2.2.2.2.2.1
@[simp] theorem dropIntentsOf_degrees (u : Uid) (s : State) : (dropIntentsOf u s).degrees = s.degrees := (dropIntentsOf_keeps u s).2.2.2.2.2.2.1
@[simp] theorem dropIntentsOf_spm (u : Uid) (s : State) : (dropIntentsOf u s).spm = s.spm := (dropIntentsOf_keeps u s).2.2.2.2.2.2.2.1
@[simp] theorem dropIntentsOf_org (u : Uid) (s : State) : (dropIntentsOf u s).org = s.org := (dropIntentsOf_keeps u s).2.2.2.2.2.2.2.2.1
@[simp] theorem dropIntentsOf_slots (u : Uid) (s : State) : (dropIntentsOf u s).slots = s.slots := (dropIntentsOf_keeps u s).2.2.2.2.2.2.2.2.2.1
@[simp] theorem dropIntentsOf_reqQueue (u : Uid) (s : State) : (dropIntentsOf u s).reqQueue = s.reqQueue := (dropIntentsOf_keeps u s).2.2.2.2.2.2.2.2.2.2.1
@[simp] theorem dropIntentsOf_pen (u : Uid) (s : State) : (dropIntentsOf u s).pen = s.pen := (dropIntentsOf_keeps u s).2.2.2.2.2.2.2.2.2.2.2.1
@[simp] theorem dropIntentsOf_lrp (u : Uid) (s : State) : (dropIntentsOf u s).lrp = s.lrp := (dropIntentsOf_keeps u s).2.2.2.2.2.2.2.2.2.2.2.2.1
@[simp] theorem dropIntentsOf_ntf (u : Uid) (s : State) : (dropIntentsOf u s).ntf = s.ntf := (dropIntentsOf_keeps u s).2.2.2.2.2.2.2.2.2.2.2.2.2.1
@[simp] theorem dropIntentsOf_psr (u : Uid) (s : State) : (dropIntentsOf u s).psr = s.psr := (dropIntentsOf_keeps u s).2.2.2.2.2.2.2.2.2.2.2.2.2.2

theorem storeIntent_keeps (e : PeerIntent) (s : State) :
    (storeIntent e s).pending = s.pending ∧ (storeIntent e s).inReset = s.inReset ∧ (storeIntent e s).scr = s.scr ∧ (storeIntent e s).sct = s.sct ∧ (storeIntent e s).pins = s.pins ∧ (storeIntent e s).dir = s.dir ∧ (storeIntent e s).degrees = s.degrees ∧ (storeIntent e s).spm = s.spm ∧ (storeIntent e s).org = s.org ∧ (storeIntent e s).slots = s.slots ∧ (storeIntent e s).reqQueue = s.reqQueue ∧ (storeIntent e s).pen = s.pen ∧ (storeIntent e s).lrp = s.lrp ∧ (storeIntent e s).psr = s.psr := by
  unfold storeIntent
  (repeat' split) <;> simp
@[simp] theorem storeIntent_pending (e : PeerIntent) (s : State) : (storeIntent e s).pending = s.pending := (storeIntent_keeps e s).1
@[simp] theorem storeIntent_inReset (e : PeerIntent) (s : State) : (storeIntent e s).inReset = s.inReset := (storeIntent_keeps e s).2.1
@[simp] theorem storeIntent_scr (e : PeerIntent) (s : State) : (storeIntent e s).scr = s.scr := (storeIntent_keeps e s).2.2.1
@[simp] theorem storeIntent_sct (e : PeerIntent) (s : State) : (storeIntent e s).sct = s.sct := (storeIntent_keeps e s).2.2.2.1
@[simp] theorem storeIntent_pins (e : PeerIntent) (s : State) : (storeIntent e s).pins = s.pins := (storeIntent_keeps e s).2.2.2.2.1
@[simp] theorem storeIntent_dir (e : PeerIntent) (s : State) : (storeIntent e s).dir = s.dir := (storeIntent_keeps e s).2.2.2.2.2.1
@[simp] theorem storeIntent_degrees (e : PeerIntent) (s : State) : (storeIntent e s).degrees = s.degrees := (storeIntent_keeps e s).2.2.2.2.2.2.1
@[simp] theorem storeIntent_spm (e : PeerIntent) (s : State) : (storeIntent e s).spm = s.spm := (storeIntent_keeps e s).2.2.2.2.2.2.2.1
@[simp] theorem storeIntent_org (e : PeerIntent) (s : State) : (storeIntent e s).org = s.org := (storeIntent_keeps e s).2.2.2.2.2.2.2.2.1
@[simp] theorem storeIntent_slots (e : PeerIntent) (s : State) : (storeIntent e s).slots = s.slots := (storeIntent_keeps e s).2.2.2.2.2.2.2.2.2.1
@[simp] theorem storeIntent_reqQueue (e : PeerIntent) (s : State) : (storeIntent e s).reqQueue = s.reqQueue := (storeIntent_keeps e s).2.2.2.2.2.2.2.2.2.2.1
@[simp] theorem storeIntent_pen (e : PeerIntent) (s : State) : (storeIntent e s).pen = s.pen := (storeIntent_keeps e s).2.2.2.2.2.2.2.2.2.2.2.1
@[simp] theorem storeIntent_lrp (e : PeerIntent) (s : State) : (storeIntent e s).lrp = s.lrp := (storeIntent_keeps e s).2.2.2.2.2.2.2.2.2.2.2.2.1
@[simp] theorem storeIntent_psr (e : PeerIntent) (s : State) : (storeIntent e s).psr = s.psr := (storeIntent_keeps e s).2.2.2.2.2.2.2.2.2.2.2.2.2

theorem releaseIntent_keeps (u : Uid) (id : Nat) (s : State) :
    (releaseIntent u id s).pending = s.pending ∧ (releaseIntent u id s).inReset = s.inReset ∧ (releaseIntent u id s).scr = s.scr ∧ (releaseIntent u id s).sct = s.sct ∧ (releaseIntent u id s).pins = s.pins ∧ (releaseIntent u id s).dir = s.dir ∧ (releaseIntent u id s).degrees = s.degrees ∧ (releaseIntent u id s).spm = s.spm ∧ (releaseIntent u id s).org = s.org ∧ (releaseIntent u id s).slots = s.slots ∧ (releaseIntent u id s).reqQueue = s.reqQueue ∧ (releaseIntent u id s).pen = s.pen ∧ (releaseIntent u id s).lrp = s.lrp ∧ (releaseIntent u id s).ntf = s.ntf ∧ (releaseIntent u id s).psr = s.psr := by
  unfold releaseIntent
  (repeat' split) <;> simp
@[simp] theorem releaseIntent_pending (u : Uid) (id : Nat) (s : State) : (releaseIntent u id s).pending = s.pending := (releaseIntent_keeps u id s).1
@[simp] theorem releaseIntent_inReset (u : Uid) (id : Nat) (s : State) : (releaseIntent u id s).inReset = s.inReset := (releaseIntent_keeps u id s).2.1
@[simp] theorem releaseIntent_scr (u : Uid) (id : Nat) (s : State) : (releaseIntent u id s).scr = s.scr := (releaseIntent_keeps u id s).2.2.1
@[simp] theorem releaseIntent_sct (u : Uid) (id : Nat) (s : State) : (releaseIntent u id s).sct = s.sct := (releaseIntent_keeps u id s).2.2.2.1
@[simp] theorem releaseIntent_pins (u : Uid) (id : Nat) (s : State) : (releaseIntent u id s).pins = s.pins := (releaseIntent_keeps u id s).2.2.2.2.1
@[simp] theorem releaseIntent_dir (u : Uid) (id : Nat) (s : State) : (releaseIntent u id s).dir = s.dir := (releaseIntent_keeps u id s).2.2.2.2.2.1
@[simp] theorem releaseIntent_degrees (u : Uid) (id : Nat) (s : State) : (releaseIntent u id s).degrees = s.degrees := (releaseIntent_keeps u id s).2.2.2.2.2.2.1
@[simp] theorem releaseIntent_spm (u : Uid) (id : Nat) (s : State) : (releaseIntent u id s).spm = s.spm := (releaseIntent_keeps u id s).2.2.2.2.2.2.2.1
@[simp] theorem releaseIntent_org (u : Uid) (id : Nat) (s : State) : (releaseIntent u id s).org = s.org := (releaseIntent_keeps u id s).2.2.2.2.2.2.2.2.1
@[simp] theorem releaseIntent_slots (u : Uid) (id : Nat) (s : State) : (releaseIntent u id s).slots = s.slots := (releaseIntent_keeps u id s).2.2.2.2.2.2.2.2.2.1
@[simp] theorem releaseIntent_reqQueue (u : Uid) (id : Nat) (s : State) : (releaseIntent u id s).reqQueue = s.reqQueue := (releaseIntent_keeps u id s).2.2.2.2.2.2.2.2.2.2.1
@[simp] theorem releaseIntent_pen (u : Uid) (id : Nat) (s : State) : (releaseIntent u id s).pen = s.pen := (releaseIntent_keeps u id s).2.2.2.2.2.2.2.2.2.2.2.1
@[simp] theorem releaseIntent_lrp (u : Uid) (id : Nat) (s : State) : (releaseIntent u id s).lrp = s.lrp := (releaseIntent_keeps u id s).2.2.2.2.2.2.2.2.2.2.2.2.1
@[simp] theorem releaseIntent_ntf (u : Uid) (id : Nat) (s : State) : (releaseIntent u id s).ntf = s.ntf := (releaseIntent_keeps u id s).2.2.2.2.2.2.2.2.2.2.2.2.2.1
@[simp] theorem releaseIntent_psr (u : Uid) (id : Nat) (s : State) : (releaseIntent u id s).psr = s.psr := (releaseIntent_keeps u id s).2.2.2.2.2.2.2.2.2.2.2.2.2.2

theorem expireIntent_keeps (p : Nat) (s : State) :
    (expireIntent p s).pending = s.pending ∧ (expireIntent p s).inReset = s.inReset ∧ (expireIntent p s).scr = s.scr ∧ (expireIntent p s).sct = s.sct ∧ (expireIntent p s).pins = s.pins ∧ (expireIntent p s).dir = s.dir ∧ (expireIntent p s).degrees = s.degrees ∧ (expireIntent p s).spm = s.spm ∧ (expireIntent p s).org = s.org ∧ (expireIntent p s).slots = s.slots ∧ (expireIntent p s).reqQueue = s.reqQueue ∧ (expireIntent p s).pen = s.pen ∧ (expireIntent p s).lrp = s.lrp ∧ (expireIntent p s).ntf = s.ntf ∧ (expireIntent p s).psr = s.psr := by
  unfold expireIntent
  (repeat' split) <;> simp
@[simp] theorem expireIntent_pending (p : Nat) (s : State) : (expireIntent p s).pending = s.pending := (expireIntent_keeps p s).1
@[simp] theorem expireIntent_inReset (p : Nat) (s : State) : (expireIntent p s).inReset = s.inReset := (expireIntent_keeps p s).2.1
@[simp] theorem expireIntent_scr (p : Nat) (s : State) : (expireIntent p s).scr = s.scr := (expireIntent_keeps p s).2.2.1
@[simp] theorem expireIntent_sct (p : Nat) (s : State) : (expireIntent p s).sct = s.sct := (expireIntent_keeps p s).2.2.2.1
@[simp] theorem expireIntent_pins (p : Nat) (s : State) : (expireIntent p s).pins = s.pins := (expireIntent_keeps p s).2.2.2.2.1
@[simp] theorem expireIntent_dir (p : Nat) (s : State) : (expireIntent p s).dir = s.dir := (expireIntent_keeps p s).2.2.2.2.2.1
@[simp] theorem expireIntent_degrees (p : Nat) (s : State) : (expireIntent p s).degrees = s.degrees := (expireIntent_keeps p s).2.2.2.2.2.2.1
@[simp] theorem expireIntent_spm (p : Nat) (s : State) : (expireIntent p s).spm = s.spm := (expireIntent_keeps p s).2.2.2.2.2.2.2.1
@[simp] theorem expireIntent_org (p : Nat) (s : State) : (expireIntent p s).org = s.org := (expireIntent_keeps p s).2.2.2.2.2.2.2.2.1
@[simp] theorem expireIntent_slots (p : Nat) (s : State) : (expireIntent p s).slots = s.slots := (expireIntent_keeps p s).2.2.2.2.2.2.2.2.2.1
@[simp] theorem expireIntent_reqQueue (p : Nat) (s : State) : (expireIntent p s).reqQueue = s.reqQueue := (expireIntent_keeps p s).2.2.2.2.2.2.2.2.2.2.1
@[simp] theorem expireIntent_pen (p : Nat) (s : State) : (expireIntent p s).pen = s.pen := (expireIntent_keeps p s).2.2.2.2.2.2.2.2.2.2.2.1
@[simp] theorem expireIntent_lrp (p : Nat) (s : State) : (expireIntent p s).lrp = s.lrp := (expireIntent_keeps p s).2.2.2.2.2.2.2.2.2.2.2.2.1
@[simp] theorem expireIntent_ntf (p : Nat) (s : State) : (expireIntent p s).ntf = s.ntf := (expireIntent_keeps p s).2.2.2.2.2.2.2.2.2.2.2.2.2.1
@[simp] theorem expireIntent_psr (p : Nat) (s : State) : (expireIntent p s).psr = s.psr := (expireIntent_keeps p s).2.2.2.2.2.2.2.2.2.2.2.2.2.2

theorem originate_keeps (s : State) :
    (originate s).pending = s.pending ∧ (originate s).inReset = s.inReset ∧ (originate s).scr = s.scr ∧ (originate s).pins = s.pins ∧ (originate s).dir = s.dir ∧ (originate s).degrees = s.degrees ∧ (originate s).spm = s.spm ∧ (originate s).slots = s.slots ∧ (originate s).reqQueue = s.reqQueue ∧ (originate s).pen = s.pen ∧ (originate s).lrp = s.lrp ∧ (originate s).psr = s.psr := by
  unfold originate
  (repeat' split) <;> simp
@[simp] theorem originate_pending (s : State) : (originate s).pending = s.pending := (originate_keeps s).1
@[simp] theorem originate_inReset (s : State) : (originate s).inReset = s.inReset := (originate_keeps s).2.1
@[simp] theorem originate_scr (s : State) : (originate s).scr = s.scr := (originate_keeps s).2.2.1
@[simp] theorem originate_pins (s : State) : (originate s).pins = s.pins := (originate_keeps s).2.2.2.1
@[simp] theorem originate_dir (s : State) : (originate s).dir = s.dir := (originate_keeps s).2.2.2.2.1
@[simp] theorem originate_degrees (s : State) : (originate s).degrees = s.degrees := (originate_keeps s).2.2.2.2.2.1
@[simp] theorem originate_spm (s : State) : (originate s).spm = s.spm := (originate_keeps s).2.2.2.2.2.2.1
@[simp] theorem originate_slots (s : State) : (originate s).slots = s.slots := (originate_keeps s).2.2.2.2.2.2.2.1
@[simp] theorem originate_reqQueue (s : State) : (originate s).reqQueue = s.reqQueue := (originate_keeps s).2.2.2.2.2.2.2.2.1
@[simp] theorem originate_pen (s : State) : (originate s).pen = s.pen := (originate_keeps s).2.2.2.2.2.2.2.2.2.1
@[simp] theorem originate_lrp (s : State) : (originate s).lrp = s.lrp := (originate_keeps s).2.2.2.2.2.2.2.2.2.2.1
@[simp] theorem originate_psr (s : State) : (originate s).psr = s.psr := (originate_keeps s).2.2.2.2.2.2.2.2.2.2.2

theorem originateHeldDown_keeps (s : State) :
    (originateHeldDown s).pending = s.pending ∧ (originateHeldDown s).inReset = s.inReset ∧ (originateHeldDown s).scr = s.scr ∧ (originateHeldDown s).pins = s.pins ∧ (originateHeldDown s).dir = s.dir ∧ (originateHeldDown s).degrees = s.degrees ∧ (originateHeldDown s).spm = s.spm ∧ (originateHeldDown s).slots = s.slots ∧ (originateHeldDown s).reqQueue = s.reqQueue ∧ (originateHeldDown s).pen = s.pen ∧ (originateHeldDown s).lrp = s.lrp ∧ (originateHeldDown s).psr = s.psr := by
  unfold originateHeldDown
  (repeat' split) <;> simp
@[simp] theorem originateHeldDown_pending (s : State) : (originateHeldDown s).pending = s.pending := (originateHeldDown_keeps s).1
@[simp] theorem originateHeldDown_inReset (s : State) : (originateHeldDown s).inReset = s.inReset := (originateHeldDown_keeps s).2.1
@[simp] theorem originateHeldDown_scr (s : State) : (originateHeldDown s).scr = s.scr := (originateHeldDown_keeps s).2.2.1
@[simp] theorem originateHeldDown_pins (s : State) : (originateHeldDown s).pins = s.pins := (originateHeldDown_keeps s).2.2.2.1
@[simp] theorem originateHeldDown_dir (s : State) : (originateHeldDown s).dir = s.dir := (originateHeldDown_keeps s).2.2.2.2.1
@[simp] theorem originateHeldDown_degrees (s : State) : (originateHeldDown s).degrees = s.degrees := (originateHeldDown_keeps s).2.2.2.2.2.1
@[simp] theorem originateHeldDown_spm (s : State) : (originateHeldDown s).spm = s.spm := (originateHeldDown_keeps s).2.2.2.2.2.2.1
@[simp] theorem originateHeldDown_slots (s : State) : (originateHeldDown s).slots = s.slots := (originateHeldDown_keeps s).2.2.2.2.2.2.2.1
@[simp] theorem originateHeldDown_reqQueue (s : State) : (originateHeldDown s).reqQueue = s.reqQueue := (originateHeldDown_keeps s).2.2.2.2.2.2.2.2.1
@[simp] theorem originateHeldDown_pen (s : State) : (originateHeldDown s).pen = s.pen := (originateHeldDown_keeps s).2.2.2.2.2.2.2.2.2.1
@[simp] theorem originateHeldDown_lrp (s : State) : (originateHeldDown s).lrp = s.lrp := (originateHeldDown_keeps s).2.2.2.2.2.2.2.2.2.2.1
@[simp] theorem originateHeldDown_psr (s : State) : (originateHeldDown s).psr = s.psr := (originateHeldDown_keeps s).2.2.2.2.2.2.2.2.2.2.2

theorem orgRequest_keeps (s : State) :
    (orgRequest s).pending = s.pending ∧ (orgRequest s).inReset = s.inReset ∧ (orgRequest s).scr = s.scr ∧ (orgRequest s).pins = s.pins ∧ (orgRequest s).dir = s.dir ∧ (orgRequest s).degrees = s.degrees ∧ (orgRequest s).spm = s.spm ∧ (orgRequest s).slots = s.slots ∧ (orgRequest s).reqQueue = s.reqQueue ∧ (orgRequest s).pen = s.pen ∧ (orgRequest s).lrp = s.lrp ∧ (orgRequest s).psr = s.psr := by
  unfold orgRequest
  (repeat' split) <;> simp
@[simp] theorem orgRequest_pending (s : State) : (orgRequest s).pending = s.pending := (orgRequest_keeps s).1
@[simp] theorem orgRequest_inReset (s : State) : (orgRequest s).inReset = s.inReset := (orgRequest_keeps s).2.1
@[simp] theorem orgRequest_scr (s : State) : (orgRequest s).scr = s.scr := (orgRequest_keeps s).2.2.1
@[simp] theorem orgRequest_pins (s : State) : (orgRequest s).pins = s.pins := (orgRequest_keeps s).2.2.2.1
@[simp] theorem orgRequest_dir (s : State) : (orgRequest s).dir = s.dir := (orgRequest_keeps s).2.2.2.2.1
@[simp] theorem orgRequest_degrees (s : State) : (orgRequest s).degrees = s.degrees := (orgRequest_keeps s).2.2.2.2.2.1
@[simp] theorem orgRequest_spm (s : State) : (orgRequest s).spm = s.spm := (orgRequest_keeps s).2.2.2.2.2.2.1
@[simp] theorem orgRequest_slots (s : State) : (orgRequest s).slots = s.slots := (orgRequest_keeps s).2.2.2.2.2.2.2.1
@[simp] theorem orgRequest_reqQueue (s : State) : (orgRequest s).reqQueue = s.reqQueue := (orgRequest_keeps s).2.2.2.2.2.2.2.2.1
@[simp] theorem orgRequest_pen (s : State) : (orgRequest s).pen = s.pen := (orgRequest_keeps s).2.2.2.2.2.2.2.2.2.1
@[simp] theorem orgRequest_lrp (s : State) : (orgRequest s).lrp = s.lrp := (orgRequest_keeps s).2.2.2.2.2.2.2.2.2.2.1
@[simp] theorem orgRequest_psr (s : State) : (orgRequest s).psr = s.psr := (orgRequest_keeps s).2.2.2.2.2.2.2.2.2.2.2

theorem orgChange_keeps (s : State) :
    (orgChange s).pending = s.pending ∧ (orgChange s).inReset = s.inReset ∧ (orgChange s).scr = s.scr ∧ (orgChange s).pins = s.pins ∧ (orgChange s).dir = s.dir ∧ (orgChange s).degrees = s.degrees ∧ (orgChange s).spm = s.spm ∧ (orgChange s).slots = s.slots ∧ (orgChange s).reqQueue = s.reqQueue ∧ (orgChange s).pen = s.pen ∧ (orgChange s).lrp = s.lrp ∧ (orgChange s).psr = s.psr := by
  unfold orgChange
  (repeat' split) <;> simp
@[simp] theorem orgChange_pending (s : State) : (orgChange s).pending = s.pending := (orgChange_keeps s).1
@[simp] theorem orgChange_inReset (s : State) : (orgChange s).inReset = s.inReset := (orgChange_keeps s).2.1
@[simp] theorem orgChange_scr (s : State) : (orgChange s).scr = s.scr := (orgChange_keeps s).2.2.1
@[simp] theorem orgChange_pins (s : State) : (orgChange s).pins = s.pins := (orgChange_keeps s).2.2.2.1
@[simp] theorem orgChange_dir (s : State) : (orgChange s).dir = s.dir := (orgChange_keeps s).2.2.2.2.1
@[simp] theorem orgChange_degrees (s : State) : (orgChange s).degrees = s.degrees := (orgChange_keeps s).2.2.2.2.2.1
@[simp] theorem orgChange_spm (s : State) : (orgChange s).spm = s.spm := (orgChange_keeps s).2.2.2.2.2.2.1
@[simp] theorem orgChange_slots (s : State) : (orgChange s).slots = s.slots := (orgChange_keeps s).2.2.2.2.2.2.2.1
@[simp] theorem orgChange_reqQueue (s : State) : (orgChange s).reqQueue = s.reqQueue := (orgChange_keeps s).2.2.2.2.2.2.2.2.1
@[simp] theorem orgChange_pen (s : State) : (orgChange s).pen = s.pen := (orgChange_keeps s).2.2.2.2.2.2.2.2.2.1
@[simp] theorem orgChange_lrp (s : State) : (orgChange s).lrp = s.lrp := (orgChange_keeps s).2.2.2.2.2.2.2.2.2.2.1
@[simp] theorem orgChange_psr (s : State) : (orgChange s).psr = s.psr := (orgChange_keeps s).2.2.2.2.2.2.2.2.2.2.2

theorem orgChangeIf_keeps (c : Bool) (s : State) :
    (orgChangeIf c s).pending = s.pending ∧ (orgChangeIf c s).inReset = s.inReset ∧ (orgChangeIf c s).scr = s.scr ∧ (orgChangeIf c s).pins = s.pins ∧ (orgChangeIf c s).dir = s.dir ∧ (orgChangeIf c s).degrees = s.degrees ∧ (orgChangeIf c s).spm = s.spm ∧ (orgChangeIf c s).slots = s.slots ∧ (orgChangeIf c s).reqQueue = s.reqQueue ∧ (orgChangeIf c s).pen = s.pen ∧ (orgChangeIf c s).lrp = s.lrp ∧ (orgChangeIf c s).psr = s.psr := by
  unfold orgChangeIf
  (repeat' split) <;> simp
@[simp] theorem orgChangeIf_pending (c : Bool) (s : State) : (orgChangeIf c s).pending = s.pending := (orgChangeIf_keeps c s).1
@[simp] theorem orgChangeIf_inReset (c : Bool) (s : State) : (orgChangeIf c s).inReset = s.inReset := (orgChangeIf_keeps c s).2.1
@[simp] theorem orgChangeIf_scr (c : Bool) (s : State) : (orgChangeIf c s).scr = s.scr := (orgChangeIf_keeps c s).2.2.1
@[simp] theorem orgChangeIf_pins (c : Bool) (s : State) : (orgChangeIf c s).pins = s.pins := (orgChangeIf_keeps c s).2.2.2.1
@[simp] theorem orgChangeIf_dir (c : Bool) (s : State) : (orgChangeIf c s).dir = s.dir := (orgChangeIf_keeps c s).2.2.2.2.1
@[simp] theorem orgChangeIf_degrees (c : Bool) (s : State) : (orgChangeIf c s).degrees = s.degrees := (orgChangeIf_keeps c s).2.2.2.2.2.1
@[simp] theorem orgChangeIf_spm (c : Bool) (s : State) : (orgChangeIf c s).spm = s.spm := (orgChangeIf_keeps c s).2.2.2.2.2.2.1
@[simp] theorem orgChangeIf_slots (c : Bool) (s : State) : (orgChangeIf c s).slots = s.slots := (orgChangeIf_keeps c s).2.2.2.2.2.2.2.1
@[simp] theorem orgChangeIf_reqQueue (c : Bool) (s : State) : (orgChangeIf c s).reqQueue = s.reqQueue := (orgChangeIf_keeps c s).2.2.2.2.2.2.2.2.1
@[simp] theorem orgChangeIf_pen (c : Bool) (s : State) : (orgChangeIf c s).pen = s.pen := (orgChangeIf_keeps c s).2.2.2.2.2.2.2.2.2.1
@[simp] theorem orgChangeIf_lrp (c : Bool) (s : State) : (orgChangeIf c s).lrp = s.lrp := (orgChangeIf_keeps c s).2.2.2.2.2.2.2.2.2.2.1
@[simp] theorem orgChangeIf_psr (c : Bool) (s : State) : (orgChangeIf c s).psr = s.psr := (orgChangeIf_keeps c s).2.2.2.2.2.2.2.2.2.2.2

theorem recordGap_keeps (n : Nat) (s : State) :
    (recordGap n s).pending = s.pending ∧ (recordGap n s).inReset = s.inReset ∧ (recordGap n s).scr = s.scr ∧ (recordGap n s).pins = s.pins ∧ (recordGap n s).dir = s.dir ∧ (recordGap n s).degrees = s.degrees ∧ (recordGap n s).spm = s.spm ∧ (recordGap n s).slots = s.slots ∧ (recordGap n s).reqQueue = s.reqQueue ∧ (recordGap n s).pen = s.pen ∧ (recordGap n s).lrp = s.lrp ∧ (recordGap n s).psr = s.psr := by
  unfold recordGap
  (repeat' split) <;> simp
@[simp] theorem recordGap_pending (n : Nat) (s : State) : (recordGap n s).pending = s.pending := (recordGap_keeps n s).1
@[simp] theorem recordGap_inReset (n : Nat) (s : State) : (recordGap n s).inReset = s.inReset := (recordGap_keeps n s).2.1
@[simp] theorem recordGap_scr (n : Nat) (s : State) : (recordGap n s).scr = s.scr := (recordGap_keeps n s).2.2.1
@[simp] theorem recordGap_pins (n : Nat) (s : State) : (recordGap n s).pins = s.pins := (recordGap_keeps n s).2.2.2.1
@[simp] theorem recordGap_dir (n : Nat) (s : State) : (recordGap n s).dir = s.dir := (recordGap_keeps n s).2.2.2.2.1
@[simp] theorem recordGap_degrees (n : Nat) (s : State) : (recordGap n s).degrees = s.degrees := (recordGap_keeps n s).2.2.2.2.2.1
@[simp] theorem recordGap_spm (n : Nat) (s : State) : (recordGap n s).spm = s.spm := (recordGap_keeps n s).2.2.2.2.2.2.1
@[simp] theorem recordGap_slots (n : Nat) (s : State) : (recordGap n s).slots = s.slots := (recordGap_keeps n s).2.2.2.2.2.2.2.1
@[simp] theorem recordGap_reqQueue (n : Nat) (s : State) : (recordGap n s).reqQueue = s.reqQueue := (recordGap_keeps n s).2.2.2.2.2.2.2.2.1
@[simp] theorem recordGap_pen (n : Nat) (s : State) : (recordGap n s).pen = s.pen := (recordGap_keeps n s).2.2.2.2.2.2.2.2.2.1
@[simp] theorem recordGap_lrp (n : Nat) (s : State) : (recordGap n s).lrp = s.lrp := (recordGap_keeps n s).2.2.2.2.2.2.2.2.2.2.1
@[simp] theorem recordGap_psr (n : Nat) (s : State) : (recordGap n s).psr = s.psr := (recordGap_keeps n s).2.2.2.2.2.2.2.2.2.2.2

theorem holdDownExpired_keeps (s : State) :
    (holdDownExpired s).pending = s.pending ∧ (holdDownExpired s).inReset = s.inReset ∧ (holdDownExpired s).scr = s.scr ∧ (holdDownExpired s).pins = s.pins ∧ (holdDownExpired s).dir = s.dir ∧ (holdDownExpired s).degrees = s.degrees ∧ (holdDownExpired s).spm = s.spm ∧ (holdDownExpired s).slots = s.slots ∧ (holdDownExpired s).reqQueue = s.reqQueue ∧ (holdDownExpired s).pen = s.pen ∧ (holdDownExpired s).lrp = s.lrp ∧ (holdDownExpired s).psr = s.psr := by
  unfold holdDownExpired
  (repeat' split) <;> simp
@[simp] theorem holdDownExpired_pending (s : State) : (holdDownExpired s).pending = s.pending := (holdDownExpired_keeps s).1
@[simp] theorem holdDownExpired_inReset (s : State) : (holdDownExpired s).inReset = s.inReset := (holdDownExpired_keeps s).2.1
@[simp] theorem holdDownExpired_scr (s : State) : (holdDownExpired s).scr = s.scr := (holdDownExpired_keeps s).2.2.1
@[simp] theorem holdDownExpired_pins (s : State) : (holdDownExpired s).pins = s.pins := (holdDownExpired_keeps s).2.2.2.1
@[simp] theorem holdDownExpired_dir (s : State) : (holdDownExpired s).dir = s.dir := (holdDownExpired_keeps s).2.2.2.2.1
@[simp] theorem holdDownExpired_degrees (s : State) : (holdDownExpired s).degrees = s.degrees := (holdDownExpired_keeps s).2.2.2.2.2.1
@[simp] theorem holdDownExpired_spm (s : State) : (holdDownExpired s).spm = s.spm := (holdDownExpired_keeps s).2.2.2.2.2.2.1
@[simp] theorem holdDownExpired_slots (s : State) : (holdDownExpired s).slots = s.slots := (holdDownExpired_keeps s).2.2.2.2.2.2.2.1
@[simp] theorem holdDownExpired_reqQueue (s : State) : (holdDownExpired s).reqQueue = s.reqQueue := (holdDownExpired_keeps s).2.2.2.2.2.2.2.2.1
@[simp] theorem holdDownExpired_pen (s : State) : (holdDownExpired s).pen = s.pen := (holdDownExpired_keeps s).2.2.2.2.2.2.2.2.2.1
@[simp] theorem holdDownExpired_lrp (s : State) : (holdDownExpired s).lrp = s.lrp := (holdDownExpired_keeps s).2.2.2.2.2.2.2.2.2.2.1
@[simp] theorem holdDownExpired_psr (s : State) : (holdDownExpired s).psr = s.psr := (holdDownExpired_keeps s).2.2.2.2.2.2.2.2.2.2.2

theorem refreshExpired_keeps (s : State) :
    (refreshExpired s).pending = s.pending ∧ (refreshExpired s).inReset = s.inReset ∧ (refreshExpired s).scr = s.scr ∧ (refreshExpired s).pins = s.pins ∧ (refreshExpired s).dir = s.dir ∧ (refreshExpired s).degrees = s.degrees ∧ (refreshExpired s).spm = s.spm ∧ (refreshExpired s).slots = s.slots ∧ (refreshExpired s).reqQueue = s.reqQueue ∧ (refreshExpired s).pen = s.pen ∧ (refreshExpired s).lrp = s.lrp ∧ (refreshExpired s).psr = s.psr := by
  unfold refreshExpired
  (repeat' split) <;> simp
@[simp] theorem refreshExpired_pending (s : State) : (refreshExpired s).pending = s.pending := (refreshExpired_keeps s).1
@[simp] theorem refreshExpired_inReset (s : State) : (refreshExpired s).inReset = s.inReset := (refreshExpired_keeps s).2.1
@[simp] theorem refreshExpired_scr (s : State) : (refreshExpired s).scr = s.scr := (refreshExpired_keeps s).2.2.1
@[simp] theorem refreshExpired_pins (s : State) : (refreshExpired s).pins = s.pins := (refreshExpired_keeps s).2.2.2.1
@[simp] theorem refreshExpired_dir (s : State) : (refreshExpired s).dir = s.dir := (refreshExpired_keeps s).2.2.2.2.1
@[simp] theorem refreshExpired_degrees (s : State) : (refreshExpired s).degrees = s.degrees := (refreshExpired_keeps s).2.2.2.2.2.1
@[simp] theorem refreshExpired_spm (s : State) : (refreshExpired s).spm = s.spm := (refreshExpired_keeps s).2.2.2.2.2.2.1
@[simp] theorem refreshExpired_slots (s : State) : (refreshExpired s).slots = s.slots := (refreshExpired_keeps s).2.2.2.2.2.2.2.1
@[simp] theorem refreshExpired_reqQueue (s : State) : (refreshExpired s).reqQueue = s.reqQueue := (refreshExpired_keeps s).2.2.2.2.2.2.2.2.1
@[simp] theorem refreshExpired_pen (s : State) : (refreshExpired s).pen = s.pen := (refreshExpired_keeps s).2.2.2.2.2.2.2.2.2.1
@[simp] theorem refreshExpired_lrp (s : State) : (refreshExpired s).lrp = s.lrp := (refreshExpired_keeps s).2.2.2.2.2.2.2.2.2.2.1
@[simp] theorem refreshExpired_psr (s : State) : (refreshExpired s).psr = s.psr := (refreshExpired_keeps s).2.2.2.2.2.2.2.2.2.2.2

theorem setChannel_keeps (x : Scr) (s : State) :
    (setChannel x s).pending = s.pending ∧ (setChannel x s).inReset = s.inReset ∧ (setChannel x s).pins = s.pins ∧ (setChannel x s).dir = s.dir ∧ (setChannel x s).degrees = s.degrees ∧ (setChannel x s).spm = s.spm ∧ (setChannel x s).slots = s.slots ∧ (setChannel x s).reqQueue = s.reqQueue ∧ (setChannel x s).pen = s.pen ∧ (setChannel x s).lrp = s.lrp ∧ (setChannel x s).psr = s.psr := by
  unfold setChannel
  (repeat' split) <;> simp
@[simp] theorem setChannel_pending (x : Scr) (s : State) : (setChannel x s).pending = s.pending := (setChannel_keeps x s).1
@[simp] theorem setChannel_inReset (x : Scr) (s : State) : (setChannel x s).inReset = s.inReset := (setChannel_keeps x s).2.1
@[simp] theorem setChannel_pins (x : Scr) (s : State) : (setChannel x s).pins = s.pins := (setChannel_keeps x s).2.2.1
@[simp] theorem setChannel_dir (x : Scr) (s : State) : (setChannel x s).dir = s.dir := (setChannel_keeps x s).2.2.2.1
@[simp] theorem setChannel_degrees (x : Scr) (s : State) : (setChannel x s).degrees = s.degrees := (setChannel_keeps x s).2.2.2.2.1
@[simp] theorem setChannel_spm (x : Scr) (s : State) : (setChannel x s).spm = s.spm := (setChannel_keeps x s).2.2.2.2.2.1
@[simp] theorem setChannel_slots (x : Scr) (s : State) : (setChannel x s).slots = s.slots := (setChannel_keeps x s).2.2.2.2.2.2.1
@[simp] theorem setChannel_reqQueue (x : Scr) (s : State) : (setChannel x s).reqQueue = s.reqQueue := (setChannel_keeps x s).2.2.2.2.2.2.2.1
@[simp] theorem setChannel_pen (x : Scr) (s : State) : (setChannel x s).pen = s.pen := (setChannel_keeps x s).2.2.2.2.2.2.2.2.1
@[simp] theorem setChannel_lrp (x : Scr) (s : State) : (setChannel x s).lrp = s.lrp := (setChannel_keeps x s).2.2.2.2.2.2.2.2.2.1
@[simp] theorem setChannel_psr (x : Scr) (s : State) : (setChannel x s).psr = s.psr := (setChannel_keeps x s).2.2.2.2.2.2.2.2.2.2

theorem stopGap_keeps (s : State) :
    (stopGap s).pending = s.pending ∧ (stopGap s).inReset = s.inReset ∧ (stopGap s).scr = s.scr ∧ (stopGap s).pins = s.pins ∧ (stopGap s).dir = s.dir ∧ (stopGap s).degrees = s.degrees ∧ (stopGap s).spm = s.spm ∧ (stopGap s).org = s.org ∧ (stopGap s).tdb = s.tdb ∧ (stopGap s).slots = s.slots ∧ (stopGap s).reqQueue = s.reqQueue ∧ (stopGap s).pen = s.pen ∧ (stopGap s).lrp = s.lrp ∧ (stopGap s).ntf = s.ntf ∧ (stopGap s).psr = s.psr := by
  unfold stopGap
  (repeat' split) <;> simp
@[simp] theorem stopGap_pending (s : State) : (stopGap s).pending = s.pending := (stopGap_keeps s).1
@[simp] theorem stopGap_inReset (s : State) : (stopGap s).inReset = s.inReset := (stopGap_keeps s).2.1
@[simp] theorem stopGap_scr (s : State) : (stopGap s).scr = s.scr := (stopGap_keeps s).2.2.1
@[simp] theorem stopGap_pins (s : State) : (stopGap s).pins = s.pins := (stopGap_keeps s).2.2.2.1
@[simp] theorem stopGap_dir (s : State) : (stopGap s).dir = s.dir := (stopGap_keeps s).2.2.2.2.1
@[simp] theorem stopGap_degrees (s : State) : (stopGap s).degrees = s.degrees := (stopGap_keeps s).2.2.2.2.2.1
@[simp] theorem stopGap_spm (s : State) : (stopGap s).spm = s.spm := (stopGap_keeps s).2.2.2.2.2.2.1
@[simp] theorem stopGap_org (s : State) : (stopGap s).org = s.org := (stopGap_keeps s).2.2.2.2.2.2.2.1
@[simp] theorem stopGap_tdb (s : State) : (stopGap s).tdb = s.tdb := (stopGap_keeps s).2.2.2.2.2.2.2.2.1
@[simp] theorem stopGap_slots (s : State) : (stopGap s).slots = s.slots := (stopGap_keeps s).2.2.2.2.2.2.2.2.2.1
@[simp] theorem stopGap_reqQueue (s : State) : (stopGap s).reqQueue = s.reqQueue := (stopGap_keeps s).2.2.2.2.2.2.2.2.2.2.1
@[simp] theorem stopGap_pen (s : State) : (stopGap s).pen = s.pen := (stopGap_keeps s).2.2.2.2.2.2.2.2.2.2.2.1
@[simp] theorem stopGap_lrp (s : State) : (stopGap s).lrp = s.lrp := (stopGap_keeps s).2.2.2.2.2.2.2.2.2.2.2.2.1
@[simp] theorem stopGap_ntf (s : State) : (stopGap s).ntf = s.ntf := (stopGap_keeps s).2.2.2.2.2.2.2.2.2.2.2.2.2.1
@[simp] theorem stopGap_psr (s : State) : (stopGap s).psr = s.psr := (stopGap_keeps s).2.2.2.2.2.2.2.2.2.2.2.2.2.2

theorem startFrame_keeps (s : State) :
    (startFrame s).pending = s.pending ∧ (startFrame s).inReset = s.inReset ∧ (startFrame s).pins = s.pins ∧ (startFrame s).dir = s.dir ∧ (startFrame s).degrees = s.degrees ∧ (startFrame s).spm = s.spm ∧ (startFrame s).slots = s.slots ∧ (startFrame s).reqQueue = s.reqQueue ∧ (startFrame s).pen = s.pen ∧ (startFrame s).lrp = s.lrp ∧ (startFrame s).psr = s.psr := by
  unfold startFrame
  try dsimp only
  repeat' apply And.intro
  all_goals (repeat' split) <;> simp
@[simp] theorem startFrame_pending (s : State) : (startFrame s).pending = s.pending := (startFrame_keeps s).1
@[simp] theorem startFrame_inReset (s : State) : (startFrame s).inReset = s.inReset := (startFrame_keeps s).2.1
@[simp] theorem startFrame_pins (s : State) : (startFrame s).pins = s.pins := (startFrame_keeps s).2.2.1
@[simp] theorem startFrame_dir (s : State) : (startFrame s).dir = s.dir := (startFrame_keeps s).2.2.2.1
@[simp] theorem startFrame_degrees (s : State) : (startFrame s).degrees = s.degrees := (startFrame_keeps s).2.2.2.2.1
@[simp] theorem startFrame_spm (s : State) : (startFrame s).spm = s.spm := (startFrame_keeps s).2.2.2.2.2.1
@[simp] theorem startFrame_slots (s : State) : (startFrame s).slots = s.slots := (startFrame_keeps s).2.2.2.2.2.2.1
@[simp] theorem startFrame_reqQueue (s : State) : (startFrame s).reqQueue = s.reqQueue := (startFrame_keeps s).2.2.2.2.2.2.2.1
@[simp] theorem startFrame_pen (s : State) : (startFrame s).pen = s.pen := (startFrame_keeps s).2.2.2.2.2.2.2.2.1
@[simp] theorem startFrame_lrp (s : State) : (startFrame s).lrp = s.lrp := (startFrame_keeps s).2.2.2.2.2.2.2.2.2.1
@[simp] theorem startFrame_psr (s : State) : (startFrame s).psr = s.psr := (startFrame_keeps s).2.2.2.2.2.2.2.2.2.2

theorem endCarrier_keeps (s : State) :
    (endCarrier s).pending = s.pending ∧ (endCarrier s).inReset = s.inReset ∧ (endCarrier s).pins = s.pins ∧ (endCarrier s).dir = s.dir ∧ (endCarrier s).degrees = s.degrees ∧ (endCarrier s).spm = s.spm ∧ (endCarrier s).org = s.org ∧ (endCarrier s).tdb = s.tdb ∧ (endCarrier s).slots = s.slots ∧ (endCarrier s).reqQueue = s.reqQueue ∧ (endCarrier s).pen = s.pen ∧ (endCarrier s).lrp = s.lrp ∧ (endCarrier s).ntf = s.ntf ∧ (endCarrier s).psr = s.psr := by
  unfold endCarrier
  try dsimp only
  repeat' apply And.intro
  all_goals (repeat' split) <;> simp
@[simp] theorem endCarrier_pending (s : State) : (endCarrier s).pending = s.pending := (endCarrier_keeps s).1
@[simp] theorem endCarrier_inReset (s : State) : (endCarrier s).inReset = s.inReset := (endCarrier_keeps s).2.1
@[simp] theorem endCarrier_pins (s : State) : (endCarrier s).pins = s.pins := (endCarrier_keeps s).2.2.1
@[simp] theorem endCarrier_dir (s : State) : (endCarrier s).dir = s.dir := (endCarrier_keeps s).2.2.2.1
@[simp] theorem endCarrier_degrees (s : State) : (endCarrier s).degrees = s.degrees := (endCarrier_keeps s).2.2.2.2.1
@[simp] theorem endCarrier_spm (s : State) : (endCarrier s).spm = s.spm := (endCarrier_keeps s).2.2.2.2.2.1
@[simp] theorem endCarrier_org (s : State) : (endCarrier s).org = s.org := (endCarrier_keeps s).2.2.2.2.2.2.1
@[simp] theorem endCarrier_tdb (s : State) : (endCarrier s).tdb = s.tdb := (endCarrier_keeps s).2.2.2.2.2.2.2.1
@[simp] theorem endCarrier_slots (s : State) : (endCarrier s).slots = s.slots := (endCarrier_keeps s).2.2.2.2.2.2.2.2.1
@[simp] theorem endCarrier_reqQueue (s : State) : (endCarrier s).reqQueue = s.reqQueue := (endCarrier_keeps s).2.2.2.2.2.2.2.2.2.1
@[simp] theorem endCarrier_pen (s : State) : (endCarrier s).pen = s.pen := (endCarrier_keeps s).2.2.2.2.2.2.2.2.2.2.1
@[simp] theorem endCarrier_lrp (s : State) : (endCarrier s).lrp = s.lrp := (endCarrier_keeps s).2.2.2.2.2.2.2.2.2.2.2.1
@[simp] theorem endCarrier_ntf (s : State) : (endCarrier s).ntf = s.ntf := (endCarrier_keeps s).2.2.2.2.2.2.2.2.2.2.2.2.1
@[simp] theorem endCarrier_psr (s : State) : (endCarrier s).psr = s.psr := (endCarrier_keeps s).2.2.2.2.2.2.2.2.2.2.2.2.2

theorem receiveFrame_keeps (f : Frame) (s : State) :
    (receiveFrame f s).pending = s.pending ∧ (receiveFrame f s).inReset = s.inReset ∧ (receiveFrame f s).sct = s.sct ∧ (receiveFrame f s).pins = s.pins ∧ (receiveFrame f s).dir = s.dir ∧ (receiveFrame f s).degrees = s.degrees ∧ (receiveFrame f s).spm = s.spm ∧ (receiveFrame f s).org = s.org ∧ (receiveFrame f s).tdb = s.tdb ∧ (receiveFrame f s).slots = s.slots ∧ (receiveFrame f s).reqQueue = s.reqQueue ∧ (receiveFrame f s).pen = s.pen ∧ (receiveFrame f s).lrp = s.lrp ∧ (receiveFrame f s).psr = s.psr := by
  unfold receiveFrame
  (repeat' split) <;> simp
@[simp] theorem receiveFrame_pending (f : Frame) (s : State) : (receiveFrame f s).pending = s.pending := (receiveFrame_keeps f s).1
@[simp] theorem receiveFrame_inReset (f : Frame) (s : State) : (receiveFrame f s).inReset = s.inReset := (receiveFrame_keeps f s).2.1
@[simp] theorem receiveFrame_sct (f : Frame) (s : State) : (receiveFrame f s).sct = s.sct := (receiveFrame_keeps f s).2.2.1
@[simp] theorem receiveFrame_pins (f : Frame) (s : State) : (receiveFrame f s).pins = s.pins := (receiveFrame_keeps f s).2.2.2.1
@[simp] theorem receiveFrame_dir (f : Frame) (s : State) : (receiveFrame f s).dir = s.dir := (receiveFrame_keeps f s).2.2.2.2.1
@[simp] theorem receiveFrame_degrees (f : Frame) (s : State) : (receiveFrame f s).degrees = s.degrees := (receiveFrame_keeps f s).2.2.2.2.2.1
@[simp] theorem receiveFrame_spm (f : Frame) (s : State) : (receiveFrame f s).spm = s.spm := (receiveFrame_keeps f s).2.2.2.2.2.2.1
@[simp] theorem receiveFrame_org (f : Frame) (s : State) : (receiveFrame f s).org = s.org := (receiveFrame_keeps f s).2.2.2.2.2.2.2.1
@[simp] theorem receiveFrame_tdb (f : Frame) (s : State) : (receiveFrame f s).tdb = s.tdb := (receiveFrame_keeps f s).2.2.2.2.2.2.2.2.1
@[simp] theorem receiveFrame_slots (f : Frame) (s : State) : (receiveFrame f s).slots = s.slots := (receiveFrame_keeps f s).2.2.2.2.2.2.2.2.2.1
@[simp] theorem receiveFrame_reqQueue (f : Frame) (s : State) : (receiveFrame f s).reqQueue = s.reqQueue := (receiveFrame_keeps f s).2.2.2.2.2.2.2.2.2.2.1
@[simp] theorem receiveFrame_pen (f : Frame) (s : State) : (receiveFrame f s).pen = s.pen := (receiveFrame_keeps f s).2.2.2.2.2.2.2.2.2.2.2.1
@[simp] theorem receiveFrame_lrp (f : Frame) (s : State) : (receiveFrame f s).lrp = s.lrp := (receiveFrame_keeps f s).2.2.2.2.2.2.2.2.2.2.2.2.1
@[simp] theorem receiveFrame_psr (f : Frame) (s : State) : (receiveFrame f s).psr = s.psr := (receiveFrame_keeps f s).2.2.2.2.2.2.2.2.2.2.2.2.2

theorem routeEpisode_keeps (e : Episode) (s : State) :
    (routeEpisode e s).pending = s.pending ∧ (routeEpisode e s).inReset = s.inReset ∧ (routeEpisode e s).pins = s.pins ∧ (routeEpisode e s).degrees = s.degrees ∧ (routeEpisode e s).spm = s.spm ∧ (routeEpisode e s).org = s.org ∧ (routeEpisode e s).tdb = s.tdb ∧ (routeEpisode e s).reqQueue = s.reqQueue ∧ (routeEpisode e s).pen = s.pen ∧ (routeEpisode e s).lrp = s.lrp ∧ (routeEpisode e s).psr = s.psr := by
  unfold routeEpisode
  (repeat' split) <;> simp
@[simp] theorem routeEpisode_pending (e : Episode) (s : State) : (routeEpisode e s).pending = s.pending := (routeEpisode_keeps e s).1
@[simp] theorem routeEpisode_inReset (e : Episode) (s : State) : (routeEpisode e s).inReset = s.inReset := (routeEpisode_keeps e s).2.1
@[simp] theorem routeEpisode_pins (e : Episode) (s : State) : (routeEpisode e s).pins = s.pins := (routeEpisode_keeps e s).2.2.1
@[simp] theorem routeEpisode_degrees (e : Episode) (s : State) : (routeEpisode e s).degrees = s.degrees := (routeEpisode_keeps e s).2.2.2.1
@[simp] theorem routeEpisode_spm (e : Episode) (s : State) : (routeEpisode e s).spm = s.spm := (routeEpisode_keeps e s).2.2.2.2.1
@[simp] theorem routeEpisode_org (e : Episode) (s : State) : (routeEpisode e s).org = s.org := (routeEpisode_keeps e s).2.2.2.2.2.1
@[simp] theorem routeEpisode_tdb (e : Episode) (s : State) : (routeEpisode e s).tdb = s.tdb := (routeEpisode_keeps e s).2.2.2.2.2.2.1
@[simp] theorem routeEpisode_reqQueue (e : Episode) (s : State) : (routeEpisode e s).reqQueue = s.reqQueue := (routeEpisode_keeps e s).2.2.2.2.2.2.2.1
@[simp] theorem routeEpisode_pen (e : Episode) (s : State) : (routeEpisode e s).pen = s.pen := (routeEpisode_keeps e s).2.2.2.2.2.2.2.2.1
@[simp] theorem routeEpisode_lrp (e : Episode) (s : State) : (routeEpisode e s).lrp = s.lrp := (routeEpisode_keeps e s).2.2.2.2.2.2.2.2.2.1
@[simp] theorem routeEpisode_psr (e : Episode) (s : State) : (routeEpisode e s).psr = s.psr := (routeEpisode_keeps e s).2.2.2.2.2.2.2.2.2.2

theorem endEpisode_keeps (b : List Bool) (s : State) :
    (endEpisode b s).pending = s.pending ∧ (endEpisode b s).inReset = s.inReset ∧ (endEpisode b s).pins = s.pins ∧ (endEpisode b s).degrees = s.degrees ∧ (endEpisode b s).spm = s.spm ∧ (endEpisode b s).reqQueue = s.reqQueue ∧ (endEpisode b s).pen = s.pen ∧ (endEpisode b s).lrp = s.lrp ∧ (endEpisode b s).psr = s.psr := by
  unfold endEpisode
  (repeat' split) <;> simp
@[simp] theorem endEpisode_pending (b : List Bool) (s : State) : (endEpisode b s).pending = s.pending := (endEpisode_keeps b s).1
@[simp] theorem endEpisode_inReset (b : List Bool) (s : State) : (endEpisode b s).inReset = s.inReset := (endEpisode_keeps b s).2.1
@[simp] theorem endEpisode_pins (b : List Bool) (s : State) : (endEpisode b s).pins = s.pins := (endEpisode_keeps b s).2.2.1
@[simp] theorem endEpisode_degrees (b : List Bool) (s : State) : (endEpisode b s).degrees = s.degrees := (endEpisode_keeps b s).2.2.2.1
@[simp] theorem endEpisode_spm (b : List Bool) (s : State) : (endEpisode b s).spm = s.spm := (endEpisode_keeps b s).2.2.2.2.1
@[simp] theorem endEpisode_reqQueue (b : List Bool) (s : State) : (endEpisode b s).reqQueue = s.reqQueue := (endEpisode_keeps b s).2.2.2.2.2.1
@[simp] theorem endEpisode_pen (b : List Bool) (s : State) : (endEpisode b s).pen = s.pen := (endEpisode_keeps b s).2.2.2.2.2.2.1
@[simp] theorem endEpisode_lrp (b : List Bool) (s : State) : (endEpisode b s).lrp = s.lrp := (endEpisode_keeps b s).2.2.2.2.2.2.2.1
@[simp] theorem endEpisode_psr (b : List Bool) (s : State) : (endEpisode b s).psr = s.psr := (endEpisode_keeps b s).2.2.2.2.2.2.2.2

theorem darkExpired_keeps (s : State) :
    (darkExpired s).pending = s.pending ∧ (darkExpired s).inReset = s.inReset ∧ (darkExpired s).pins = s.pins ∧ (darkExpired s).dir = s.dir ∧ (darkExpired s).degrees = s.degrees ∧ (darkExpired s).spm = s.spm ∧ (darkExpired s).slots = s.slots ∧ (darkExpired s).reqQueue = s.reqQueue ∧ (darkExpired s).pen = s.pen ∧ (darkExpired s).lrp = s.lrp ∧ (darkExpired s).psr = s.psr := by
  unfold darkExpired
  (repeat' split) <;> simp
@[simp] theorem darkExpired_pending (s : State) : (darkExpired s).pending = s.pending := (darkExpired_keeps s).1
@[simp] theorem darkExpired_inReset (s : State) : (darkExpired s).inReset = s.inReset := (darkExpired_keeps s).2.1
@[simp] theorem darkExpired_pins (s : State) : (darkExpired s).pins = s.pins := (darkExpired_keeps s).2.2.1
@[simp] theorem darkExpired_dir (s : State) : (darkExpired s).dir = s.dir := (darkExpired_keeps s).2.2.2.1
@[simp] theorem darkExpired_degrees (s : State) : (darkExpired s).degrees = s.degrees := (darkExpired_keeps s).2.2.2.2.1
@[simp] theorem darkExpired_spm (s : State) : (darkExpired s).spm = s.spm := (darkExpired_keeps s).2.2.2.2.2.1
@[simp] theorem darkExpired_slots (s : State) : (darkExpired s).slots = s.slots := (darkExpired_keeps s).2.2.2.2.2.2.1
@[simp] theorem darkExpired_reqQueue (s : State) : (darkExpired s).reqQueue = s.reqQueue := (darkExpired_keeps s).2.2.2.2.2.2.2.1
@[simp] theorem darkExpired_pen (s : State) : (darkExpired s).pen = s.pen := (darkExpired_keeps s).2.2.2.2.2.2.2.2.1
@[simp] theorem darkExpired_lrp (s : State) : (darkExpired s).lrp = s.lrp := (darkExpired_keeps s).2.2.2.2.2.2.2.2.2.1
@[simp] theorem darkExpired_psr (s : State) : (darkExpired s).psr = s.psr := (darkExpired_keeps s).2.2.2.2.2.2.2.2.2.2

theorem changeDegree_keeps (d : Nat) (x : Degree) (s : State) :
    (changeDegree d x s).pending = s.pending ∧ (changeDegree d x s).inReset = s.inReset ∧ (changeDegree d x s).scr = s.scr ∧ (changeDegree d x s).pins = s.pins ∧ (changeDegree d x s).dir = s.dir ∧ (changeDegree d x s).spm = s.spm ∧ (changeDegree d x s).slots = s.slots ∧ (changeDegree d x s).reqQueue = s.reqQueue ∧ (changeDegree d x s).pen = s.pen ∧ (changeDegree d x s).lrp = s.lrp ∧ (changeDegree d x s).psr = s.psr := by
  unfold changeDegree
  (repeat' split) <;> simp
@[simp] theorem changeDegree_pending (d : Nat) (x : Degree) (s : State) : (changeDegree d x s).pending = s.pending := (changeDegree_keeps d x s).1
@[simp] theorem changeDegree_inReset (d : Nat) (x : Degree) (s : State) : (changeDegree d x s).inReset = s.inReset := (changeDegree_keeps d x s).2.1
@[simp] theorem changeDegree_scr (d : Nat) (x : Degree) (s : State) : (changeDegree d x s).scr = s.scr := (changeDegree_keeps d x s).2.2.1
@[simp] theorem changeDegree_pins (d : Nat) (x : Degree) (s : State) : (changeDegree d x s).pins = s.pins := (changeDegree_keeps d x s).2.2.2.1
@[simp] theorem changeDegree_dir (d : Nat) (x : Degree) (s : State) : (changeDegree d x s).dir = s.dir := (changeDegree_keeps d x s).2.2.2.2.1
@[simp] theorem changeDegree_spm (d : Nat) (x : Degree) (s : State) : (changeDegree d x s).spm = s.spm := (changeDegree_keeps d x s).2.2.2.2.2.1
@[simp] theorem changeDegree_slots (d : Nat) (x : Degree) (s : State) : (changeDegree d x s).slots = s.slots := (changeDegree_keeps d x s).2.2.2.2.2.2.1
@[simp] theorem changeDegree_reqQueue (d : Nat) (x : Degree) (s : State) : (changeDegree d x s).reqQueue = s.reqQueue := (changeDegree_keeps d x s).2.2.2.2.2.2.2.1
@[simp] theorem changeDegree_pen (d : Nat) (x : Degree) (s : State) : (changeDegree d x s).pen = s.pen := (changeDegree_keeps d x s).2.2.2.2.2.2.2.2.1
@[simp] theorem changeDegree_lrp (d : Nat) (x : Degree) (s : State) : (changeDegree d x s).lrp = s.lrp := (changeDegree_keeps d x s).2.2.2.2.2.2.2.2.2.1
@[simp] theorem changeDegree_psr (d : Nat) (x : Degree) (s : State) : (changeDegree d x s).psr = s.psr := (changeDegree_keeps d x s).2.2.2.2.2.2.2.2.2.2

theorem matchSync_keeps (d : Nat) (b : List Bool) (s : State) :
    (matchSync d b s).pending = s.pending ∧ (matchSync d b s).inReset = s.inReset ∧ (matchSync d b s).scr = s.scr ∧ (matchSync d b s).sct = s.sct ∧ (matchSync d b s).pins = s.pins ∧ (matchSync d b s).dir = s.dir ∧ (matchSync d b s).spm = s.spm ∧ (matchSync d b s).org = s.org ∧ (matchSync d b s).tdb = s.tdb ∧ (matchSync d b s).slots = s.slots ∧ (matchSync d b s).reqQueue = s.reqQueue ∧ (matchSync d b s).pen = s.pen ∧ (matchSync d b s).lrp = s.lrp ∧ (matchSync d b s).ntf = s.ntf ∧ (matchSync d b s).psr = s.psr := by
  unfold matchSync
  (repeat' split) <;> simp
@[simp] theorem matchSync_pending (d : Nat) (b : List Bool) (s : State) : (matchSync d b s).pending = s.pending := (matchSync_keeps d b s).1
@[simp] theorem matchSync_inReset (d : Nat) (b : List Bool) (s : State) : (matchSync d b s).inReset = s.inReset := (matchSync_keeps d b s).2.1
@[simp] theorem matchSync_scr (d : Nat) (b : List Bool) (s : State) : (matchSync d b s).scr = s.scr := (matchSync_keeps d b s).2.2.1
@[simp] theorem matchSync_sct (d : Nat) (b : List Bool) (s : State) : (matchSync d b s).sct = s.sct := (matchSync_keeps d b s).2.2.2.1
@[simp] theorem matchSync_pins (d : Nat) (b : List Bool) (s : State) : (matchSync d b s).pins = s.pins := (matchSync_keeps d b s).2.2.2.2.1
@[simp] theorem matchSync_dir (d : Nat) (b : List Bool) (s : State) : (matchSync d b s).dir = s.dir := (matchSync_keeps d b s).2.2.2.2.2.1
@[simp] theorem matchSync_spm (d : Nat) (b : List Bool) (s : State) : (matchSync d b s).spm = s.spm := (matchSync_keeps d b s).2.2.2.2.2.2.1
@[simp] theorem matchSync_org (d : Nat) (b : List Bool) (s : State) : (matchSync d b s).org = s.org := (matchSync_keeps d b s).2.2.2.2.2.2.2.1
@[simp] theorem matchSync_tdb (d : Nat) (b : List Bool) (s : State) : (matchSync d b s).tdb = s.tdb := (matchSync_keeps d b s).2.2.2.2.2.2.2.2.1
@[simp] theorem matchSync_slots (d : Nat) (b : List Bool) (s : State) : (matchSync d b s).slots = s.slots := (matchSync_keeps d b s).2.2.2.2.2.2.2.2.2.1
@[simp] theorem matchSync_reqQueue (d : Nat) (b : List Bool) (s : State) : (matchSync d b s).reqQueue = s.reqQueue := (matchSync_keeps d b s).2.2.2.2.2.2.2.2.2.2.1
@[simp] theorem matchSync_pen (d : Nat) (b : List Bool) (s : State) : (matchSync d b s).pen = s.pen := (matchSync_keeps d b s).2.2.2.2.2.2.2.2.2.2.2.1
@[simp] theorem matchSync_lrp (d : Nat) (b : List Bool) (s : State) : (matchSync d b s).lrp = s.lrp := (matchSync_keeps d b s).2.2.2.2.2.2.2.2.2.2.2.2.1
@[simp] theorem matchSync_ntf (d : Nat) (b : List Bool) (s : State) : (matchSync d b s).ntf = s.ntf := (matchSync_keeps d b s).2.2.2.2.2.2.2.2.2.2.2.2.2.1
@[simp] theorem matchSync_psr (d : Nat) (b : List Bool) (s : State) : (matchSync d b s).psr = s.psr := (matchSync_keeps d b s).2.2.2.2.2.2.2.2.2.2.2.2.2.2

theorem judgeHeard_keeps (d : Nat) (b : List Bool) (s : State) :
    (judgeHeard d b s).pending = s.pending ∧ (judgeHeard d b s).inReset = s.inReset ∧ (judgeHeard d b s).scr = s.scr ∧ (judgeHeard d b s).pins = s.pins ∧ (judgeHeard d b s).dir = s.dir ∧ (judgeHeard d b s).spm = s.spm ∧ (judgeHeard d b s).slots = s.slots ∧ (judgeHeard d b s).reqQueue = s.reqQueue ∧ (judgeHeard d b s).pen = s.pen ∧ (judgeHeard d b s).lrp = s.lrp ∧ (judgeHeard d b s).psr = s.psr := by
  unfold judgeHeard
  (repeat' split) <;> simp
@[simp] theorem judgeHeard_pending (d : Nat) (b : List Bool) (s : State) : (judgeHeard d b s).pending = s.pending := (judgeHeard_keeps d b s).1
@[simp] theorem judgeHeard_inReset (d : Nat) (b : List Bool) (s : State) : (judgeHeard d b s).inReset = s.inReset := (judgeHeard_keeps d b s).2.1
@[simp] theorem judgeHeard_scr (d : Nat) (b : List Bool) (s : State) : (judgeHeard d b s).scr = s.scr := (judgeHeard_keeps d b s).2.2.1
@[simp] theorem judgeHeard_pins (d : Nat) (b : List Bool) (s : State) : (judgeHeard d b s).pins = s.pins := (judgeHeard_keeps d b s).2.2.2.1
@[simp] theorem judgeHeard_dir (d : Nat) (b : List Bool) (s : State) : (judgeHeard d b s).dir = s.dir := (judgeHeard_keeps d b s).2.2.2.2.1
@[simp] theorem judgeHeard_spm (d : Nat) (b : List Bool) (s : State) : (judgeHeard d b s).spm = s.spm := (judgeHeard_keeps d b s).2.2.2.2.2.1
@[simp] theorem judgeHeard_slots (d : Nat) (b : List Bool) (s : State) : (judgeHeard d b s).slots = s.slots := (judgeHeard_keeps d b s).2.2.2.2.2.2.1
@[simp] theorem judgeHeard_reqQueue (d : Nat) (b : List Bool) (s : State) : (judgeHeard d b s).reqQueue = s.reqQueue := (judgeHeard_keeps d b s).2.2.2.2.2.2.2.1
@[simp] theorem judgeHeard_pen (d : Nat) (b : List Bool) (s : State) : (judgeHeard d b s).pen = s.pen := (judgeHeard_keeps d b s).2.2.2.2.2.2.2.2.1
@[simp] theorem judgeHeard_lrp (d : Nat) (b : List Bool) (s : State) : (judgeHeard d b s).lrp = s.lrp := (judgeHeard_keeps d b s).2.2.2.2.2.2.2.2.2.1
@[simp] theorem judgeHeard_psr (d : Nat) (b : List Bool) (s : State) : (judgeHeard d b s).psr = s.psr := (judgeHeard_keeps d b s).2.2.2.2.2.2.2.2.2.2

theorem huntExpired_keeps (d : Nat) (s : State) :
    (huntExpired d s).pending = s.pending ∧ (huntExpired d s).inReset = s.inReset ∧ (huntExpired d s).scr = s.scr ∧ (huntExpired d s).pins = s.pins ∧ (huntExpired d s).dir = s.dir ∧ (huntExpired d s).spm = s.spm ∧ (huntExpired d s).slots = s.slots ∧ (huntExpired d s).reqQueue = s.reqQueue ∧ (huntExpired d s).pen = s.pen ∧ (huntExpired d s).lrp = s.lrp ∧ (huntExpired d s).psr = s.psr := by
  unfold huntExpired
  (repeat' split) <;> simp
@[simp] theorem huntExpired_pending (d : Nat) (s : State) : (huntExpired d s).pending = s.pending := (huntExpired_keeps d s).1
@[simp] theorem huntExpired_inReset (d : Nat) (s : State) : (huntExpired d s).inReset = s.inReset := (huntExpired_keeps d s).2.1
@[simp] theorem huntExpired_scr (d : Nat) (s : State) : (huntExpired d s).scr = s.scr := (huntExpired_keeps d s).2.2.1
@[simp] theorem huntExpired_pins (d : Nat) (s : State) : (huntExpired d s).pins = s.pins := (huntExpired_keeps d s).2.2.2.1
@[simp] theorem huntExpired_dir (d : Nat) (s : State) : (huntExpired d s).dir = s.dir := (huntExpired_keeps d s).2.2.2.2.1
@[simp] theorem huntExpired_spm (d : Nat) (s : State) : (huntExpired d s).spm = s.spm := (huntExpired_keeps d s).2.2.2.2.2.1
@[simp] theorem huntExpired_slots (d : Nat) (s : State) : (huntExpired d s).slots = s.slots := (huntExpired_keeps d s).2.2.2.2.2.2.1
@[simp] theorem huntExpired_reqQueue (d : Nat) (s : State) : (huntExpired d s).reqQueue = s.reqQueue := (huntExpired_keeps d s).2.2.2.2.2.2.2.1
@[simp] theorem huntExpired_pen (d : Nat) (s : State) : (huntExpired d s).pen = s.pen := (huntExpired_keeps d s).2.2.2.2.2.2.2.2.1
@[simp] theorem huntExpired_lrp (d : Nat) (s : State) : (huntExpired d s).lrp = s.lrp := (huntExpired_keeps d s).2.2.2.2.2.2.2.2.2.1
@[simp] theorem huntExpired_psr (d : Nat) (s : State) : (huntExpired d s).psr = s.psr := (huntExpired_keeps d s).2.2.2.2.2.2.2.2.2.2

theorem sendWord_keeps (d : Nat) (s : State) :
    (sendWord d s).pending = s.pending ∧ (sendWord d s).inReset = s.inReset ∧ (sendWord d s).scr = s.scr ∧ (sendWord d s).sct = s.sct ∧ (sendWord d s).pins = s.pins ∧ (sendWord d s).dir = s.dir ∧ (sendWord d s).spm = s.spm ∧ (sendWord d s).org = s.org ∧ (sendWord d s).tdb = s.tdb ∧ (sendWord d s).slots = s.slots ∧ (sendWord d s).reqQueue = s.reqQueue ∧ (sendWord d s).pen = s.pen ∧ (sendWord d s).lrp = s.lrp ∧ (sendWord d s).ntf = s.ntf ∧ (sendWord d s).psr = s.psr := by
  unfold sendWord
  (repeat' split) <;> simp
@[simp] theorem sendWord_pending (d : Nat) (s : State) : (sendWord d s).pending = s.pending := (sendWord_keeps d s).1
@[simp] theorem sendWord_inReset (d : Nat) (s : State) : (sendWord d s).inReset = s.inReset := (sendWord_keeps d s).2.1
@[simp] theorem sendWord_scr (d : Nat) (s : State) : (sendWord d s).scr = s.scr := (sendWord_keeps d s).2.2.1
@[simp] theorem sendWord_sct (d : Nat) (s : State) : (sendWord d s).sct = s.sct := (sendWord_keeps d s).2.2.2.1
@[simp] theorem sendWord_pins (d : Nat) (s : State) : (sendWord d s).pins = s.pins := (sendWord_keeps d s).2.2.2.2.1
@[simp] theorem sendWord_dir (d : Nat) (s : State) : (sendWord d s).dir = s.dir := (sendWord_keeps d s).2.2.2.2.2.1
@[simp] theorem sendWord_spm (d : Nat) (s : State) : (sendWord d s).spm = s.spm := (sendWord_keeps d s).2.2.2.2.2.2.1
@[simp] theorem sendWord_org (d : Nat) (s : State) : (sendWord d s).org = s.org := (sendWord_keeps d s).2.2.2.2.2.2.2.1
@[simp] theorem sendWord_tdb (d : Nat) (s : State) : (sendWord d s).tdb = s.tdb := (sendWord_keeps d s).2.2.2.2.2.2.2.2.1
@[simp] theorem sendWord_slots (d : Nat) (s : State) : (sendWord d s).slots = s.slots := (sendWord_keeps d s).2.2.2.2.2.2.2.2.2.1
@[simp] theorem sendWord_reqQueue (d : Nat) (s : State) : (sendWord d s).reqQueue = s.reqQueue := (sendWord_keeps d s).2.2.2.2.2.2.2.2.2.2.1
@[simp] theorem sendWord_pen (d : Nat) (s : State) : (sendWord d s).pen = s.pen := (sendWord_keeps d s).2.2.2.2.2.2.2.2.2.2.2.1
@[simp] theorem sendWord_lrp (d : Nat) (s : State) : (sendWord d s).lrp = s.lrp := (sendWord_keeps d s).2.2.2.2.2.2.2.2.2.2.2.2.1
@[simp] theorem sendWord_ntf (d : Nat) (s : State) : (sendWord d s).ntf = s.ntf := (sendWord_keeps d s).2.2.2.2.2.2.2.2.2.2.2.2.2.1
@[simp] theorem sendWord_psr (d : Nat) (s : State) : (sendWord d s).psr = s.psr := (sendWord_keeps d s).2.2.2.2.2.2.2.2.2.2.2.2.2.2

theorem lolAccepted_keeps (d : Nat) (a : Bool) (s : State) :
    (lolAccepted d a s).pending = s.pending ∧ (lolAccepted d a s).inReset = s.inReset ∧ (lolAccepted d a s).scr = s.scr ∧ (lolAccepted d a s).pins = s.pins ∧ (lolAccepted d a s).dir = s.dir ∧ (lolAccepted d a s).spm = s.spm ∧ (lolAccepted d a s).slots = s.slots ∧ (lolAccepted d a s).reqQueue = s.reqQueue ∧ (lolAccepted d a s).pen = s.pen ∧ (lolAccepted d a s).lrp = s.lrp ∧ (lolAccepted d a s).psr = s.psr := by
  unfold lolAccepted
  (repeat' split) <;> simp
@[simp] theorem lolAccepted_pending (d : Nat) (a : Bool) (s : State) : (lolAccepted d a s).pending = s.pending := (lolAccepted_keeps d a s).1
@[simp] theorem lolAccepted_inReset (d : Nat) (a : Bool) (s : State) : (lolAccepted d a s).inReset = s.inReset := (lolAccepted_keeps d a s).2.1
@[simp] theorem lolAccepted_scr (d : Nat) (a : Bool) (s : State) : (lolAccepted d a s).scr = s.scr := (lolAccepted_keeps d a s).2.2.1
@[simp] theorem lolAccepted_pins (d : Nat) (a : Bool) (s : State) : (lolAccepted d a s).pins = s.pins := (lolAccepted_keeps d a s).2.2.2.1
@[simp] theorem lolAccepted_dir (d : Nat) (a : Bool) (s : State) : (lolAccepted d a s).dir = s.dir := (lolAccepted_keeps d a s).2.2.2.2.1
@[simp] theorem lolAccepted_spm (d : Nat) (a : Bool) (s : State) : (lolAccepted d a s).spm = s.spm := (lolAccepted_keeps d a s).2.2.2.2.2.1
@[simp] theorem lolAccepted_slots (d : Nat) (a : Bool) (s : State) : (lolAccepted d a s).slots = s.slots := (lolAccepted_keeps d a s).2.2.2.2.2.2.1
@[simp] theorem lolAccepted_reqQueue (d : Nat) (a : Bool) (s : State) : (lolAccepted d a s).reqQueue = s.reqQueue := (lolAccepted_keeps d a s).2.2.2.2.2.2.2.1
@[simp] theorem lolAccepted_pen (d : Nat) (a : Bool) (s : State) : (lolAccepted d a s).pen = s.pen := (lolAccepted_keeps d a s).2.2.2.2.2.2.2.2.1
@[simp] theorem lolAccepted_lrp (d : Nat) (a : Bool) (s : State) : (lolAccepted d a s).lrp = s.lrp := (lolAccepted_keeps d a s).2.2.2.2.2.2.2.2.2.1
@[simp] theorem lolAccepted_psr (d : Nat) (a : Bool) (s : State) : (lolAccepted d a s).psr = s.psr := (lolAccepted_keeps d a s).2.2.2.2.2.2.2.2.2.2

theorem applyEquipped_keeps (s : State) (d : Nat) :
    (applyEquipped s d).pending = s.pending ∧ (applyEquipped s d).inReset = s.inReset ∧ (applyEquipped s d).scr = s.scr ∧ (applyEquipped s d).pins = s.pins ∧ (applyEquipped s d).dir = s.dir ∧ (applyEquipped s d).spm = s.spm ∧ (applyEquipped s d).slots = s.slots ∧ (applyEquipped s d).reqQueue = s.reqQueue ∧ (applyEquipped s d).pen = s.pen ∧ (applyEquipped s d).lrp = s.lrp ∧ (applyEquipped s d).psr = s.psr := by
  unfold applyEquipped
  (repeat' split) <;> simp
@[simp] theorem applyEquipped_pending (s : State) (d : Nat) : (applyEquipped s d).pending = s.pending := (applyEquipped_keeps s d).1
@[simp] theorem applyEquipped_inReset (s : State) (d : Nat) : (applyEquipped s d).inReset = s.inReset := (applyEquipped_keeps s d).2.1
@[simp] theorem applyEquipped_scr (s : State) (d : Nat) : (applyEquipped s d).scr = s.scr := (applyEquipped_keeps s d).2.2.1
@[simp] theorem applyEquipped_pins (s : State) (d : Nat) : (applyEquipped s d).pins = s.pins := (applyEquipped_keeps s d).2.2.2.1
@[simp] theorem applyEquipped_dir (s : State) (d : Nat) : (applyEquipped s d).dir = s.dir := (applyEquipped_keeps s d).2.2.2.2.1
@[simp] theorem applyEquipped_spm (s : State) (d : Nat) : (applyEquipped s d).spm = s.spm := (applyEquipped_keeps s d).2.2.2.2.2.1
@[simp] theorem applyEquipped_slots (s : State) (d : Nat) : (applyEquipped s d).slots = s.slots := (applyEquipped_keeps s d).2.2.2.2.2.2.1
@[simp] theorem applyEquipped_reqQueue (s : State) (d : Nat) : (applyEquipped s d).reqQueue = s.reqQueue := (applyEquipped_keeps s d).2.2.2.2.2.2.2.1
@[simp] theorem applyEquipped_pen (s : State) (d : Nat) : (applyEquipped s d).pen = s.pen := (applyEquipped_keeps s d).2.2.2.2.2.2.2.2.1
@[simp] theorem applyEquipped_lrp (s : State) (d : Nat) : (applyEquipped s d).lrp = s.lrp := (applyEquipped_keeps s d).2.2.2.2.2.2.2.2.2.1
@[simp] theorem applyEquipped_psr (s : State) (d : Nat) : (applyEquipped s d).psr = s.psr := (applyEquipped_keeps s d).2.2.2.2.2.2.2.2.2.2

theorem catchUp_keeps (s : State) (d : Nat) :
    (catchUp s d).pending = s.pending ∧ (catchUp s d).inReset = s.inReset ∧ (catchUp s d).scr = s.scr ∧ (catchUp s d).pins = s.pins ∧ (catchUp s d).dir = s.dir ∧ (catchUp s d).spm = s.spm ∧ (catchUp s d).slots = s.slots ∧ (catchUp s d).reqQueue = s.reqQueue ∧ (catchUp s d).pen = s.pen ∧ (catchUp s d).lrp = s.lrp ∧ (catchUp s d).psr = s.psr := by
  unfold catchUp
  (repeat' split) <;> simp
@[simp] theorem catchUp_pending (s : State) (d : Nat) : (catchUp s d).pending = s.pending := (catchUp_keeps s d).1
@[simp] theorem catchUp_inReset (s : State) (d : Nat) : (catchUp s d).inReset = s.inReset := (catchUp_keeps s d).2.1
@[simp] theorem catchUp_scr (s : State) (d : Nat) : (catchUp s d).scr = s.scr := (catchUp_keeps s d).2.2.1
@[simp] theorem catchUp_pins (s : State) (d : Nat) : (catchUp s d).pins = s.pins := (catchUp_keeps s d).2.2.2.1
@[simp] theorem catchUp_dir (s : State) (d : Nat) : (catchUp s d).dir = s.dir := (catchUp_keeps s d).2.2.2.2.1
@[simp] theorem catchUp_spm (s : State) (d : Nat) : (catchUp s d).spm = s.spm := (catchUp_keeps s d).2.2.2.2.2.1
@[simp] theorem catchUp_slots (s : State) (d : Nat) : (catchUp s d).slots = s.slots := (catchUp_keeps s d).2.2.2.2.2.2.1
@[simp] theorem catchUp_reqQueue (s : State) (d : Nat) : (catchUp s d).reqQueue = s.reqQueue := (catchUp_keeps s d).2.2.2.2.2.2.2.1
@[simp] theorem catchUp_pen (s : State) (d : Nat) : (catchUp s d).pen = s.pen := (catchUp_keeps s d).2.2.2.2.2.2.2.2.1
@[simp] theorem catchUp_lrp (s : State) (d : Nat) : (catchUp s d).lrp = s.lrp := (catchUp_keeps s d).2.2.2.2.2.2.2.2.2.1
@[simp] theorem catchUp_psr (s : State) (d : Nat) : (catchUp s d).psr = s.psr := (catchUp_keeps s d).2.2.2.2.2.2.2.2.2.2

theorem changeMonitor_keeps (d n : Nat) (m : Monitor) (s : State) :
    (changeMonitor d n m s).pending = s.pending ∧ (changeMonitor d n m s).inReset = s.inReset ∧ (changeMonitor d n m s).scr = s.scr ∧ (changeMonitor d n m s).pins = s.pins ∧ (changeMonitor d n m s).dir = s.dir ∧ (changeMonitor d n m s).degrees = s.degrees ∧ (changeMonitor d n m s).slots = s.slots ∧ (changeMonitor d n m s).reqQueue = s.reqQueue ∧ (changeMonitor d n m s).pen = s.pen ∧ (changeMonitor d n m s).lrp = s.lrp ∧ (changeMonitor d n m s).psr = s.psr := by
  unfold changeMonitor
  (repeat' split) <;> simp
@[simp] theorem changeMonitor_pending (d n : Nat) (m : Monitor) (s : State) : (changeMonitor d n m s).pending = s.pending := (changeMonitor_keeps d n m s).1
@[simp] theorem changeMonitor_inReset (d n : Nat) (m : Monitor) (s : State) : (changeMonitor d n m s).inReset = s.inReset := (changeMonitor_keeps d n m s).2.1
@[simp] theorem changeMonitor_scr (d n : Nat) (m : Monitor) (s : State) : (changeMonitor d n m s).scr = s.scr := (changeMonitor_keeps d n m s).2.2.1
@[simp] theorem changeMonitor_pins (d n : Nat) (m : Monitor) (s : State) : (changeMonitor d n m s).pins = s.pins := (changeMonitor_keeps d n m s).2.2.2.1
@[simp] theorem changeMonitor_dir (d n : Nat) (m : Monitor) (s : State) : (changeMonitor d n m s).dir = s.dir := (changeMonitor_keeps d n m s).2.2.2.2.1
@[simp] theorem changeMonitor_degrees (d n : Nat) (m : Monitor) (s : State) : (changeMonitor d n m s).degrees = s.degrees := (changeMonitor_keeps d n m s).2.2.2.2.2.1
@[simp] theorem changeMonitor_slots (d n : Nat) (m : Monitor) (s : State) : (changeMonitor d n m s).slots = s.slots := (changeMonitor_keeps d n m s).2.2.2.2.2.2.1
@[simp] theorem changeMonitor_reqQueue (d n : Nat) (m : Monitor) (s : State) : (changeMonitor d n m s).reqQueue = s.reqQueue := (changeMonitor_keeps d n m s).2.2.2.2.2.2.2.1
@[simp] theorem changeMonitor_pen (d n : Nat) (m : Monitor) (s : State) : (changeMonitor d n m s).pen = s.pen := (changeMonitor_keeps d n m s).2.2.2.2.2.2.2.2.1
@[simp] theorem changeMonitor_lrp (d n : Nat) (m : Monitor) (s : State) : (changeMonitor d n m s).lrp = s.lrp := (changeMonitor_keeps d n m s).2.2.2.2.2.2.2.2.2.1
@[simp] theorem changeMonitor_psr (d n : Nat) (m : Monitor) (s : State) : (changeMonitor d n m s).psr = s.psr := (changeMonitor_keeps d n m s).2.2.2.2.2.2.2.2.2.2

theorem qualifierExpired_keeps (d : Nat) (s : State) :
    (qualifierExpired d s).pending = s.pending ∧ (qualifierExpired d s).inReset = s.inReset ∧ (qualifierExpired d s).scr = s.scr ∧ (qualifierExpired d s).pins = s.pins ∧ (qualifierExpired d s).dir = s.dir ∧ (qualifierExpired d s).degrees = s.degrees ∧ (qualifierExpired d s).slots = s.slots ∧ (qualifierExpired d s).reqQueue = s.reqQueue ∧ (qualifierExpired d s).pen = s.pen ∧ (qualifierExpired d s).lrp = s.lrp ∧ (qualifierExpired d s).psr = s.psr := by
  unfold qualifierExpired
  (repeat' split) <;> simp
@[simp] theorem qualifierExpired_pending (d : Nat) (s : State) : (qualifierExpired d s).pending = s.pending := (qualifierExpired_keeps d s).1
@[simp] theorem qualifierExpired_inReset (d : Nat) (s : State) : (qualifierExpired d s).inReset = s.inReset := (qualifierExpired_keeps d s).2.1
@[simp] theorem qualifierExpired_scr (d : Nat) (s : State) : (qualifierExpired d s).scr = s.scr := (qualifierExpired_keeps d s).2.2.1
@[simp] theorem qualifierExpired_pins (d : Nat) (s : State) : (qualifierExpired d s).pins = s.pins := (qualifierExpired_keeps d s).2.2.2.1
@[simp] theorem qualifierExpired_dir (d : Nat) (s : State) : (qualifierExpired d s).dir = s.dir := (qualifierExpired_keeps d s).2.2.2.2.1
@[simp] theorem qualifierExpired_degrees (d : Nat) (s : State) : (qualifierExpired d s).degrees = s.degrees := (qualifierExpired_keeps d s).2.2.2.2.2.1
@[simp] theorem qualifierExpired_slots (d : Nat) (s : State) : (qualifierExpired d s).slots = s.slots := (qualifierExpired_keeps d s).2.2.2.2.2.2.1
@[simp] theorem qualifierExpired_reqQueue (d : Nat) (s : State) : (qualifierExpired d s).reqQueue = s.reqQueue := (qualifierExpired_keeps d s).2.2.2.2.2.2.2.1
@[simp] theorem qualifierExpired_pen (d : Nat) (s : State) : (qualifierExpired d s).pen = s.pen := (qualifierExpired_keeps d s).2.2.2.2.2.2.2.2.1
@[simp] theorem qualifierExpired_lrp (d : Nat) (s : State) : (qualifierExpired d s).lrp = s.lrp := (qualifierExpired_keeps d s).2.2.2.2.2.2.2.2.2.1
@[simp] theorem qualifierExpired_psr (d : Nat) (s : State) : (qualifierExpired d s).psr = s.psr := (qualifierExpired_keeps d s).2.2.2.2.2.2.2.2.2.2

theorem decideHeldExpiry_keeps (s : State) (d : Nat) :
    (decideHeldExpiry s d).pending = s.pending ∧ (decideHeldExpiry s d).inReset = s.inReset ∧ (decideHeldExpiry s d).scr = s.scr ∧ (decideHeldExpiry s d).pins = s.pins ∧ (decideHeldExpiry s d).dir = s.dir ∧ (decideHeldExpiry s d).degrees = s.degrees ∧ (decideHeldExpiry s d).slots = s.slots ∧ (decideHeldExpiry s d).reqQueue = s.reqQueue ∧ (decideHeldExpiry s d).pen = s.pen ∧ (decideHeldExpiry s d).lrp = s.lrp ∧ (decideHeldExpiry s d).psr = s.psr := by
  unfold decideHeldExpiry
  (repeat' split) <;> simp
@[simp] theorem decideHeldExpiry_pending (s : State) (d : Nat) : (decideHeldExpiry s d).pending = s.pending := (decideHeldExpiry_keeps s d).1
@[simp] theorem decideHeldExpiry_inReset (s : State) (d : Nat) : (decideHeldExpiry s d).inReset = s.inReset := (decideHeldExpiry_keeps s d).2.1
@[simp] theorem decideHeldExpiry_scr (s : State) (d : Nat) : (decideHeldExpiry s d).scr = s.scr := (decideHeldExpiry_keeps s d).2.2.1
@[simp] theorem decideHeldExpiry_pins (s : State) (d : Nat) : (decideHeldExpiry s d).pins = s.pins := (decideHeldExpiry_keeps s d).2.2.2.1
@[simp] theorem decideHeldExpiry_dir (s : State) (d : Nat) : (decideHeldExpiry s d).dir = s.dir := (decideHeldExpiry_keeps s d).2.2.2.2.1
@[simp] theorem decideHeldExpiry_degrees (s : State) (d : Nat) : (decideHeldExpiry s d).degrees = s.degrees := (decideHeldExpiry_keeps s d).2.2.2.2.2.1
@[simp] theorem decideHeldExpiry_slots (s : State) (d : Nat) : (decideHeldExpiry s d).slots = s.slots := (decideHeldExpiry_keeps s d).2.2.2.2.2.2.1
@[simp] theorem decideHeldExpiry_reqQueue (s : State) (d : Nat) : (decideHeldExpiry s d).reqQueue = s.reqQueue := (decideHeldExpiry_keeps s d).2.2.2.2.2.2.2.1
@[simp] theorem decideHeldExpiry_pen (s : State) (d : Nat) : (decideHeldExpiry s d).pen = s.pen := (decideHeldExpiry_keeps s d).2.2.2.2.2.2.2.2.1
@[simp] theorem decideHeldExpiry_lrp (s : State) (d : Nat) : (decideHeldExpiry s d).lrp = s.lrp := (decideHeldExpiry_keeps s d).2.2.2.2.2.2.2.2.2.1
@[simp] theorem decideHeldExpiry_psr (s : State) (d : Nat) : (decideHeldExpiry s d).psr = s.psr := (decideHeldExpiry_keeps s d).2.2.2.2.2.2.2.2.2.2

theorem resultWatch_keeps (s : State) :
    (resultWatch s).pending = s.pending ∧ (resultWatch s).inReset = s.inReset ∧ (resultWatch s).scr = s.scr ∧ (resultWatch s).sct = s.sct ∧ (resultWatch s).pins = s.pins ∧ (resultWatch s).dir = s.dir ∧ (resultWatch s).degrees = s.degrees ∧ (resultWatch s).spm = s.spm ∧ (resultWatch s).org = s.org ∧ (resultWatch s).tdb = s.tdb ∧ (resultWatch s).reqQueue = s.reqQueue ∧ (resultWatch s).pen = s.pen ∧ (resultWatch s).lrp = s.lrp ∧ (resultWatch s).psr = s.psr := by
  unfold resultWatch
  (repeat' split) <;> simp
@[simp] theorem resultWatch_pending (s : State) : (resultWatch s).pending = s.pending := (resultWatch_keeps s).1
@[simp] theorem resultWatch_inReset (s : State) : (resultWatch s).inReset = s.inReset := (resultWatch_keeps s).2.1
@[simp] theorem resultWatch_scr (s : State) : (resultWatch s).scr = s.scr := (resultWatch_keeps s).2.2.1
@[simp] theorem resultWatch_sct (s : State) : (resultWatch s).sct = s.sct := (resultWatch_keeps s).2.2.2.1
@[simp] theorem resultWatch_pins (s : State) : (resultWatch s).pins = s.pins := (resultWatch_keeps s).2.2.2.2.1
@[simp] theorem resultWatch_dir (s : State) : (resultWatch s).dir = s.dir := (resultWatch_keeps s).2.2.2.2.2.1
@[simp] theorem resultWatch_degrees (s : State) : (resultWatch s).degrees = s.degrees := (resultWatch_keeps s).2.2.2.2.2.2.1
@[simp] theorem resultWatch_spm (s : State) : (resultWatch s).spm = s.spm := (resultWatch_keeps s).2.2.2.2.2.2.2.1
@[simp] theorem resultWatch_org (s : State) : (resultWatch s).org = s.org := (resultWatch_keeps s).2.2.2.2.2.2.2.2.1
@[simp] theorem resultWatch_tdb (s : State) : (resultWatch s).tdb = s.tdb := (resultWatch_keeps s).2.2.2.2.2.2.2.2.2.1
@[simp] theorem resultWatch_reqQueue (s : State) : (resultWatch s).reqQueue = s.reqQueue := (resultWatch_keeps s).2.2.2.2.2.2.2.2.2.2.1
@[simp] theorem resultWatch_pen (s : State) : (resultWatch s).pen = s.pen := (resultWatch_keeps s).2.2.2.2.2.2.2.2.2.2.2.1
@[simp] theorem resultWatch_lrp (s : State) : (resultWatch s).lrp = s.lrp := (resultWatch_keeps s).2.2.2.2.2.2.2.2.2.2.2.2.1
@[simp] theorem resultWatch_psr (s : State) : (resultWatch s).psr = s.psr := (resultWatch_keeps s).2.2.2.2.2.2.2.2.2.2.2.2.2

theorem transfer_keeps (s : State) :
    (transfer s).pending = s.pending ∧ (transfer s).inReset = s.inReset ∧ (transfer s).scr = s.scr ∧ (transfer s).sct = s.sct ∧ (transfer s).pins = s.pins ∧ (transfer s).dir = s.dir ∧ (transfer s).degrees = s.degrees ∧ (transfer s).spm = s.spm ∧ (transfer s).org = s.org ∧ (transfer s).reqQueue = s.reqQueue ∧ (transfer s).pen = s.pen ∧ (transfer s).lrp = s.lrp ∧ (transfer s).psr = s.psr := by
  unfold transfer
  (repeat' split) <;> simp
@[simp] theorem transfer_pending (s : State) : (transfer s).pending = s.pending := (transfer_keeps s).1
@[simp] theorem transfer_inReset (s : State) : (transfer s).inReset = s.inReset := (transfer_keeps s).2.1
@[simp] theorem transfer_scr (s : State) : (transfer s).scr = s.scr := (transfer_keeps s).2.2.1
@[simp] theorem transfer_sct (s : State) : (transfer s).sct = s.sct := (transfer_keeps s).2.2.2.1
@[simp] theorem transfer_pins (s : State) : (transfer s).pins = s.pins := (transfer_keeps s).2.2.2.2.1
@[simp] theorem transfer_dir (s : State) : (transfer s).dir = s.dir := (transfer_keeps s).2.2.2.2.2.1
@[simp] theorem transfer_degrees (s : State) : (transfer s).degrees = s.degrees := (transfer_keeps s).2.2.2.2.2.2.1
@[simp] theorem transfer_spm (s : State) : (transfer s).spm = s.spm := (transfer_keeps s).2.2.2.2.2.2.2.1
@[simp] theorem transfer_org (s : State) : (transfer s).org = s.org := (transfer_keeps s).2.2.2.2.2.2.2.2.1
@[simp] theorem transfer_reqQueue (s : State) : (transfer s).reqQueue = s.reqQueue := (transfer_keeps s).2.2.2.2.2.2.2.2.2.1
@[simp] theorem transfer_pen (s : State) : (transfer s).pen = s.pen := (transfer_keeps s).2.2.2.2.2.2.2.2.2.2.1
@[simp] theorem transfer_lrp (s : State) : (transfer s).lrp = s.lrp := (transfer_keeps s).2.2.2.2.2.2.2.2.2.2.2.1
@[simp] theorem transfer_psr (s : State) : (transfer s).psr = s.psr := (transfer_keeps s).2.2.2.2.2.2.2.2.2.2.2.2

theorem startHead_keeps (i : Nat) (j : Job) (s : State) :
    (startHead i j s).pending = s.pending ∧ (startHead i j s).inReset = s.inReset ∧ (startHead i j s).scr = s.scr ∧ (startHead i j s).sct = s.sct ∧ (startHead i j s).pins = s.pins ∧ (startHead i j s).dir = s.dir ∧ (startHead i j s).degrees = s.degrees ∧ (startHead i j s).spm = s.spm ∧ (startHead i j s).org = s.org ∧ (startHead i j s).tdb = s.tdb ∧ (startHead i j s).reqQueue = s.reqQueue ∧ (startHead i j s).lrp = s.lrp ∧ (startHead i j s).psr = s.psr := by
  unfold startHead
  (repeat' split) <;> simp
@[simp] theorem startHead_pending (i : Nat) (j : Job) (s : State) : (startHead i j s).pending = s.pending := (startHead_keeps i j s).1
@[simp] theorem startHead_inReset (i : Nat) (j : Job) (s : State) : (startHead i j s).inReset = s.inReset := (startHead_keeps i j s).2.1
@[simp] theorem startHead_scr (i : Nat) (j : Job) (s : State) : (startHead i j s).scr = s.scr := (startHead_keeps i j s).2.2.1
@[simp] theorem startHead_sct (i : Nat) (j : Job) (s : State) : (startHead i j s).sct = s.sct := (startHead_keeps i j s).2.2.2.1
@[simp] theorem startHead_pins (i : Nat) (j : Job) (s : State) : (startHead i j s).pins = s.pins := (startHead_keeps i j s).2.2.2.2.1
@[simp] theorem startHead_dir (i : Nat) (j : Job) (s : State) : (startHead i j s).dir = s.dir := (startHead_keeps i j s).2.2.2.2.2.1
@[simp] theorem startHead_degrees (i : Nat) (j : Job) (s : State) : (startHead i j s).degrees = s.degrees := (startHead_keeps i j s).2.2.2.2.2.2.1
@[simp] theorem startHead_spm (i : Nat) (j : Job) (s : State) : (startHead i j s).spm = s.spm := (startHead_keeps i j s).2.2.2.2.2.2.2.1
@[simp] theorem startHead_org (i : Nat) (j : Job) (s : State) : (startHead i j s).org = s.org := (startHead_keeps i j s).2.2.2.2.2.2.2.2.1
@[simp] theorem startHead_tdb (i : Nat) (j : Job) (s : State) : (startHead i j s).tdb = s.tdb := (startHead_keeps i j s).2.2.2.2.2.2.2.2.2.1
@[simp] theorem startHead_reqQueue (i : Nat) (j : Job) (s : State) : (startHead i j s).reqQueue = s.reqQueue := (startHead_keeps i j s).2.2.2.2.2.2.2.2.2.2.1
@[simp] theorem startHead_lrp (i : Nat) (j : Job) (s : State) : (startHead i j s).lrp = s.lrp := (startHead_keeps i j s).2.2.2.2.2.2.2.2.2.2.2.1
@[simp] theorem startHead_psr (i : Nat) (j : Job) (s : State) : (startHead i j s).psr = s.psr := (startHead_keeps i j s).2.2.2.2.2.2.2.2.2.2.2.2

theorem judgeStart_keeps (n : Nat) (s : State) :
    (judgeStart n s).pending = s.pending ∧ (judgeStart n s).inReset = s.inReset ∧ (judgeStart n s).scr = s.scr ∧ (judgeStart n s).sct = s.sct ∧ (judgeStart n s).pins = s.pins ∧ (judgeStart n s).dir = s.dir ∧ (judgeStart n s).degrees = s.degrees ∧ (judgeStart n s).spm = s.spm ∧ (judgeStart n s).org = s.org ∧ (judgeStart n s).tdb = s.tdb ∧ (judgeStart n s).lrp = s.lrp ∧ (judgeStart n s).psr = s.psr := by
  induction n generalizing s with
  | zero => simp [judgeStart]
  | succ n ih =>
    unfold judgeStart
    try dsimp only
    repeat' apply And.intro
    all_goals (repeat' split) <;> simp [ih]
@[simp] theorem judgeStart_pending (n : Nat) (s : State) : (judgeStart n s).pending = s.pending := (judgeStart_keeps n s).1
@[simp] theorem judgeStart_inReset (n : Nat) (s : State) : (judgeStart n s).inReset = s.inReset := (judgeStart_keeps n s).2.1
@[simp] theorem judgeStart_scr (n : Nat) (s : State) : (judgeStart n s).scr = s.scr := (judgeStart_keeps n s).2.2.1
@[simp] theorem judgeStart_sct (n : Nat) (s : State) : (judgeStart n s).sct = s.sct := (judgeStart_keeps n s).2.2.2.1
@[simp] theorem judgeStart_pins (n : Nat) (s : State) : (judgeStart n s).pins = s.pins := (judgeStart_keeps n s).2.2.2.2.1
@[simp] theorem judgeStart_dir (n : Nat) (s : State) : (judgeStart n s).dir = s.dir := (judgeStart_keeps n s).2.2.2.2.2.1
@[simp] theorem judgeStart_degrees (n : Nat) (s : State) : (judgeStart n s).degrees = s.degrees := (judgeStart_keeps n s).2.2.2.2.2.2.1
@[simp] theorem judgeStart_spm (n : Nat) (s : State) : (judgeStart n s).spm = s.spm := (judgeStart_keeps n s).2.2.2.2.2.2.2.1
@[simp] theorem judgeStart_org (n : Nat) (s : State) : (judgeStart n s).org = s.org := (judgeStart_keeps n s).2.2.2.2.2.2.2.2.1
@[simp] theorem judgeStart_tdb (n : Nat) (s : State) : (judgeStart n s).tdb = s.tdb := (judgeStart_keeps n s).2.2.2.2.2.2.2.2.2.1
@[simp] theorem judgeStart_lrp (n : Nat) (s : State) : (judgeStart n s).lrp = s.lrp := (judgeStart_keeps n s).2.2.2.2.2.2.2.2.2.2.1
@[simp] theorem judgeStart_psr (n : Nat) (s : State) : (judgeStart n s).psr = s.psr := (judgeStart_keeps n s).2.2.2.2.2.2.2.2.2.2.2

theorem startQueued_keeps (s : State) :
    (startQueued s).pending = s.pending ∧ (startQueued s).inReset = s.inReset ∧ (startQueued s).scr = s.scr ∧ (startQueued s).sct = s.sct ∧ (startQueued s).pins = s.pins ∧ (startQueued s).dir = s.dir ∧ (startQueued s).degrees = s.degrees ∧ (startQueued s).spm = s.spm ∧ (startQueued s).org = s.org ∧ (startQueued s).tdb = s.tdb ∧ (startQueued s).lrp = s.lrp ∧ (startQueued s).psr = s.psr := by
  unfold startQueued
  (repeat' split) <;> simp
@[simp] theorem startQueued_pending (s : State) : (startQueued s).pending = s.pending := (startQueued_keeps s).1
@[simp] theorem startQueued_inReset (s : State) : (startQueued s).inReset = s.inReset := (startQueued_keeps s).2.1
@[simp] theorem startQueued_scr (s : State) : (startQueued s).scr = s.scr := (startQueued_keeps s).2.2.1
@[simp] theorem startQueued_sct (s : State) : (startQueued s).sct = s.sct := (startQueued_keeps s).2.2.2.1
@[simp] theorem startQueued_pins (s : State) : (startQueued s).pins = s.pins := (startQueued_keeps s).2.2.2.2.1
@[simp] theorem startQueued_dir (s : State) : (startQueued s).dir = s.dir := (startQueued_keeps s).2.2.2.2.2.1
@[simp] theorem startQueued_degrees (s : State) : (startQueued s).degrees = s.degrees := (startQueued_keeps s).2.2.2.2.2.2.1
@[simp] theorem startQueued_spm (s : State) : (startQueued s).spm = s.spm := (startQueued_keeps s).2.2.2.2.2.2.2.1
@[simp] theorem startQueued_org (s : State) : (startQueued s).org = s.org := (startQueued_keeps s).2.2.2.2.2.2.2.2.1
@[simp] theorem startQueued_tdb (s : State) : (startQueued s).tdb = s.tdb := (startQueued_keeps s).2.2.2.2.2.2.2.2.2.1
@[simp] theorem startQueued_lrp (s : State) : (startQueued s).lrp = s.lrp := (startQueued_keeps s).2.2.2.2.2.2.2.2.2.2.1
@[simp] theorem startQueued_psr (s : State) : (startQueued s).psr = s.psr := (startQueued_keeps s).2.2.2.2.2.2.2.2.2.2.2

theorem leftRunning_keeps (s : State) :
    (leftRunning s).pending = s.pending ∧ (leftRunning s).inReset = s.inReset ∧ (leftRunning s).scr = s.scr ∧ (leftRunning s).sct = s.sct ∧ (leftRunning s).pins = s.pins ∧ (leftRunning s).dir = s.dir ∧ (leftRunning s).degrees = s.degrees ∧ (leftRunning s).spm = s.spm ∧ (leftRunning s).org = s.org ∧ (leftRunning s).lrp = s.lrp ∧ (leftRunning s).psr = s.psr := by
  unfold leftRunning
  (repeat' split) <;> simp
@[simp] theorem leftRunning_pending (s : State) : (leftRunning s).pending = s.pending := (leftRunning_keeps s).1
@[simp] theorem leftRunning_inReset (s : State) : (leftRunning s).inReset = s.inReset := (leftRunning_keeps s).2.1
@[simp] theorem leftRunning_scr (s : State) : (leftRunning s).scr = s.scr := (leftRunning_keeps s).2.2.1
@[simp] theorem leftRunning_sct (s : State) : (leftRunning s).sct = s.sct := (leftRunning_keeps s).2.2.2.1
@[simp] theorem leftRunning_pins (s : State) : (leftRunning s).pins = s.pins := (leftRunning_keeps s).2.2.2.2.1
@[simp] theorem leftRunning_dir (s : State) : (leftRunning s).dir = s.dir := (leftRunning_keeps s).2.2.2.2.2.1
@[simp] theorem leftRunning_degrees (s : State) : (leftRunning s).degrees = s.degrees := (leftRunning_keeps s).2.2.2.2.2.2.1
@[simp] theorem leftRunning_spm (s : State) : (leftRunning s).spm = s.spm := (leftRunning_keeps s).2.2.2.2.2.2.2.1
@[simp] theorem leftRunning_org (s : State) : (leftRunning s).org = s.org := (leftRunning_keeps s).2.2.2.2.2.2.2.2.1
@[simp] theorem leftRunning_lrp (s : State) : (leftRunning s).lrp = s.lrp := (leftRunning_keeps s).2.2.2.2.2.2.2.2.2.1
@[simp] theorem leftRunning_psr (s : State) : (leftRunning s).psr = s.psr := (leftRunning_keeps s).2.2.2.2.2.2.2.2.2.2

theorem complete_keeps (i : Nat) (st : SlotState) (s : State) :
    (complete i st s).pending = s.pending ∧ (complete i st s).inReset = s.inReset ∧ (complete i st s).scr = s.scr ∧ (complete i st s).sct = s.sct ∧ (complete i st s).pins = s.pins ∧ (complete i st s).dir = s.dir ∧ (complete i st s).degrees = s.degrees ∧ (complete i st s).spm = s.spm ∧ (complete i st s).org = s.org ∧ (complete i st s).lrp = s.lrp ∧ (complete i st s).psr = s.psr := by
  unfold complete
  (repeat' split) <;> simp
@[simp] theorem complete_pending (i : Nat) (st : SlotState) (s : State) : (complete i st s).pending = s.pending := (complete_keeps i st s).1
@[simp] theorem complete_inReset (i : Nat) (st : SlotState) (s : State) : (complete i st s).inReset = s.inReset := (complete_keeps i st s).2.1
@[simp] theorem complete_scr (i : Nat) (st : SlotState) (s : State) : (complete i st s).scr = s.scr := (complete_keeps i st s).2.2.1
@[simp] theorem complete_sct (i : Nat) (st : SlotState) (s : State) : (complete i st s).sct = s.sct := (complete_keeps i st s).2.2.2.1
@[simp] theorem complete_pins (i : Nat) (st : SlotState) (s : State) : (complete i st s).pins = s.pins := (complete_keeps i st s).2.2.2.2.1
@[simp] theorem complete_dir (i : Nat) (st : SlotState) (s : State) : (complete i st s).dir = s.dir := (complete_keeps i st s).2.2.2.2.2.1
@[simp] theorem complete_degrees (i : Nat) (st : SlotState) (s : State) : (complete i st s).degrees = s.degrees := (complete_keeps i st s).2.2.2.2.2.2.1
@[simp] theorem complete_spm (i : Nat) (st : SlotState) (s : State) : (complete i st s).spm = s.spm := (complete_keeps i st s).2.2.2.2.2.2.2.1
@[simp] theorem complete_org (i : Nat) (st : SlotState) (s : State) : (complete i st s).org = s.org := (complete_keeps i st s).2.2.2.2.2.2.2.2.1
@[simp] theorem complete_lrp (i : Nat) (st : SlotState) (s : State) : (complete i st s).lrp = s.lrp := (complete_keeps i st s).2.2.2.2.2.2.2.2.2.1
@[simp] theorem complete_psr (i : Nat) (st : SlotState) (s : State) : (complete i st s).psr = s.psr := (complete_keeps i st s).2.2.2.2.2.2.2.2.2.2

theorem settleSlot_keeps (i : Nat) (j : Job) (e : BitVec 16) (s : State) :
    (settleSlot i j e s).pending = s.pending ∧ (settleSlot i j e s).inReset = s.inReset ∧ (settleSlot i j e s).scr = s.scr ∧ (settleSlot i j e s).sct = s.sct ∧ (settleSlot i j e s).pins = s.pins ∧ (settleSlot i j e s).dir = s.dir ∧ (settleSlot i j e s).degrees = s.degrees ∧ (settleSlot i j e s).spm = s.spm ∧ (settleSlot i j e s).org = s.org ∧ (settleSlot i j e s).lrp = s.lrp ∧ (settleSlot i j e s).psr = s.psr := by
  unfold settleSlot
  try dsimp only
  repeat' apply And.intro
  all_goals (repeat' split) <;> simp
@[simp] theorem settleSlot_pending (i : Nat) (j : Job) (e : BitVec 16) (s : State) : (settleSlot i j e s).pending = s.pending := (settleSlot_keeps i j e s).1
@[simp] theorem settleSlot_inReset (i : Nat) (j : Job) (e : BitVec 16) (s : State) : (settleSlot i j e s).inReset = s.inReset := (settleSlot_keeps i j e s).2.1
@[simp] theorem settleSlot_scr (i : Nat) (j : Job) (e : BitVec 16) (s : State) : (settleSlot i j e s).scr = s.scr := (settleSlot_keeps i j e s).2.2.1
@[simp] theorem settleSlot_sct (i : Nat) (j : Job) (e : BitVec 16) (s : State) : (settleSlot i j e s).sct = s.sct := (settleSlot_keeps i j e s).2.2.2.1
@[simp] theorem settleSlot_pins (i : Nat) (j : Job) (e : BitVec 16) (s : State) : (settleSlot i j e s).pins = s.pins := (settleSlot_keeps i j e s).2.2.2.2.1
@[simp] theorem settleSlot_dir (i : Nat) (j : Job) (e : BitVec 16) (s : State) : (settleSlot i j e s).dir = s.dir := (settleSlot_keeps i j e s).2.2.2.2.2.1
@[simp] theorem settleSlot_degrees (i : Nat) (j : Job) (e : BitVec 16) (s : State) : (settleSlot i j e s).degrees = s.degrees := (settleSlot_keeps i j e s).2.2.2.2.2.2.1
@[simp] theorem settleSlot_spm (i : Nat) (j : Job) (e : BitVec 16) (s : State) : (settleSlot i j e s).spm = s.spm := (settleSlot_keeps i j e s).2.2.2.2.2.2.2.1
@[simp] theorem settleSlot_org (i : Nat) (j : Job) (e : BitVec 16) (s : State) : (settleSlot i j e s).org = s.org := (settleSlot_keeps i j e s).2.2.2.2.2.2.2.2.1
@[simp] theorem settleSlot_lrp (i : Nat) (j : Job) (e : BitVec 16) (s : State) : (settleSlot i j e s).lrp = s.lrp := (settleSlot_keeps i j e s).2.2.2.2.2.2.2.2.2.1
@[simp] theorem settleSlot_psr (i : Nat) (j : Job) (e : BitVec 16) (s : State) : (settleSlot i j e s).psr = s.psr := (settleSlot_keeps i j e s).2.2.2.2.2.2.2.2.2.2

theorem settle_keeps (s : State) :
    (settle s).pending = s.pending ∧ (settle s).inReset = s.inReset ∧ (settle s).scr = s.scr ∧ (settle s).sct = s.sct ∧ (settle s).pins = s.pins ∧ (settle s).dir = s.dir ∧ (settle s).degrees = s.degrees ∧ (settle s).spm = s.spm ∧ (settle s).org = s.org ∧ (settle s).lrp = s.lrp ∧ (settle s).psr = s.psr := by
  unfold settle
  (repeat' split) <;> simp
@[simp] theorem settle_pending (s : State) : (settle s).pending = s.pending := (settle_keeps s).1
@[simp] theorem settle_inReset (s : State) : (settle s).inReset = s.inReset := (settle_keeps s).2.1
@[simp] theorem settle_scr (s : State) : (settle s).scr = s.scr := (settle_keeps s).2.2.1
@[simp] theorem settle_sct (s : State) : (settle s).sct = s.sct := (settle_keeps s).2.2.2.1
@[simp] theorem settle_pins (s : State) : (settle s).pins = s.pins := (settle_keeps s).2.2.2.2.1
@[simp] theorem settle_dir (s : State) : (settle s).dir = s.dir := (settle_keeps s).2.2.2.2.2.1
@[simp] theorem settle_degrees (s : State) : (settle s).degrees = s.degrees := (settle_keeps s).2.2.2.2.2.2.1
@[simp] theorem settle_spm (s : State) : (settle s).spm = s.spm := (settle_keeps s).2.2.2.2.2.2.2.1
@[simp] theorem settle_org (s : State) : (settle s).org = s.org := (settle_keeps s).2.2.2.2.2.2.2.2.1
@[simp] theorem settle_lrp (s : State) : (settle s).lrp = s.lrp := (settle_keeps s).2.2.2.2.2.2.2.2.2.1
@[simp] theorem settle_psr (s : State) : (settle s).psr = s.psr := (settle_keeps s).2.2.2.2.2.2.2.2.2.2

theorem decideExpiry_keeps (s : State) :
    (decideExpiry s).pending = s.pending ∧ (decideExpiry s).inReset = s.inReset ∧ (decideExpiry s).scr = s.scr ∧ (decideExpiry s).sct = s.sct ∧ (decideExpiry s).pins = s.pins ∧ (decideExpiry s).dir = s.dir ∧ (decideExpiry s).degrees = s.degrees ∧ (decideExpiry s).spm = s.spm ∧ (decideExpiry s).org = s.org ∧ (decideExpiry s).lrp = s.lrp ∧ (decideExpiry s).psr = s.psr := by
  unfold decideExpiry
  (repeat' split) <;> simp
@[simp] theorem decideExpiry_pending (s : State) : (decideExpiry s).pending = s.pending := (decideExpiry_keeps s).1
@[simp] theorem decideExpiry_inReset (s : State) : (decideExpiry s).inReset = s.inReset := (decideExpiry_keeps s).2.1
@[simp] theorem decideExpiry_scr (s : State) : (decideExpiry s).scr = s.scr := (decideExpiry_keeps s).2.2.1
@[simp] theorem decideExpiry_sct (s : State) : (decideExpiry s).sct = s.sct := (decideExpiry_keeps s).2.2.2.1
@[simp] theorem decideExpiry_pins (s : State) : (decideExpiry s).pins = s.pins := (decideExpiry_keeps s).2.2.2.2.1
@[simp] theorem decideExpiry_dir (s : State) : (decideExpiry s).dir = s.dir := (decideExpiry_keeps s).2.2.2.2.2.1
@[simp] theorem decideExpiry_degrees (s : State) : (decideExpiry s).degrees = s.degrees := (decideExpiry_keeps s).2.2.2.2.2.2.1
@[simp] theorem decideExpiry_spm (s : State) : (decideExpiry s).spm = s.spm := (decideExpiry_keeps s).2.2.2.2.2.2.2.1
@[simp] theorem decideExpiry_org (s : State) : (decideExpiry s).org = s.org := (decideExpiry_keeps s).2.2.2.2.2.2.2.2.1
@[simp] theorem decideExpiry_lrp (s : State) : (decideExpiry s).lrp = s.lrp := (decideExpiry_keeps s).2.2.2.2.2.2.2.2.2.1
@[simp] theorem decideExpiry_psr (s : State) : (decideExpiry s).psr = s.psr := (decideExpiry_keeps s).2.2.2.2.2.2.2.2.2.2

theorem epochExpired_keeps (s : State) :
    (epochExpired s).pending = s.pending ∧ (epochExpired s).inReset = s.inReset ∧ (epochExpired s).scr = s.scr ∧ (epochExpired s).sct = s.sct ∧ (epochExpired s).pins = s.pins ∧ (epochExpired s).dir = s.dir ∧ (epochExpired s).degrees = s.degrees ∧ (epochExpired s).spm = s.spm ∧ (epochExpired s).org = s.org ∧ (epochExpired s).lrp = s.lrp ∧ (epochExpired s).psr = s.psr := by
  unfold epochExpired
  try dsimp only
  repeat' apply And.intro
  all_goals (repeat' split) <;> simp
@[simp] theorem epochExpired_pending (s : State) : (epochExpired s).pending = s.pending := (epochExpired_keeps s).1
@[simp] theorem epochExpired_inReset (s : State) : (epochExpired s).inReset = s.inReset := (epochExpired_keeps s).2.1
@[simp] theorem epochExpired_scr (s : State) : (epochExpired s).scr = s.scr := (epochExpired_keeps s).2.2.1
@[simp] theorem epochExpired_sct (s : State) : (epochExpired s).sct = s.sct := (epochExpired_keeps s).2.2.2.1
@[simp] theorem epochExpired_pins (s : State) : (epochExpired s).pins = s.pins := (epochExpired_keeps s).2.2.2.2.1
@[simp] theorem epochExpired_dir (s : State) : (epochExpired s).dir = s.dir := (epochExpired_keeps s).2.2.2.2.2.1
@[simp] theorem epochExpired_degrees (s : State) : (epochExpired s).degrees = s.degrees := (epochExpired_keeps s).2.2.2.2.2.2.1
@[simp] theorem epochExpired_spm (s : State) : (epochExpired s).spm = s.spm := (epochExpired_keeps s).2.2.2.2.2.2.2.1
@[simp] theorem epochExpired_org (s : State) : (epochExpired s).org = s.org := (epochExpired_keeps s).2.2.2.2.2.2.2.2.1
@[simp] theorem epochExpired_lrp (s : State) : (epochExpired s).lrp = s.lrp := (epochExpired_keeps s).2.2.2.2.2.2.2.2.2.1
@[simp] theorem epochExpired_psr (s : State) : (epochExpired s).psr = s.psr := (epochExpired_keeps s).2.2.2.2.2.2.2.2.2.2

theorem beginTaking_keeps (s : State) :
    (beginTaking s).pending = s.pending ∧ (beginTaking s).inReset = s.inReset ∧ (beginTaking s).scr = s.scr ∧ (beginTaking s).sct = s.sct ∧ (beginTaking s).pins = s.pins ∧ (beginTaking s).dir = s.dir ∧ (beginTaking s).degrees = s.degrees ∧ (beginTaking s).spm = s.spm ∧ (beginTaking s).org = s.org ∧ (beginTaking s).tdb = s.tdb ∧ (beginTaking s).slots = s.slots ∧ (beginTaking s).reqQueue = s.reqQueue ∧ (beginTaking s).pen = s.pen ∧ (beginTaking s).ntf = s.ntf ∧ (beginTaking s).psr = s.psr := by
  unfold beginTaking
  (repeat' split) <;> simp
@[simp] theorem beginTaking_pending (s : State) : (beginTaking s).pending = s.pending := (beginTaking_keeps s).1
@[simp] theorem beginTaking_inReset (s : State) : (beginTaking s).inReset = s.inReset := (beginTaking_keeps s).2.1
@[simp] theorem beginTaking_scr (s : State) : (beginTaking s).scr = s.scr := (beginTaking_keeps s).2.2.1
@[simp] theorem beginTaking_sct (s : State) : (beginTaking s).sct = s.sct := (beginTaking_keeps s).2.2.2.1
@[simp] theorem beginTaking_pins (s : State) : (beginTaking s).pins = s.pins := (beginTaking_keeps s).2.2.2.2.1
@[simp] theorem beginTaking_dir (s : State) : (beginTaking s).dir = s.dir := (beginTaking_keeps s).2.2.2.2.2.1
@[simp] theorem beginTaking_degrees (s : State) : (beginTaking s).degrees = s.degrees := (beginTaking_keeps s).2.2.2.2.2.2.1
@[simp] theorem beginTaking_spm (s : State) : (beginTaking s).spm = s.spm := (beginTaking_keeps s).2.2.2.2.2.2.2.1
@[simp] theorem beginTaking_org (s : State) : (beginTaking s).org = s.org := (beginTaking_keeps s).2.2.2.2.2.2.2.2.1
@[simp] theorem beginTaking_tdb (s : State) : (beginTaking s).tdb = s.tdb := (beginTaking_keeps s).2.2.2.2.2.2.2.2.2.1
@[simp] theorem beginTaking_slots (s : State) : (beginTaking s).slots = s.slots := (beginTaking_keeps s).2.2.2.2.2.2.2.2.2.2.1
@[simp] theorem beginTaking_reqQueue (s : State) : (beginTaking s).reqQueue = s.reqQueue := (beginTaking_keeps s).2.2.2.2.2.2.2.2.2.2.2.1
@[simp] theorem beginTaking_pen (s : State) : (beginTaking s).pen = s.pen := (beginTaking_keeps s).2.2.2.2.2.2.2.2.2.2.2.2.1
@[simp] theorem beginTaking_ntf (s : State) : (beginTaking s).ntf = s.ntf := (beginTaking_keeps s).2.2.2.2.2.2.2.2.2.2.2.2.2.1
@[simp] theorem beginTaking_psr (s : State) : (beginTaking s).psr = s.psr := (beginTaking_keeps s).2.2.2.2.2.2.2.2.2.2.2.2.2.2

theorem decideForce_keeps (s : State) :
    (decideForce s).pending = s.pending ∧ (decideForce s).inReset = s.inReset ∧ (decideForce s).scr = s.scr ∧ (decideForce s).sct = s.sct ∧ (decideForce s).pins = s.pins ∧ (decideForce s).dir = s.dir ∧ (decideForce s).degrees = s.degrees ∧ (decideForce s).spm = s.spm ∧ (decideForce s).org = s.org ∧ (decideForce s).psr = s.psr := by
  unfold decideForce
  (repeat' split) <;> simp
@[simp] theorem decideForce_pending (s : State) : (decideForce s).pending = s.pending := (decideForce_keeps s).1
@[simp] theorem decideForce_inReset (s : State) : (decideForce s).inReset = s.inReset := (decideForce_keeps s).2.1
@[simp] theorem decideForce_scr (s : State) : (decideForce s).scr = s.scr := (decideForce_keeps s).2.2.1
@[simp] theorem decideForce_sct (s : State) : (decideForce s).sct = s.sct := (decideForce_keeps s).2.2.2.1
@[simp] theorem decideForce_pins (s : State) : (decideForce s).pins = s.pins := (decideForce_keeps s).2.2.2.2.1
@[simp] theorem decideForce_dir (s : State) : (decideForce s).dir = s.dir := (decideForce_keeps s).2.2.2.2.2.1
@[simp] theorem decideForce_degrees (s : State) : (decideForce s).degrees = s.degrees := (decideForce_keeps s).2.2.2.2.2.2.1
@[simp] theorem decideForce_spm (s : State) : (decideForce s).spm = s.spm := (decideForce_keeps s).2.2.2.2.2.2.2.1
@[simp] theorem decideForce_org (s : State) : (decideForce s).org = s.org := (decideForce_keeps s).2.2.2.2.2.2.2.2.1
@[simp] theorem decideForce_psr (s : State) : (decideForce s).psr = s.psr := (decideForce_keeps s).2.2.2.2.2.2.2.2.2

theorem takeHeld_keeps (l : List EpochAsk) (s : State) :
    (takeHeld l s).pending = s.pending ∧ (takeHeld l s).inReset = s.inReset ∧ (takeHeld l s).scr = s.scr ∧ (takeHeld l s).sct = s.sct ∧ (takeHeld l s).pins = s.pins ∧ (takeHeld l s).dir = s.dir ∧ (takeHeld l s).degrees = s.degrees ∧ (takeHeld l s).spm = s.spm ∧ (takeHeld l s).org = s.org ∧ (takeHeld l s).psr = s.psr := by
  induction l generalizing s with
  | nil => simp [takeHeld]
  | cons a l ih =>
    cases a <;> unfold takeHeld <;> (repeat' split) <;> simp [ih]
@[simp] theorem takeHeld_pending (l : List EpochAsk) (s : State) : (takeHeld l s).pending = s.pending := (takeHeld_keeps l s).1
@[simp] theorem takeHeld_inReset (l : List EpochAsk) (s : State) : (takeHeld l s).inReset = s.inReset := (takeHeld_keeps l s).2.1
@[simp] theorem takeHeld_scr (l : List EpochAsk) (s : State) : (takeHeld l s).scr = s.scr := (takeHeld_keeps l s).2.2.1
@[simp] theorem takeHeld_sct (l : List EpochAsk) (s : State) : (takeHeld l s).sct = s.sct := (takeHeld_keeps l s).2.2.2.1
@[simp] theorem takeHeld_pins (l : List EpochAsk) (s : State) : (takeHeld l s).pins = s.pins := (takeHeld_keeps l s).2.2.2.2.1
@[simp] theorem takeHeld_dir (l : List EpochAsk) (s : State) : (takeHeld l s).dir = s.dir := (takeHeld_keeps l s).2.2.2.2.2.1
@[simp] theorem takeHeld_degrees (l : List EpochAsk) (s : State) : (takeHeld l s).degrees = s.degrees := (takeHeld_keeps l s).2.2.2.2.2.2.1
@[simp] theorem takeHeld_spm (l : List EpochAsk) (s : State) : (takeHeld l s).spm = s.spm := (takeHeld_keeps l s).2.2.2.2.2.2.2.1
@[simp] theorem takeHeld_org (l : List EpochAsk) (s : State) : (takeHeld l s).org = s.org := (takeHeld_keeps l s).2.2.2.2.2.2.2.2.1
@[simp] theorem takeHeld_psr (l : List EpochAsk) (s : State) : (takeHeld l s).psr = s.psr := (takeHeld_keeps l s).2.2.2.2.2.2.2.2.2

theorem endTransfer_keeps (s : State) :
    (endTransfer s).pending = s.pending ∧ (endTransfer s).inReset = s.inReset ∧ (endTransfer s).scr = s.scr ∧ (endTransfer s).sct = s.sct ∧ (endTransfer s).pins = s.pins ∧ (endTransfer s).dir = s.dir ∧ (endTransfer s).degrees = s.degrees ∧ (endTransfer s).spm = s.spm ∧ (endTransfer s).org = s.org ∧ (endTransfer s).psr = s.psr := by
  unfold endTransfer
  try dsimp only
  repeat' apply And.intro
  all_goals (repeat' split) <;> simp
@[simp] theorem endTransfer_pending (s : State) : (endTransfer s).pending = s.pending := (endTransfer_keeps s).1
@[simp] theorem endTransfer_inReset (s : State) : (endTransfer s).inReset = s.inReset := (endTransfer_keeps s).2.1
@[simp] theorem endTransfer_scr (s : State) : (endTransfer s).scr = s.scr := (endTransfer_keeps s).2.2.1
@[simp] theorem endTransfer_sct (s : State) : (endTransfer s).sct = s.sct := (endTransfer_keeps s).2.2.2.1
@[simp] theorem endTransfer_pins (s : State) : (endTransfer s).pins = s.pins := (endTransfer_keeps s).2.2.2.2.1
@[simp] theorem endTransfer_dir (s : State) : (endTransfer s).dir = s.dir := (endTransfer_keeps s).2.2.2.2.2.1
@[simp] theorem endTransfer_degrees (s : State) : (endTransfer s).degrees = s.degrees := (endTransfer_keeps s).2.2.2.2.2.2.1
@[simp] theorem endTransfer_spm (s : State) : (endTransfer s).spm = s.spm := (endTransfer_keeps s).2.2.2.2.2.2.2.1
@[simp] theorem endTransfer_org (s : State) : (endTransfer s).org = s.org := (endTransfer_keeps s).2.2.2.2.2.2.2.2.1
@[simp] theorem endTransfer_psr (s : State) : (endTransfer s).psr = s.psr := (endTransfer_keeps s).2.2.2.2.2.2.2.2.2

theorem endIntent_keeps (i : Nat) (s : State) :
    (endIntent i s).pending = s.pending ∧ (endIntent i s).inReset = s.inReset ∧ (endIntent i s).scr = s.scr ∧ (endIntent i s).pins = s.pins ∧ (endIntent i s).dir = s.dir ∧ (endIntent i s).degrees = s.degrees ∧ (endIntent i s).spm = s.spm ∧ (endIntent i s).org = s.org ∧ (endIntent i s).tdb = s.tdb ∧ (endIntent i s).reqQueue = s.reqQueue ∧ (endIntent i s).pen = s.pen ∧ (endIntent i s).lrp = s.lrp ∧ (endIntent i s).psr = s.psr := by
  unfold endIntent
  (repeat' split) <;> simp
@[simp] theorem endIntent_pending (i : Nat) (s : State) : (endIntent i s).pending = s.pending := (endIntent_keeps i s).1
@[simp] theorem endIntent_inReset (i : Nat) (s : State) : (endIntent i s).inReset = s.inReset := (endIntent_keeps i s).2.1
@[simp] theorem endIntent_scr (i : Nat) (s : State) : (endIntent i s).scr = s.scr := (endIntent_keeps i s).2.2.1
@[simp] theorem endIntent_pins (i : Nat) (s : State) : (endIntent i s).pins = s.pins := (endIntent_keeps i s).2.2.2.1
@[simp] theorem endIntent_dir (i : Nat) (s : State) : (endIntent i s).dir = s.dir := (endIntent_keeps i s).2.2.2.2.1
@[simp] theorem endIntent_degrees (i : Nat) (s : State) : (endIntent i s).degrees = s.degrees := (endIntent_keeps i s).2.2.2.2.2.1
@[simp] theorem endIntent_spm (i : Nat) (s : State) : (endIntent i s).spm = s.spm := (endIntent_keeps i s).2.2.2.2.2.2.1
@[simp] theorem endIntent_org (i : Nat) (s : State) : (endIntent i s).org = s.org := (endIntent_keeps i s).2.2.2.2.2.2.2.1
@[simp] theorem endIntent_tdb (i : Nat) (s : State) : (endIntent i s).tdb = s.tdb := (endIntent_keeps i s).2.2.2.2.2.2.2.2.1
@[simp] theorem endIntent_reqQueue (i : Nat) (s : State) : (endIntent i s).reqQueue = s.reqQueue := (endIntent_keeps i s).2.2.2.2.2.2.2.2.2.1
@[simp] theorem endIntent_pen (i : Nat) (s : State) : (endIntent i s).pen = s.pen := (endIntent_keeps i s).2.2.2.2.2.2.2.2.2.2.1
@[simp] theorem endIntent_lrp (i : Nat) (s : State) : (endIntent i s).lrp = s.lrp := (endIntent_keeps i s).2.2.2.2.2.2.2.2.2.2.2.1
@[simp] theorem endIntent_psr (i : Nat) (s : State) : (endIntent i s).psr = s.psr := (endIntent_keeps i s).2.2.2.2.2.2.2.2.2.2.2.2

theorem windowExpired_keeps (i : Nat) (s : State) :
    (windowExpired i s).pending = s.pending ∧ (windowExpired i s).inReset = s.inReset ∧ (windowExpired i s).scr = s.scr ∧ (windowExpired i s).sct = s.sct ∧ (windowExpired i s).pins = s.pins ∧ (windowExpired i s).dir = s.dir ∧ (windowExpired i s).degrees = s.degrees ∧ (windowExpired i s).spm = s.spm ∧ (windowExpired i s).org = s.org ∧ (windowExpired i s).tdb = s.tdb ∧ (windowExpired i s).reqQueue = s.reqQueue ∧ (windowExpired i s).pen = s.pen ∧ (windowExpired i s).lrp = s.lrp ∧ (windowExpired i s).psr = s.psr := by
  unfold windowExpired
  (repeat' split) <;> simp
@[simp] theorem windowExpired_pending (i : Nat) (s : State) : (windowExpired i s).pending = s.pending := (windowExpired_keeps i s).1
@[simp] theorem windowExpired_inReset (i : Nat) (s : State) : (windowExpired i s).inReset = s.inReset := (windowExpired_keeps i s).2.1
@[simp] theorem windowExpired_scr (i : Nat) (s : State) : (windowExpired i s).scr = s.scr := (windowExpired_keeps i s).2.2.1
@[simp] theorem windowExpired_sct (i : Nat) (s : State) : (windowExpired i s).sct = s.sct := (windowExpired_keeps i s).2.2.2.1
@[simp] theorem windowExpired_pins (i : Nat) (s : State) : (windowExpired i s).pins = s.pins := (windowExpired_keeps i s).2.2.2.2.1
@[simp] theorem windowExpired_dir (i : Nat) (s : State) : (windowExpired i s).dir = s.dir := (windowExpired_keeps i s).2.2.2.2.2.1
@[simp] theorem windowExpired_degrees (i : Nat) (s : State) : (windowExpired i s).degrees = s.degrees := (windowExpired_keeps i s).2.2.2.2.2.2.1
@[simp] theorem windowExpired_spm (i : Nat) (s : State) : (windowExpired i s).spm = s.spm := (windowExpired_keeps i s).2.2.2.2.2.2.2.1
@[simp] theorem windowExpired_org (i : Nat) (s : State) : (windowExpired i s).org = s.org := (windowExpired_keeps i s).2.2.2.2.2.2.2.2.1
@[simp] theorem windowExpired_tdb (i : Nat) (s : State) : (windowExpired i s).tdb = s.tdb := (windowExpired_keeps i s).2.2.2.2.2.2.2.2.2.1
@[simp] theorem windowExpired_reqQueue (i : Nat) (s : State) : (windowExpired i s).reqQueue = s.reqQueue := (windowExpired_keeps i s).2.2.2.2.2.2.2.2.2.2.1
@[simp] theorem windowExpired_pen (i : Nat) (s : State) : (windowExpired i s).pen = s.pen := (windowExpired_keeps i s).2.2.2.2.2.2.2.2.2.2.2.1
@[simp] theorem windowExpired_lrp (i : Nat) (s : State) : (windowExpired i s).lrp = s.lrp := (windowExpired_keeps i s).2.2.2.2.2.2.2.2.2.2.2.2.1
@[simp] theorem windowExpired_psr (i : Nat) (s : State) : (windowExpired i s).psr = s.psr := (windowExpired_keeps i s).2.2.2.2.2.2.2.2.2.2.2.2.2

theorem refreshIntent_keeps (i : Nat) (s : State) :
    (refreshIntent i s).pending = s.pending ∧ (refreshIntent i s).inReset = s.inReset ∧ (refreshIntent i s).scr = s.scr ∧ (refreshIntent i s).pins = s.pins ∧ (refreshIntent i s).dir = s.dir ∧ (refreshIntent i s).degrees = s.degrees ∧ (refreshIntent i s).spm = s.spm ∧ (refreshIntent i s).org = s.org ∧ (refreshIntent i s).tdb = s.tdb ∧ (refreshIntent i s).reqQueue = s.reqQueue ∧ (refreshIntent i s).pen = s.pen ∧ (refreshIntent i s).lrp = s.lrp ∧ (refreshIntent i s).psr = s.psr := by
  unfold refreshIntent
  (repeat' split) <;> simp
@[simp] theorem refreshIntent_pending (i : Nat) (s : State) : (refreshIntent i s).pending = s.pending := (refreshIntent_keeps i s).1
@[simp] theorem refreshIntent_inReset (i : Nat) (s : State) : (refreshIntent i s).inReset = s.inReset := (refreshIntent_keeps i s).2.1
@[simp] theorem refreshIntent_scr (i : Nat) (s : State) : (refreshIntent i s).scr = s.scr := (refreshIntent_keeps i s).2.2.1
@[simp] theorem refreshIntent_pins (i : Nat) (s : State) : (refreshIntent i s).pins = s.pins := (refreshIntent_keeps i s).2.2.2.1
@[simp] theorem refreshIntent_dir (i : Nat) (s : State) : (refreshIntent i s).dir = s.dir := (refreshIntent_keeps i s).2.2.2.2.1
@[simp] theorem refreshIntent_degrees (i : Nat) (s : State) : (refreshIntent i s).degrees = s.degrees := (refreshIntent_keeps i s).2.2.2.2.2.1
@[simp] theorem refreshIntent_spm (i : Nat) (s : State) : (refreshIntent i s).spm = s.spm := (refreshIntent_keeps i s).2.2.2.2.2.2.1
@[simp] theorem refreshIntent_org (i : Nat) (s : State) : (refreshIntent i s).org = s.org := (refreshIntent_keeps i s).2.2.2.2.2.2.2.1
@[simp] theorem refreshIntent_tdb (i : Nat) (s : State) : (refreshIntent i s).tdb = s.tdb := (refreshIntent_keeps i s).2.2.2.2.2.2.2.2.1
@[simp] theorem refreshIntent_reqQueue (i : Nat) (s : State) : (refreshIntent i s).reqQueue = s.reqQueue := (refreshIntent_keeps i s).2.2.2.2.2.2.2.2.2.1
@[simp] theorem refreshIntent_pen (i : Nat) (s : State) : (refreshIntent i s).pen = s.pen := (refreshIntent_keeps i s).2.2.2.2.2.2.2.2.2.2.1
@[simp] theorem refreshIntent_lrp (i : Nat) (s : State) : (refreshIntent i s).lrp = s.lrp := (refreshIntent_keeps i s).2.2.2.2.2.2.2.2.2.2.2.1
@[simp] theorem refreshIntent_psr (i : Nat) (s : State) : (refreshIntent i s).psr = s.psr := (refreshIntent_keeps i s).2.2.2.2.2.2.2.2.2.2.2.2

theorem compareIntent_keeps (u : Uid) (pr : Nat) (ps : List Pair) (s : State) (i : Nat) :
    (compareIntent u pr ps s i).pending = s.pending ∧ (compareIntent u pr ps s i).inReset = s.inReset ∧ (compareIntent u pr ps s i).scr = s.scr ∧ (compareIntent u pr ps s i).pins = s.pins ∧ (compareIntent u pr ps s i).dir = s.dir ∧ (compareIntent u pr ps s i).degrees = s.degrees ∧ (compareIntent u pr ps s i).spm = s.spm ∧ (compareIntent u pr ps s i).org = s.org ∧ (compareIntent u pr ps s i).tdb = s.tdb ∧ (compareIntent u pr ps s i).reqQueue = s.reqQueue ∧ (compareIntent u pr ps s i).pen = s.pen ∧ (compareIntent u pr ps s i).lrp = s.lrp ∧ (compareIntent u pr ps s i).psr = s.psr := by
  unfold compareIntent
  (repeat' split) <;> simp
@[simp] theorem compareIntent_pending (u : Uid) (pr : Nat) (ps : List Pair) (s : State) (i : Nat) : (compareIntent u pr ps s i).pending = s.pending := (compareIntent_keeps u pr ps s i).1
@[simp] theorem compareIntent_inReset (u : Uid) (pr : Nat) (ps : List Pair) (s : State) (i : Nat) : (compareIntent u pr ps s i).inReset = s.inReset := (compareIntent_keeps u pr ps s i).2.1
@[simp] theorem compareIntent_scr (u : Uid) (pr : Nat) (ps : List Pair) (s : State) (i : Nat) : (compareIntent u pr ps s i).scr = s.scr := (compareIntent_keeps u pr ps s i).2.2.1
@[simp] theorem compareIntent_pins (u : Uid) (pr : Nat) (ps : List Pair) (s : State) (i : Nat) : (compareIntent u pr ps s i).pins = s.pins := (compareIntent_keeps u pr ps s i).2.2.2.1
@[simp] theorem compareIntent_dir (u : Uid) (pr : Nat) (ps : List Pair) (s : State) (i : Nat) : (compareIntent u pr ps s i).dir = s.dir := (compareIntent_keeps u pr ps s i).2.2.2.2.1
@[simp] theorem compareIntent_degrees (u : Uid) (pr : Nat) (ps : List Pair) (s : State) (i : Nat) : (compareIntent u pr ps s i).degrees = s.degrees := (compareIntent_keeps u pr ps s i).2.2.2.2.2.1
@[simp] theorem compareIntent_spm (u : Uid) (pr : Nat) (ps : List Pair) (s : State) (i : Nat) : (compareIntent u pr ps s i).spm = s.spm := (compareIntent_keeps u pr ps s i).2.2.2.2.2.2.1
@[simp] theorem compareIntent_org (u : Uid) (pr : Nat) (ps : List Pair) (s : State) (i : Nat) : (compareIntent u pr ps s i).org = s.org := (compareIntent_keeps u pr ps s i).2.2.2.2.2.2.2.1
@[simp] theorem compareIntent_tdb (u : Uid) (pr : Nat) (ps : List Pair) (s : State) (i : Nat) : (compareIntent u pr ps s i).tdb = s.tdb := (compareIntent_keeps u pr ps s i).2.2.2.2.2.2.2.2.1
@[simp] theorem compareIntent_reqQueue (u : Uid) (pr : Nat) (ps : List Pair) (s : State) (i : Nat) : (compareIntent u pr ps s i).reqQueue = s.reqQueue := (compareIntent_keeps u pr ps s i).2.2.2.2.2.2.2.2.2.1
@[simp] theorem compareIntent_pen (u : Uid) (pr : Nat) (ps : List Pair) (s : State) (i : Nat) : (compareIntent u pr ps s i).pen = s.pen := (compareIntent_keeps u pr ps s i).2.2.2.2.2.2.2.2.2.2.1
@[simp] theorem compareIntent_lrp (u : Uid) (pr : Nat) (ps : List Pair) (s : State) (i : Nat) : (compareIntent u pr ps s i).lrp = s.lrp := (compareIntent_keeps u pr ps s i).2.2.2.2.2.2.2.2.2.2.2.1
@[simp] theorem compareIntent_psr (u : Uid) (pr : Nat) (ps : List Pair) (s : State) (i : Nat) : (compareIntent u pr ps s i).psr = s.psr := (compareIntent_keeps u pr ps s i).2.2.2.2.2.2.2.2.2.2.2.2

theorem compareIntents_keeps (u : Uid) (pr : Nat) (ps : List Pair) (s : State) :
    (compareIntents u pr ps s).pending = s.pending ∧ (compareIntents u pr ps s).inReset = s.inReset ∧ (compareIntents u pr ps s).scr = s.scr ∧ (compareIntents u pr ps s).pins = s.pins ∧ (compareIntents u pr ps s).dir = s.dir ∧ (compareIntents u pr ps s).degrees = s.degrees ∧ (compareIntents u pr ps s).spm = s.spm ∧ (compareIntents u pr ps s).org = s.org ∧ (compareIntents u pr ps s).tdb = s.tdb ∧ (compareIntents u pr ps s).reqQueue = s.reqQueue ∧ (compareIntents u pr ps s).pen = s.pen ∧ (compareIntents u pr ps s).lrp = s.lrp ∧ (compareIntents u pr ps s).psr = s.psr := by
  unfold compareIntents
  exact ⟨foldl_keeps _ State.pending (fun t d => by simp) _ _, foldl_keeps _ State.inReset (fun t d => by simp) _ _, foldl_keeps _ State.scr (fun t d => by simp) _ _, foldl_keeps _ State.pins (fun t d => by simp) _ _, foldl_keeps _ State.dir (fun t d => by simp) _ _, foldl_keeps _ State.degrees (fun t d => by simp) _ _, foldl_keeps _ State.spm (fun t d => by simp) _ _, foldl_keeps _ State.org (fun t d => by simp) _ _, foldl_keeps _ State.tdb (fun t d => by simp) _ _, foldl_keeps _ State.reqQueue (fun t d => by simp) _ _, foldl_keeps _ State.pen (fun t d => by simp) _ _, foldl_keeps _ State.lrp (fun t d => by simp) _ _, foldl_keeps _ State.psr (fun t d => by simp) _ _⟩
@[simp] theorem compareIntents_pending (u : Uid) (pr : Nat) (ps : List Pair) (s : State) : (compareIntents u pr ps s).pending = s.pending := (compareIntents_keeps u pr ps s).1
@[simp] theorem compareIntents_inReset (u : Uid) (pr : Nat) (ps : List Pair) (s : State) : (compareIntents u pr ps s).inReset = s.inReset := (compareIntents_keeps u pr ps s).2.1
@[simp] theorem compareIntents_scr (u : Uid) (pr : Nat) (ps : List Pair) (s : State) : (compareIntents u pr ps s).scr = s.scr := (compareIntents_keeps u pr ps s).2.2.1
@[simp] theorem compareIntents_pins (u : Uid) (pr : Nat) (ps : List Pair) (s : State) : (compareIntents u pr ps s).pins = s.pins := (compareIntents_keeps u pr ps s).2.2.2.1
@[simp] theorem compareIntents_dir (u : Uid) (pr : Nat) (ps : List Pair) (s : State) : (compareIntents u pr ps s).dir = s.dir := (compareIntents_keeps u pr ps s).2.2.2.2.1
@[simp] theorem compareIntents_degrees (u : Uid) (pr : Nat) (ps : List Pair) (s : State) : (compareIntents u pr ps s).degrees = s.degrees := (compareIntents_keeps u pr ps s).2.2.2.2.2.1
@[simp] theorem compareIntents_spm (u : Uid) (pr : Nat) (ps : List Pair) (s : State) : (compareIntents u pr ps s).spm = s.spm := (compareIntents_keeps u pr ps s).2.2.2.2.2.2.1
@[simp] theorem compareIntents_org (u : Uid) (pr : Nat) (ps : List Pair) (s : State) : (compareIntents u pr ps s).org = s.org := (compareIntents_keeps u pr ps s).2.2.2.2.2.2.2.1
@[simp] theorem compareIntents_tdb (u : Uid) (pr : Nat) (ps : List Pair) (s : State) : (compareIntents u pr ps s).tdb = s.tdb := (compareIntents_keeps u pr ps s).2.2.2.2.2.2.2.2.1
@[simp] theorem compareIntents_reqQueue (u : Uid) (pr : Nat) (ps : List Pair) (s : State) : (compareIntents u pr ps s).reqQueue = s.reqQueue := (compareIntents_keeps u pr ps s).2.2.2.2.2.2.2.2.2.1
@[simp] theorem compareIntents_pen (u : Uid) (pr : Nat) (ps : List Pair) (s : State) : (compareIntents u pr ps s).pen = s.pen := (compareIntents_keeps u pr ps s).2.2.2.2.2.2.2.2.2.2.1
@[simp] theorem compareIntents_lrp (u : Uid) (pr : Nat) (ps : List Pair) (s : State) : (compareIntents u pr ps s).lrp = s.lrp := (compareIntents_keeps u pr ps s).2.2.2.2.2.2.2.2.2.2.2.1
@[simp] theorem compareIntents_psr (u : Uid) (pr : Nat) (ps : List Pair) (s : State) : (compareIntents u pr ps s).psr = s.psr := (compareIntents_keeps u pr ps s).2.2.2.2.2.2.2.2.2.2.2.2

theorem loseAllIntents_keeps (s : State) :
    (loseAllIntents s).pending = s.pending ∧ (loseAllIntents s).inReset = s.inReset ∧ (loseAllIntents s).scr = s.scr ∧ (loseAllIntents s).sct = s.sct ∧ (loseAllIntents s).pins = s.pins ∧ (loseAllIntents s).dir = s.dir ∧ (loseAllIntents s).degrees = s.degrees ∧ (loseAllIntents s).spm = s.spm ∧ (loseAllIntents s).org = s.org ∧ (loseAllIntents s).tdb = s.tdb ∧ (loseAllIntents s).reqQueue = s.reqQueue ∧ (loseAllIntents s).pen = s.pen ∧ (loseAllIntents s).lrp = s.lrp ∧ (loseAllIntents s).psr = s.psr := by
  unfold loseAllIntents
  exact ⟨foldl_keeps _ State.pending (fun t d => by simp) _ _, foldl_keeps _ State.inReset (fun t d => by simp) _ _, foldl_keeps _ State.scr (fun t d => by simp) _ _, foldl_keeps _ State.sct (fun t d => by simp) _ _, foldl_keeps _ State.pins (fun t d => by simp) _ _, foldl_keeps _ State.dir (fun t d => by simp) _ _, foldl_keeps _ State.degrees (fun t d => by simp) _ _, foldl_keeps _ State.spm (fun t d => by simp) _ _, foldl_keeps _ State.org (fun t d => by simp) _ _, foldl_keeps _ State.tdb (fun t d => by simp) _ _, foldl_keeps _ State.reqQueue (fun t d => by simp) _ _, foldl_keeps _ State.pen (fun t d => by simp) _ _, foldl_keeps _ State.lrp (fun t d => by simp) _ _, foldl_keeps _ State.psr (fun t d => by simp) _ _⟩
@[simp] theorem loseAllIntents_pending (s : State) : (loseAllIntents s).pending = s.pending := (loseAllIntents_keeps s).1
@[simp] theorem loseAllIntents_inReset (s : State) : (loseAllIntents s).inReset = s.inReset := (loseAllIntents_keeps s).2.1
@[simp] theorem loseAllIntents_scr (s : State) : (loseAllIntents s).scr = s.scr := (loseAllIntents_keeps s).2.2.1
@[simp] theorem loseAllIntents_sct (s : State) : (loseAllIntents s).sct = s.sct := (loseAllIntents_keeps s).2.2.2.1
@[simp] theorem loseAllIntents_pins (s : State) : (loseAllIntents s).pins = s.pins := (loseAllIntents_keeps s).2.2.2.2.1
@[simp] theorem loseAllIntents_dir (s : State) : (loseAllIntents s).dir = s.dir := (loseAllIntents_keeps s).2.2.2.2.2.1
@[simp] theorem loseAllIntents_degrees (s : State) : (loseAllIntents s).degrees = s.degrees := (loseAllIntents_keeps s).2.2.2.2.2.2.1
@[simp] theorem loseAllIntents_spm (s : State) : (loseAllIntents s).spm = s.spm := (loseAllIntents_keeps s).2.2.2.2.2.2.2.1
@[simp] theorem loseAllIntents_org (s : State) : (loseAllIntents s).org = s.org := (loseAllIntents_keeps s).2.2.2.2.2.2.2.2.1
@[simp] theorem loseAllIntents_tdb (s : State) : (loseAllIntents s).tdb = s.tdb := (loseAllIntents_keeps s).2.2.2.2.2.2.2.2.2.1
@[simp] theorem loseAllIntents_reqQueue (s : State) : (loseAllIntents s).reqQueue = s.reqQueue := (loseAllIntents_keeps s).2.2.2.2.2.2.2.2.2.2.1
@[simp] theorem loseAllIntents_pen (s : State) : (loseAllIntents s).pen = s.pen := (loseAllIntents_keeps s).2.2.2.2.2.2.2.2.2.2.2.1
@[simp] theorem loseAllIntents_lrp (s : State) : (loseAllIntents s).lrp = s.lrp := (loseAllIntents_keeps s).2.2.2.2.2.2.2.2.2.2.2.2.1
@[simp] theorem loseAllIntents_psr (s : State) : (loseAllIntents s).psr = s.psr := (loseAllIntents_keeps s).2.2.2.2.2.2.2.2.2.2.2.2.2

theorem enterNoNumber_keeps (s : State) :
    (enterNoNumber s).pending = s.pending ∧ (enterNoNumber s).inReset = s.inReset ∧ (enterNoNumber s).scr = s.scr ∧ (enterNoNumber s).pins = s.pins ∧ (enterNoNumber s).degrees = s.degrees ∧ (enterNoNumber s).spm = s.spm ∧ (enterNoNumber s).org = s.org ∧ (enterNoNumber s).tdb = s.tdb ∧ (enterNoNumber s).slots = s.slots ∧ (enterNoNumber s).reqQueue = s.reqQueue ∧ (enterNoNumber s).pen = s.pen ∧ (enterNoNumber s).lrp = s.lrp ∧ (enterNoNumber s).psr = s.psr := by
  unfold enterNoNumber
  (repeat' split) <;> simp
@[simp] theorem enterNoNumber_pending (s : State) : (enterNoNumber s).pending = s.pending := (enterNoNumber_keeps s).1
@[simp] theorem enterNoNumber_inReset (s : State) : (enterNoNumber s).inReset = s.inReset := (enterNoNumber_keeps s).2.1
@[simp] theorem enterNoNumber_scr (s : State) : (enterNoNumber s).scr = s.scr := (enterNoNumber_keeps s).2.2.1
@[simp] theorem enterNoNumber_pins (s : State) : (enterNoNumber s).pins = s.pins := (enterNoNumber_keeps s).2.2.2.1
@[simp] theorem enterNoNumber_degrees (s : State) : (enterNoNumber s).degrees = s.degrees := (enterNoNumber_keeps s).2.2.2.2.1
@[simp] theorem enterNoNumber_spm (s : State) : (enterNoNumber s).spm = s.spm := (enterNoNumber_keeps s).2.2.2.2.2.1
@[simp] theorem enterNoNumber_org (s : State) : (enterNoNumber s).org = s.org := (enterNoNumber_keeps s).2.2.2.2.2.2.1
@[simp] theorem enterNoNumber_tdb (s : State) : (enterNoNumber s).tdb = s.tdb := (enterNoNumber_keeps s).2.2.2.2.2.2.2.1
@[simp] theorem enterNoNumber_slots (s : State) : (enterNoNumber s).slots = s.slots := (enterNoNumber_keeps s).2.2.2.2.2.2.2.2.1
@[simp] theorem enterNoNumber_reqQueue (s : State) : (enterNoNumber s).reqQueue = s.reqQueue := (enterNoNumber_keeps s).2.2.2.2.2.2.2.2.2.1
@[simp] theorem enterNoNumber_pen (s : State) : (enterNoNumber s).pen = s.pen := (enterNoNumber_keeps s).2.2.2.2.2.2.2.2.2.2.1
@[simp] theorem enterNoNumber_lrp (s : State) : (enterNoNumber s).lrp = s.lrp := (enterNoNumber_keeps s).2.2.2.2.2.2.2.2.2.2.2.1
@[simp] theorem enterNoNumber_psr (s : State) : (enterNoNumber s).psr = s.psr := (enterNoNumber_keeps s).2.2.2.2.2.2.2.2.2.2.2.2

theorem takeCandidate_keeps (s : State) :
    (takeCandidate s).pending = s.pending ∧ (takeCandidate s).inReset = s.inReset ∧ (takeCandidate s).scr = s.scr ∧ (takeCandidate s).pins = s.pins ∧ (takeCandidate s).degrees = s.degrees ∧ (takeCandidate s).spm = s.spm ∧ (takeCandidate s).org = s.org ∧ (takeCandidate s).tdb = s.tdb ∧ (takeCandidate s).slots = s.slots ∧ (takeCandidate s).reqQueue = s.reqQueue ∧ (takeCandidate s).pen = s.pen ∧ (takeCandidate s).lrp = s.lrp ∧ (takeCandidate s).psr = s.psr := by
  unfold takeCandidate
  (repeat' split) <;> simp
@[simp] theorem takeCandidate_pending (s : State) : (takeCandidate s).pending = s.pending := (takeCandidate_keeps s).1
@[simp] theorem takeCandidate_inReset (s : State) : (takeCandidate s).inReset = s.inReset := (takeCandidate_keeps s).2.1
@[simp] theorem takeCandidate_scr (s : State) : (takeCandidate s).scr = s.scr := (takeCandidate_keeps s).2.2.1
@[simp] theorem takeCandidate_pins (s : State) : (takeCandidate s).pins = s.pins := (takeCandidate_keeps s).2.2.2.1
@[simp] theorem takeCandidate_degrees (s : State) : (takeCandidate s).degrees = s.degrees := (takeCandidate_keeps s).2.2.2.2.1
@[simp] theorem takeCandidate_spm (s : State) : (takeCandidate s).spm = s.spm := (takeCandidate_keeps s).2.2.2.2.2.1
@[simp] theorem takeCandidate_org (s : State) : (takeCandidate s).org = s.org := (takeCandidate_keeps s).2.2.2.2.2.2.1
@[simp] theorem takeCandidate_tdb (s : State) : (takeCandidate s).tdb = s.tdb := (takeCandidate_keeps s).2.2.2.2.2.2.2.1
@[simp] theorem takeCandidate_slots (s : State) : (takeCandidate s).slots = s.slots := (takeCandidate_keeps s).2.2.2.2.2.2.2.2.1
@[simp] theorem takeCandidate_reqQueue (s : State) : (takeCandidate s).reqQueue = s.reqQueue := (takeCandidate_keeps s).2.2.2.2.2.2.2.2.2.1
@[simp] theorem takeCandidate_pen (s : State) : (takeCandidate s).pen = s.pen := (takeCandidate_keeps s).2.2.2.2.2.2.2.2.2.2.1
@[simp] theorem takeCandidate_lrp (s : State) : (takeCandidate s).lrp = s.lrp := (takeCandidate_keeps s).2.2.2.2.2.2.2.2.2.2.2.1
@[simp] theorem takeCandidate_psr (s : State) : (takeCandidate s).psr = s.psr := (takeCandidate_keeps s).2.2.2.2.2.2.2.2.2.2.2.2

theorem enterJoining_keeps (st : BitVec 3) (y : List Nat) (s : State) :
    (enterJoining st y s).pending = s.pending ∧ (enterJoining st y s).inReset = s.inReset ∧ (enterJoining st y s).scr = s.scr ∧ (enterJoining st y s).pins = s.pins ∧ (enterJoining st y s).degrees = s.degrees ∧ (enterJoining st y s).spm = s.spm ∧ (enterJoining st y s).org = s.org ∧ (enterJoining st y s).tdb = s.tdb ∧ (enterJoining st y s).slots = s.slots ∧ (enterJoining st y s).reqQueue = s.reqQueue ∧ (enterJoining st y s).pen = s.pen ∧ (enterJoining st y s).lrp = s.lrp ∧ (enterJoining st y s).psr = s.psr := by
  unfold enterJoining
  (repeat' split) <;> simp
@[simp] theorem enterJoining_pending (st : BitVec 3) (y : List Nat) (s : State) : (enterJoining st y s).pending = s.pending := (enterJoining_keeps st y s).1
@[simp] theorem enterJoining_inReset (st : BitVec 3) (y : List Nat) (s : State) : (enterJoining st y s).inReset = s.inReset := (enterJoining_keeps st y s).2.1
@[simp] theorem enterJoining_scr (st : BitVec 3) (y : List Nat) (s : State) : (enterJoining st y s).scr = s.scr := (enterJoining_keeps st y s).2.2.1
@[simp] theorem enterJoining_pins (st : BitVec 3) (y : List Nat) (s : State) : (enterJoining st y s).pins = s.pins := (enterJoining_keeps st y s).2.2.2.1
@[simp] theorem enterJoining_degrees (st : BitVec 3) (y : List Nat) (s : State) : (enterJoining st y s).degrees = s.degrees := (enterJoining_keeps st y s).2.2.2.2.1
@[simp] theorem enterJoining_spm (st : BitVec 3) (y : List Nat) (s : State) : (enterJoining st y s).spm = s.spm := (enterJoining_keeps st y s).2.2.2.2.2.1
@[simp] theorem enterJoining_org (st : BitVec 3) (y : List Nat) (s : State) : (enterJoining st y s).org = s.org := (enterJoining_keeps st y s).2.2.2.2.2.2.1
@[simp] theorem enterJoining_tdb (st : BitVec 3) (y : List Nat) (s : State) : (enterJoining st y s).tdb = s.tdb := (enterJoining_keeps st y s).2.2.2.2.2.2.2.1
@[simp] theorem enterJoining_slots (st : BitVec 3) (y : List Nat) (s : State) : (enterJoining st y s).slots = s.slots := (enterJoining_keeps st y s).2.2.2.2.2.2.2.2.1
@[simp] theorem enterJoining_reqQueue (st : BitVec 3) (y : List Nat) (s : State) : (enterJoining st y s).reqQueue = s.reqQueue := (enterJoining_keeps st y s).2.2.2.2.2.2.2.2.2.1
@[simp] theorem enterJoining_pen (st : BitVec 3) (y : List Nat) (s : State) : (enterJoining st y s).pen = s.pen := (enterJoining_keeps st y s).2.2.2.2.2.2.2.2.2.2.1
@[simp] theorem enterJoining_lrp (st : BitVec 3) (y : List Nat) (s : State) : (enterJoining st y s).lrp = s.lrp := (enterJoining_keeps st y s).2.2.2.2.2.2.2.2.2.2.2.1
@[simp] theorem enterJoining_psr (st : BitVec 3) (y : List Nat) (s : State) : (enterJoining st y s).psr = s.psr := (enterJoining_keeps st y s).2.2.2.2.2.2.2.2.2.2.2.2

theorem yieldNumber_keeps (n : Nat) (s : State) :
    (yieldNumber n s).pending = s.pending ∧ (yieldNumber n s).inReset = s.inReset ∧ (yieldNumber n s).scr = s.scr ∧ (yieldNumber n s).pins = s.pins ∧ (yieldNumber n s).degrees = s.degrees ∧ (yieldNumber n s).spm = s.spm ∧ (yieldNumber n s).org = s.org ∧ (yieldNumber n s).tdb = s.tdb ∧ (yieldNumber n s).slots = s.slots ∧ (yieldNumber n s).reqQueue = s.reqQueue ∧ (yieldNumber n s).pen = s.pen ∧ (yieldNumber n s).lrp = s.lrp ∧ (yieldNumber n s).psr = s.psr := by
  unfold yieldNumber
  (repeat' split) <;> simp
@[simp] theorem yieldNumber_pending (n : Nat) (s : State) : (yieldNumber n s).pending = s.pending := (yieldNumber_keeps n s).1
@[simp] theorem yieldNumber_inReset (n : Nat) (s : State) : (yieldNumber n s).inReset = s.inReset := (yieldNumber_keeps n s).2.1
@[simp] theorem yieldNumber_scr (n : Nat) (s : State) : (yieldNumber n s).scr = s.scr := (yieldNumber_keeps n s).2.2.1
@[simp] theorem yieldNumber_pins (n : Nat) (s : State) : (yieldNumber n s).pins = s.pins := (yieldNumber_keeps n s).2.2.2.1
@[simp] theorem yieldNumber_degrees (n : Nat) (s : State) : (yieldNumber n s).degrees = s.degrees := (yieldNumber_keeps n s).2.2.2.2.1
@[simp] theorem yieldNumber_spm (n : Nat) (s : State) : (yieldNumber n s).spm = s.spm := (yieldNumber_keeps n s).2.2.2.2.2.1
@[simp] theorem yieldNumber_org (n : Nat) (s : State) : (yieldNumber n s).org = s.org := (yieldNumber_keeps n s).2.2.2.2.2.2.1
@[simp] theorem yieldNumber_tdb (n : Nat) (s : State) : (yieldNumber n s).tdb = s.tdb := (yieldNumber_keeps n s).2.2.2.2.2.2.2.1
@[simp] theorem yieldNumber_slots (n : Nat) (s : State) : (yieldNumber n s).slots = s.slots := (yieldNumber_keeps n s).2.2.2.2.2.2.2.2.1
@[simp] theorem yieldNumber_reqQueue (n : Nat) (s : State) : (yieldNumber n s).reqQueue = s.reqQueue := (yieldNumber_keeps n s).2.2.2.2.2.2.2.2.2.1
@[simp] theorem yieldNumber_pen (n : Nat) (s : State) : (yieldNumber n s).pen = s.pen := (yieldNumber_keeps n s).2.2.2.2.2.2.2.2.2.2.1
@[simp] theorem yieldNumber_lrp (n : Nat) (s : State) : (yieldNumber n s).lrp = s.lrp := (yieldNumber_keeps n s).2.2.2.2.2.2.2.2.2.2.2.1
@[simp] theorem yieldNumber_psr (n : Nat) (s : State) : (yieldNumber n s).psr = s.psr := (yieldNumber_keeps n s).2.2.2.2.2.2.2.2.2.2.2.2

theorem purgeViews_keeps (n : Nat) (u : Uid) (s : State) :
    (purgeViews n u s).pending = s.pending ∧ (purgeViews n u s).inReset = s.inReset ∧ (purgeViews n u s).scr = s.scr ∧ (purgeViews n u s).sct = s.sct ∧ (purgeViews n u s).pins = s.pins ∧ (purgeViews n u s).dir = s.dir ∧ (purgeViews n u s).degrees = s.degrees ∧ (purgeViews n u s).spm = s.spm ∧ (purgeViews n u s).org = s.org ∧ (purgeViews n u s).slots = s.slots ∧ (purgeViews n u s).reqQueue = s.reqQueue ∧ (purgeViews n u s).pen = s.pen ∧ (purgeViews n u s).lrp = s.lrp ∧ (purgeViews n u s).psr = s.psr := by
  unfold purgeViews
  (repeat' split) <;> simp
@[simp] theorem purgeViews_pending (n : Nat) (u : Uid) (s : State) : (purgeViews n u s).pending = s.pending := (purgeViews_keeps n u s).1
@[simp] theorem purgeViews_inReset (n : Nat) (u : Uid) (s : State) : (purgeViews n u s).inReset = s.inReset := (purgeViews_keeps n u s).2.1
@[simp] theorem purgeViews_scr (n : Nat) (u : Uid) (s : State) : (purgeViews n u s).scr = s.scr := (purgeViews_keeps n u s).2.2.1
@[simp] theorem purgeViews_sct (n : Nat) (u : Uid) (s : State) : (purgeViews n u s).sct = s.sct := (purgeViews_keeps n u s).2.2.2.1
@[simp] theorem purgeViews_pins (n : Nat) (u : Uid) (s : State) : (purgeViews n u s).pins = s.pins := (purgeViews_keeps n u s).2.2.2.2.1
@[simp] theorem purgeViews_dir (n : Nat) (u : Uid) (s : State) : (purgeViews n u s).dir = s.dir := (purgeViews_keeps n u s).2.2.2.2.2.1
@[simp] theorem purgeViews_degrees (n : Nat) (u : Uid) (s : State) : (purgeViews n u s).degrees = s.degrees := (purgeViews_keeps n u s).2.2.2.2.2.2.1
@[simp] theorem purgeViews_spm (n : Nat) (u : Uid) (s : State) : (purgeViews n u s).spm = s.spm := (purgeViews_keeps n u s).2.2.2.2.2.2.2.1
@[simp] theorem purgeViews_org (n : Nat) (u : Uid) (s : State) : (purgeViews n u s).org = s.org := (purgeViews_keeps n u s).2.2.2.2.2.2.2.2.1
@[simp] theorem purgeViews_slots (n : Nat) (u : Uid) (s : State) : (purgeViews n u s).slots = s.slots := (purgeViews_keeps n u s).2.2.2.2.2.2.2.2.2.1
@[simp] theorem purgeViews_reqQueue (n : Nat) (u : Uid) (s : State) : (purgeViews n u s).reqQueue = s.reqQueue := (purgeViews_keeps n u s).2.2.2.2.2.2.2.2.2.2.1
@[simp] theorem purgeViews_pen (n : Nat) (u : Uid) (s : State) : (purgeViews n u s).pen = s.pen := (purgeViews_keeps n u s).2.2.2.2.2.2.2.2.2.2.2.1
@[simp] theorem purgeViews_lrp (n : Nat) (u : Uid) (s : State) : (purgeViews n u s).lrp = s.lrp := (purgeViews_keeps n u s).2.2.2.2.2.2.2.2.2.2.2.2.1
@[simp] theorem purgeViews_psr (n : Nat) (u : Uid) (s : State) : (purgeViews n u s).psr = s.psr := (purgeViews_keeps n u s).2.2.2.2.2.2.2.2.2.2.2.2.2

theorem purge_keeps (n : Nat) (s : State) :
    (purge n s).pending = s.pending ∧ (purge n s).inReset = s.inReset ∧ (purge n s).scr = s.scr ∧ (purge n s).sct = s.sct ∧ (purge n s).pins = s.pins ∧ (purge n s).degrees = s.degrees ∧ (purge n s).spm = s.spm ∧ (purge n s).org = s.org ∧ (purge n s).slots = s.slots ∧ (purge n s).reqQueue = s.reqQueue ∧ (purge n s).pen = s.pen ∧ (purge n s).lrp = s.lrp ∧ (purge n s).psr = s.psr := by
  unfold purge
  (repeat' split) <;> simp
@[simp] theorem purge_pending (n : Nat) (s : State) : (purge n s).pending = s.pending := (purge_keeps n s).1
@[simp] theorem purge_inReset (n : Nat) (s : State) : (purge n s).inReset = s.inReset := (purge_keeps n s).2.1
@[simp] theorem purge_scr (n : Nat) (s : State) : (purge n s).scr = s.scr := (purge_keeps n s).2.2.1
@[simp] theorem purge_sct (n : Nat) (s : State) : (purge n s).sct = s.sct := (purge_keeps n s).2.2.2.1
@[simp] theorem purge_pins (n : Nat) (s : State) : (purge n s).pins = s.pins := (purge_keeps n s).2.2.2.2.1
@[simp] theorem purge_degrees (n : Nat) (s : State) : (purge n s).degrees = s.degrees := (purge_keeps n s).2.2.2.2.2.1
@[simp] theorem purge_spm (n : Nat) (s : State) : (purge n s).spm = s.spm := (purge_keeps n s).2.2.2.2.2.2.1
@[simp] theorem purge_org (n : Nat) (s : State) : (purge n s).org = s.org := (purge_keeps n s).2.2.2.2.2.2.2.1
@[simp] theorem purge_slots (n : Nat) (s : State) : (purge n s).slots = s.slots := (purge_keeps n s).2.2.2.2.2.2.2.2.1
@[simp] theorem purge_reqQueue (n : Nat) (s : State) : (purge n s).reqQueue = s.reqQueue := (purge_keeps n s).2.2.2.2.2.2.2.2.2.1
@[simp] theorem purge_pen (n : Nat) (s : State) : (purge n s).pen = s.pen := (purge_keeps n s).2.2.2.2.2.2.2.2.2.2.1
@[simp] theorem purge_lrp (n : Nat) (s : State) : (purge n s).lrp = s.lrp := (purge_keeps n s).2.2.2.2.2.2.2.2.2.2.2.1
@[simp] theorem purge_psr (n : Nat) (s : State) : (purge n s).psr = s.psr := (purge_keeps n s).2.2.2.2.2.2.2.2.2.2.2.2

theorem purgeUid_keeps (u : Uid) (s : State) :
    (purgeUid u s).pending = s.pending ∧ (purgeUid u s).inReset = s.inReset ∧ (purgeUid u s).scr = s.scr ∧ (purgeUid u s).sct = s.sct ∧ (purgeUid u s).pins = s.pins ∧ (purgeUid u s).degrees = s.degrees ∧ (purgeUid u s).spm = s.spm ∧ (purgeUid u s).org = s.org ∧ (purgeUid u s).slots = s.slots ∧ (purgeUid u s).reqQueue = s.reqQueue ∧ (purgeUid u s).pen = s.pen ∧ (purgeUid u s).lrp = s.lrp ∧ (purgeUid u s).psr = s.psr := by
  unfold purgeUid
  (repeat' split) <;> simp
@[simp] theorem purgeUid_pending (u : Uid) (s : State) : (purgeUid u s).pending = s.pending := (purgeUid_keeps u s).1
@[simp] theorem purgeUid_inReset (u : Uid) (s : State) : (purgeUid u s).inReset = s.inReset := (purgeUid_keeps u s).2.1
@[simp] theorem purgeUid_scr (u : Uid) (s : State) : (purgeUid u s).scr = s.scr := (purgeUid_keeps u s).2.2.1
@[simp] theorem purgeUid_sct (u : Uid) (s : State) : (purgeUid u s).sct = s.sct := (purgeUid_keeps u s).2.2.2.1
@[simp] theorem purgeUid_pins (u : Uid) (s : State) : (purgeUid u s).pins = s.pins := (purgeUid_keeps u s).2.2.2.2.1
@[simp] theorem purgeUid_degrees (u : Uid) (s : State) : (purgeUid u s).degrees = s.degrees := (purgeUid_keeps u s).2.2.2.2.2.1
@[simp] theorem purgeUid_spm (u : Uid) (s : State) : (purgeUid u s).spm = s.spm := (purgeUid_keeps u s).2.2.2.2.2.2.1
@[simp] theorem purgeUid_org (u : Uid) (s : State) : (purgeUid u s).org = s.org := (purgeUid_keeps u s).2.2.2.2.2.2.2.1
@[simp] theorem purgeUid_slots (u : Uid) (s : State) : (purgeUid u s).slots = s.slots := (purgeUid_keeps u s).2.2.2.2.2.2.2.2.1
@[simp] theorem purgeUid_reqQueue (u : Uid) (s : State) : (purgeUid u s).reqQueue = s.reqQueue := (purgeUid_keeps u s).2.2.2.2.2.2.2.2.2.1
@[simp] theorem purgeUid_pen (u : Uid) (s : State) : (purgeUid u s).pen = s.pen := (purgeUid_keeps u s).2.2.2.2.2.2.2.2.2.2.1
@[simp] theorem purgeUid_lrp (u : Uid) (s : State) : (purgeUid u s).lrp = s.lrp := (purgeUid_keeps u s).2.2.2.2.2.2.2.2.2.2.2.1
@[simp] theorem purgeUid_psr (u : Uid) (s : State) : (purgeUid u s).psr = s.psr := (purgeUid_keeps u s).2.2.2.2.2.2.2.2.2.2.2.2

theorem install_keeps (n : Nat) (f : Frame) (s : State) :
    (install n f s).pending = s.pending ∧ (install n f s).inReset = s.inReset ∧ (install n f s).scr = s.scr ∧ (install n f s).sct = s.sct ∧ (install n f s).pins = s.pins ∧ (install n f s).degrees = s.degrees ∧ (install n f s).spm = s.spm ∧ (install n f s).org = s.org ∧ (install n f s).tdb = s.tdb ∧ (install n f s).slots = s.slots ∧ (install n f s).reqQueue = s.reqQueue ∧ (install n f s).pen = s.pen ∧ (install n f s).lrp = s.lrp ∧ (install n f s).psr = s.psr := by
  unfold install
  (repeat' split) <;> simp
@[simp] theorem install_pending (n : Nat) (f : Frame) (s : State) : (install n f s).pending = s.pending := (install_keeps n f s).1
@[simp] theorem install_inReset (n : Nat) (f : Frame) (s : State) : (install n f s).inReset = s.inReset := (install_keeps n f s).2.1
@[simp] theorem install_scr (n : Nat) (f : Frame) (s : State) : (install n f s).scr = s.scr := (install_keeps n f s).2.2.1
@[simp] theorem install_sct (n : Nat) (f : Frame) (s : State) : (install n f s).sct = s.sct := (install_keeps n f s).2.2.2.1
@[simp] theorem install_pins (n : Nat) (f : Frame) (s : State) : (install n f s).pins = s.pins := (install_keeps n f s).2.2.2.2.1
@[simp] theorem install_degrees (n : Nat) (f : Frame) (s : State) : (install n f s).degrees = s.degrees := (install_keeps n f s).2.2.2.2.2.1
@[simp] theorem install_spm (n : Nat) (f : Frame) (s : State) : (install n f s).spm = s.spm := (install_keeps n f s).2.2.2.2.2.2.1
@[simp] theorem install_org (n : Nat) (f : Frame) (s : State) : (install n f s).org = s.org := (install_keeps n f s).2.2.2.2.2.2.2.1
@[simp] theorem install_tdb (n : Nat) (f : Frame) (s : State) : (install n f s).tdb = s.tdb := (install_keeps n f s).2.2.2.2.2.2.2.2.1
@[simp] theorem install_slots (n : Nat) (f : Frame) (s : State) : (install n f s).slots = s.slots := (install_keeps n f s).2.2.2.2.2.2.2.2.2.1
@[simp] theorem install_reqQueue (n : Nat) (f : Frame) (s : State) : (install n f s).reqQueue = s.reqQueue := (install_keeps n f s).2.2.2.2.2.2.2.2.2.2.1
@[simp] theorem install_pen (n : Nat) (f : Frame) (s : State) : (install n f s).pen = s.pen := (install_keeps n f s).2.2.2.2.2.2.2.2.2.2.2.1
@[simp] theorem install_lrp (n : Nat) (f : Frame) (s : State) : (install n f s).lrp = s.lrp := (install_keeps n f s).2.2.2.2.2.2.2.2.2.2.2.2.1
@[simp] theorem install_psr (n : Nat) (f : Frame) (s : State) : (install n f s).psr = s.psr := (install_keeps n f s).2.2.2.2.2.2.2.2.2.2.2.2.2

theorem accept_keeps (n : Nat) (f : Frame) (s : State) :
    ((accept n f s).2).pending = s.pending ∧ ((accept n f s).2).inReset = s.inReset ∧ ((accept n f s).2).scr = s.scr ∧ ((accept n f s).2).sct = s.sct ∧ ((accept n f s).2).pins = s.pins ∧ ((accept n f s).2).degrees = s.degrees ∧ ((accept n f s).2).spm = s.spm ∧ ((accept n f s).2).org = s.org ∧ ((accept n f s).2).slots = s.slots ∧ ((accept n f s).2).reqQueue = s.reqQueue ∧ ((accept n f s).2).pen = s.pen ∧ ((accept n f s).2).lrp = s.lrp ∧ ((accept n f s).2).psr = s.psr := by
  unfold accept
  (repeat' split) <;> simp
@[simp] theorem accept_pending (n : Nat) (f : Frame) (s : State) : ((accept n f s).2).pending = s.pending := (accept_keeps n f s).1
@[simp] theorem accept_inReset (n : Nat) (f : Frame) (s : State) : ((accept n f s).2).inReset = s.inReset := (accept_keeps n f s).2.1
@[simp] theorem accept_scr (n : Nat) (f : Frame) (s : State) : ((accept n f s).2).scr = s.scr := (accept_keeps n f s).2.2.1
@[simp] theorem accept_sct (n : Nat) (f : Frame) (s : State) : ((accept n f s).2).sct = s.sct := (accept_keeps n f s).2.2.2.1
@[simp] theorem accept_pins (n : Nat) (f : Frame) (s : State) : ((accept n f s).2).pins = s.pins := (accept_keeps n f s).2.2.2.2.1
@[simp] theorem accept_degrees (n : Nat) (f : Frame) (s : State) : ((accept n f s).2).degrees = s.degrees := (accept_keeps n f s).2.2.2.2.2.1
@[simp] theorem accept_spm (n : Nat) (f : Frame) (s : State) : ((accept n f s).2).spm = s.spm := (accept_keeps n f s).2.2.2.2.2.2.1
@[simp] theorem accept_org (n : Nat) (f : Frame) (s : State) : ((accept n f s).2).org = s.org := (accept_keeps n f s).2.2.2.2.2.2.2.1
@[simp] theorem accept_slots (n : Nat) (f : Frame) (s : State) : ((accept n f s).2).slots = s.slots := (accept_keeps n f s).2.2.2.2.2.2.2.2.1
@[simp] theorem accept_reqQueue (n : Nat) (f : Frame) (s : State) : ((accept n f s).2).reqQueue = s.reqQueue := (accept_keeps n f s).2.2.2.2.2.2.2.2.2.1
@[simp] theorem accept_pen (n : Nat) (f : Frame) (s : State) : ((accept n f s).2).pen = s.pen := (accept_keeps n f s).2.2.2.2.2.2.2.2.2.2.1
@[simp] theorem accept_lrp (n : Nat) (f : Frame) (s : State) : ((accept n f s).2).lrp = s.lrp := (accept_keeps n f s).2.2.2.2.2.2.2.2.2.2.2.1
@[simp] theorem accept_psr (n : Nat) (f : Frame) (s : State) : ((accept n f s).2).psr = s.psr := (accept_keeps n f s).2.2.2.2.2.2.2.2.2.2.2.2

theorem examineMissed_keeps (r : Report) (s : State) :
    (examineMissed r s).pending = s.pending ∧ (examineMissed r s).inReset = s.inReset ∧ (examineMissed r s).scr = s.scr ∧ (examineMissed r s).pins = s.pins ∧ (examineMissed r s).dir = s.dir ∧ (examineMissed r s).degrees = s.degrees ∧ (examineMissed r s).spm = s.spm ∧ (examineMissed r s).slots = s.slots ∧ (examineMissed r s).reqQueue = s.reqQueue ∧ (examineMissed r s).pen = s.pen ∧ (examineMissed r s).lrp = s.lrp ∧ (examineMissed r s).psr = s.psr := by
  unfold examineMissed
  (repeat' split) <;> simp
@[simp] theorem examineMissed_pending (r : Report) (s : State) : (examineMissed r s).pending = s.pending := (examineMissed_keeps r s).1
@[simp] theorem examineMissed_inReset (r : Report) (s : State) : (examineMissed r s).inReset = s.inReset := (examineMissed_keeps r s).2.1
@[simp] theorem examineMissed_scr (r : Report) (s : State) : (examineMissed r s).scr = s.scr := (examineMissed_keeps r s).2.2.1
@[simp] theorem examineMissed_pins (r : Report) (s : State) : (examineMissed r s).pins = s.pins := (examineMissed_keeps r s).2.2.2.1
@[simp] theorem examineMissed_dir (r : Report) (s : State) : (examineMissed r s).dir = s.dir := (examineMissed_keeps r s).2.2.2.2.1
@[simp] theorem examineMissed_degrees (r : Report) (s : State) : (examineMissed r s).degrees = s.degrees := (examineMissed_keeps r s).2.2.2.2.2.1
@[simp] theorem examineMissed_spm (r : Report) (s : State) : (examineMissed r s).spm = s.spm := (examineMissed_keeps r s).2.2.2.2.2.2.1
@[simp] theorem examineMissed_slots (r : Report) (s : State) : (examineMissed r s).slots = s.slots := (examineMissed_keeps r s).2.2.2.2.2.2.2.1
@[simp] theorem examineMissed_reqQueue (r : Report) (s : State) : (examineMissed r s).reqQueue = s.reqQueue := (examineMissed_keeps r s).2.2.2.2.2.2.2.2.1
@[simp] theorem examineMissed_pen (r : Report) (s : State) : (examineMissed r s).pen = s.pen := (examineMissed_keeps r s).2.2.2.2.2.2.2.2.2.1
@[simp] theorem examineMissed_lrp (r : Report) (s : State) : (examineMissed r s).lrp = s.lrp := (examineMissed_keeps r s).2.2.2.2.2.2.2.2.2.2.1
@[simp] theorem examineMissed_psr (r : Report) (s : State) : (examineMissed r s).psr = s.psr := (examineMissed_keeps r s).2.2.2.2.2.2.2.2.2.2.2

theorem storeReport_keeps (n : Nat) (u : Uid) (r : Report) (s : State) :
    (storeReport n u r s).pending = s.pending ∧ (storeReport n u r s).inReset = s.inReset ∧ (storeReport n u r s).scr = s.scr ∧ (storeReport n u r s).pins = s.pins ∧ (storeReport n u r s).dir = s.dir ∧ (storeReport n u r s).degrees = s.degrees ∧ (storeReport n u r s).spm = s.spm ∧ (storeReport n u r s).slots = s.slots ∧ (storeReport n u r s).reqQueue = s.reqQueue ∧ (storeReport n u r s).pen = s.pen ∧ (storeReport n u r s).lrp = s.lrp ∧ (storeReport n u r s).psr = s.psr := by
  unfold storeReport
  (repeat' split) <;> simp
@[simp] theorem storeReport_pending (n : Nat) (u : Uid) (r : Report) (s : State) : (storeReport n u r s).pending = s.pending := (storeReport_keeps n u r s).1
@[simp] theorem storeReport_inReset (n : Nat) (u : Uid) (r : Report) (s : State) : (storeReport n u r s).inReset = s.inReset := (storeReport_keeps n u r s).2.1
@[simp] theorem storeReport_scr (n : Nat) (u : Uid) (r : Report) (s : State) : (storeReport n u r s).scr = s.scr := (storeReport_keeps n u r s).2.2.1
@[simp] theorem storeReport_pins (n : Nat) (u : Uid) (r : Report) (s : State) : (storeReport n u r s).pins = s.pins := (storeReport_keeps n u r s).2.2.2.1
@[simp] theorem storeReport_dir (n : Nat) (u : Uid) (r : Report) (s : State) : (storeReport n u r s).dir = s.dir := (storeReport_keeps n u r s).2.2.2.2.1
@[simp] theorem storeReport_degrees (n : Nat) (u : Uid) (r : Report) (s : State) : (storeReport n u r s).degrees = s.degrees := (storeReport_keeps n u r s).2.2.2.2.2.1
@[simp] theorem storeReport_spm (n : Nat) (u : Uid) (r : Report) (s : State) : (storeReport n u r s).spm = s.spm := (storeReport_keeps n u r s).2.2.2.2.2.2.1
@[simp] theorem storeReport_slots (n : Nat) (u : Uid) (r : Report) (s : State) : (storeReport n u r s).slots = s.slots := (storeReport_keeps n u r s).2.2.2.2.2.2.2.1
@[simp] theorem storeReport_reqQueue (n : Nat) (u : Uid) (r : Report) (s : State) : (storeReport n u r s).reqQueue = s.reqQueue := (storeReport_keeps n u r s).2.2.2.2.2.2.2.2.1
@[simp] theorem storeReport_pen (n : Nat) (u : Uid) (r : Report) (s : State) : (storeReport n u r s).pen = s.pen := (storeReport_keeps n u r s).2.2.2.2.2.2.2.2.2.1
@[simp] theorem storeReport_lrp (n : Nat) (u : Uid) (r : Report) (s : State) : (storeReport n u r s).lrp = s.lrp := (storeReport_keeps n u r s).2.2.2.2.2.2.2.2.2.2.1
@[simp] theorem storeReport_psr (n : Nat) (u : Uid) (r : Report) (s : State) : (storeReport n u r s).psr = s.psr := (storeReport_keeps n u r s).2.2.2.2.2.2.2.2.2.2.2

theorem dispatch_keeps (n : Nat) (h : Acceptance) (f : Frame) (s : State) :
    (dispatch n h f s).pending = s.pending ∧ (dispatch n h f s).inReset = s.inReset ∧ (dispatch n h f s).scr = s.scr ∧ (dispatch n h f s).pins = s.pins ∧ (dispatch n h f s).dir = s.dir ∧ (dispatch n h f s).degrees = s.degrees ∧ (dispatch n h f s).spm = s.spm ∧ (dispatch n h f s).reqQueue = s.reqQueue ∧ (dispatch n h f s).pen = s.pen ∧ (dispatch n h f s).lrp = s.lrp ∧ (dispatch n h f s).psr = s.psr := by
  unfold dispatch
  (repeat' split) <;> simp
@[simp] theorem dispatch_pending (n : Nat) (h : Acceptance) (f : Frame) (s : State) : (dispatch n h f s).pending = s.pending := (dispatch_keeps n h f s).1
@[simp] theorem dispatch_inReset (n : Nat) (h : Acceptance) (f : Frame) (s : State) : (dispatch n h f s).inReset = s.inReset := (dispatch_keeps n h f s).2.1
@[simp] theorem dispatch_scr (n : Nat) (h : Acceptance) (f : Frame) (s : State) : (dispatch n h f s).scr = s.scr := (dispatch_keeps n h f s).2.2.1
@[simp] theorem dispatch_pins (n : Nat) (h : Acceptance) (f : Frame) (s : State) : (dispatch n h f s).pins = s.pins := (dispatch_keeps n h f s).2.2.2.1
@[simp] theorem dispatch_dir (n : Nat) (h : Acceptance) (f : Frame) (s : State) : (dispatch n h f s).dir = s.dir := (dispatch_keeps n h f s).2.2.2.2.1
@[simp] theorem dispatch_degrees (n : Nat) (h : Acceptance) (f : Frame) (s : State) : (dispatch n h f s).degrees = s.degrees := (dispatch_keeps n h f s).2.2.2.2.2.1
@[simp] theorem dispatch_spm (n : Nat) (h : Acceptance) (f : Frame) (s : State) : (dispatch n h f s).spm = s.spm := (dispatch_keeps n h f s).2.2.2.2.2.2.1
@[simp] theorem dispatch_reqQueue (n : Nat) (h : Acceptance) (f : Frame) (s : State) : (dispatch n h f s).reqQueue = s.reqQueue := (dispatch_keeps n h f s).2.2.2.2.2.2.2.1
@[simp] theorem dispatch_pen (n : Nat) (h : Acceptance) (f : Frame) (s : State) : (dispatch n h f s).pen = s.pen := (dispatch_keeps n h f s).2.2.2.2.2.2.2.2.1
@[simp] theorem dispatch_lrp (n : Nat) (h : Acceptance) (f : Frame) (s : State) : (dispatch n h f s).lrp = s.lrp := (dispatch_keeps n h f s).2.2.2.2.2.2.2.2.2.1
@[simp] theorem dispatch_psr (n : Nat) (h : Acceptance) (f : Frame) (s : State) : (dispatch n h f s).psr = s.psr := (dispatch_keeps n h f s).2.2.2.2.2.2.2.2.2.2

theorem acceptFrame_keeps (n : Nat) (f : Frame) (s : State) :
    (acceptFrame n f s).pending = s.pending ∧ (acceptFrame n f s).inReset = s.inReset ∧ (acceptFrame n f s).scr = s.scr ∧ (acceptFrame n f s).pins = s.pins ∧ (acceptFrame n f s).degrees = s.degrees ∧ (acceptFrame n f s).spm = s.spm ∧ (acceptFrame n f s).reqQueue = s.reqQueue ∧ (acceptFrame n f s).pen = s.pen ∧ (acceptFrame n f s).lrp = s.lrp ∧ (acceptFrame n f s).psr = s.psr := by
  unfold acceptFrame
  rcases h : accept n f s with ⟨how, t⟩
  have ht : t = (accept n f s).2 := by rw [h]
  cases how <;> simp [ht]
@[simp] theorem acceptFrame_pending (n : Nat) (f : Frame) (s : State) : (acceptFrame n f s).pending = s.pending := (acceptFrame_keeps n f s).1
@[simp] theorem acceptFrame_inReset (n : Nat) (f : Frame) (s : State) : (acceptFrame n f s).inReset = s.inReset := (acceptFrame_keeps n f s).2.1
@[simp] theorem acceptFrame_scr (n : Nat) (f : Frame) (s : State) : (acceptFrame n f s).scr = s.scr := (acceptFrame_keeps n f s).2.2.1
@[simp] theorem acceptFrame_pins (n : Nat) (f : Frame) (s : State) : (acceptFrame n f s).pins = s.pins := (acceptFrame_keeps n f s).2.2.2.1
@[simp] theorem acceptFrame_degrees (n : Nat) (f : Frame) (s : State) : (acceptFrame n f s).degrees = s.degrees := (acceptFrame_keeps n f s).2.2.2.2.1
@[simp] theorem acceptFrame_spm (n : Nat) (f : Frame) (s : State) : (acceptFrame n f s).spm = s.spm := (acceptFrame_keeps n f s).2.2.2.2.2.1
@[simp] theorem acceptFrame_reqQueue (n : Nat) (f : Frame) (s : State) : (acceptFrame n f s).reqQueue = s.reqQueue := (acceptFrame_keeps n f s).2.2.2.2.2.2.1
@[simp] theorem acceptFrame_pen (n : Nat) (f : Frame) (s : State) : (acceptFrame n f s).pen = s.pen := (acceptFrame_keeps n f s).2.2.2.2.2.2.2.1
@[simp] theorem acceptFrame_lrp (n : Nat) (f : Frame) (s : State) : (acceptFrame n f s).lrp = s.lrp := (acceptFrame_keeps n f s).2.2.2.2.2.2.2.2.1
@[simp] theorem acceptFrame_psr (n : Nat) (f : Frame) (s : State) : (acceptFrame n f s).psr = s.psr := (acceptFrame_keeps n f s).2.2.2.2.2.2.2.2.2

theorem defend_keeps (n : Nat) (s : State) :
    (defend n s).pending = s.pending ∧ (defend n s).inReset = s.inReset ∧ (defend n s).scr = s.scr ∧ (defend n s).pins = s.pins ∧ (defend n s).dir = s.dir ∧ (defend n s).degrees = s.degrees ∧ (defend n s).spm = s.spm ∧ (defend n s).slots = s.slots ∧ (defend n s).reqQueue = s.reqQueue ∧ (defend n s).pen = s.pen ∧ (defend n s).lrp = s.lrp ∧ (defend n s).psr = s.psr := by
  unfold defend
  (repeat' split) <;> simp
@[simp] theorem defend_pending (n : Nat) (s : State) : (defend n s).pending = s.pending := (defend_keeps n s).1
@[simp] theorem defend_inReset (n : Nat) (s : State) : (defend n s).inReset = s.inReset := (defend_keeps n s).2.1
@[simp] theorem defend_scr (n : Nat) (s : State) : (defend n s).scr = s.scr := (defend_keeps n s).2.2.1
@[simp] theorem defend_pins (n : Nat) (s : State) : (defend n s).pins = s.pins := (defend_keeps n s).2.2.2.1
@[simp] theorem defend_dir (n : Nat) (s : State) : (defend n s).dir = s.dir := (defend_keeps n s).2.2.2.2.1
@[simp] theorem defend_degrees (n : Nat) (s : State) : (defend n s).degrees = s.degrees := (defend_keeps n s).2.2.2.2.2.1
@[simp] theorem defend_spm (n : Nat) (s : State) : (defend n s).spm = s.spm := (defend_keeps n s).2.2.2.2.2.2.1
@[simp] theorem defend_slots (n : Nat) (s : State) : (defend n s).slots = s.slots := (defend_keeps n s).2.2.2.2.2.2.2.1
@[simp] theorem defend_reqQueue (n : Nat) (s : State) : (defend n s).reqQueue = s.reqQueue := (defend_keeps n s).2.2.2.2.2.2.2.2.1
@[simp] theorem defend_pen (n : Nat) (s : State) : (defend n s).pen = s.pen := (defend_keeps n s).2.2.2.2.2.2.2.2.2.1
@[simp] theorem defend_lrp (n : Nat) (s : State) : (defend n s).lrp = s.lrp := (defend_keeps n s).2.2.2.2.2.2.2.2.2.2.1
@[simp] theorem defend_psr (n : Nat) (s : State) : (defend n s).psr = s.psr := (defend_keeps n s).2.2.2.2.2.2.2.2.2.2.2

theorem renumber_keeps (st : BitVec 3) (n : Nat) (s : State) :
    (renumber st n s).pending = s.pending ∧ (renumber st n s).inReset = s.inReset ∧ (renumber st n s).scr = s.scr ∧ (renumber st n s).pins = s.pins ∧ (renumber st n s).degrees = s.degrees ∧ (renumber st n s).spm = s.spm ∧ (renumber st n s).reqQueue = s.reqQueue ∧ (renumber st n s).pen = s.pen ∧ (renumber st n s).lrp = s.lrp ∧ (renumber st n s).psr = s.psr := by
  unfold renumber
  (repeat' split) <;> simp
@[simp] theorem renumber_pending (st : BitVec 3) (n : Nat) (s : State) : (renumber st n s).pending = s.pending := (renumber_keeps st n s).1
@[simp] theorem renumber_inReset (st : BitVec 3) (n : Nat) (s : State) : (renumber st n s).inReset = s.inReset := (renumber_keeps st n s).2.1
@[simp] theorem renumber_scr (st : BitVec 3) (n : Nat) (s : State) : (renumber st n s).scr = s.scr := (renumber_keeps st n s).2.2.1
@[simp] theorem renumber_pins (st : BitVec 3) (n : Nat) (s : State) : (renumber st n s).pins = s.pins := (renumber_keeps st n s).2.2.2.1
@[simp] theorem renumber_degrees (st : BitVec 3) (n : Nat) (s : State) : (renumber st n s).degrees = s.degrees := (renumber_keeps st n s).2.2.2.2.1
@[simp] theorem renumber_spm (st : BitVec 3) (n : Nat) (s : State) : (renumber st n s).spm = s.spm := (renumber_keeps st n s).2.2.2.2.2.1
@[simp] theorem renumber_reqQueue (st : BitVec 3) (n : Nat) (s : State) : (renumber st n s).reqQueue = s.reqQueue := (renumber_keeps st n s).2.2.2.2.2.2.1
@[simp] theorem renumber_pen (st : BitVec 3) (n : Nat) (s : State) : (renumber st n s).pen = s.pen := (renumber_keeps st n s).2.2.2.2.2.2.2.1
@[simp] theorem renumber_lrp (st : BitVec 3) (n : Nat) (s : State) : (renumber st n s).lrp = s.lrp := (renumber_keeps st n s).2.2.2.2.2.2.2.2.1
@[simp] theorem renumber_psr (st : BitVec 3) (n : Nat) (s : State) : (renumber st n s).psr = s.psr := (renumber_keeps st n s).2.2.2.2.2.2.2.2.2

theorem ownNumberRule_keeps (st : BitVec 3) (n : Nat) (f : Frame) (s : State) :
    (ownNumberRule st n f s).pending = s.pending ∧ (ownNumberRule st n f s).inReset = s.inReset ∧ (ownNumberRule st n f s).scr = s.scr ∧ (ownNumberRule st n f s).pins = s.pins ∧ (ownNumberRule st n f s).degrees = s.degrees ∧ (ownNumberRule st n f s).spm = s.spm ∧ (ownNumberRule st n f s).reqQueue = s.reqQueue ∧ (ownNumberRule st n f s).pen = s.pen ∧ (ownNumberRule st n f s).lrp = s.lrp ∧ (ownNumberRule st n f s).psr = s.psr := by
  unfold ownNumberRule
  (repeat' split) <;> simp
@[simp] theorem ownNumberRule_pending (st : BitVec 3) (n : Nat) (f : Frame) (s : State) : (ownNumberRule st n f s).pending = s.pending := (ownNumberRule_keeps st n f s).1
@[simp] theorem ownNumberRule_inReset (st : BitVec 3) (n : Nat) (f : Frame) (s : State) : (ownNumberRule st n f s).inReset = s.inReset := (ownNumberRule_keeps st n f s).2.1
@[simp] theorem ownNumberRule_scr (st : BitVec 3) (n : Nat) (f : Frame) (s : State) : (ownNumberRule st n f s).scr = s.scr := (ownNumberRule_keeps st n f s).2.2.1
@[simp] theorem ownNumberRule_pins (st : BitVec 3) (n : Nat) (f : Frame) (s : State) : (ownNumberRule st n f s).pins = s.pins := (ownNumberRule_keeps st n f s).2.2.2.1
@[simp] theorem ownNumberRule_degrees (st : BitVec 3) (n : Nat) (f : Frame) (s : State) : (ownNumberRule st n f s).degrees = s.degrees := (ownNumberRule_keeps st n f s).2.2.2.2.1
@[simp] theorem ownNumberRule_spm (st : BitVec 3) (n : Nat) (f : Frame) (s : State) : (ownNumberRule st n f s).spm = s.spm := (ownNumberRule_keeps st n f s).2.2.2.2.2.1
@[simp] theorem ownNumberRule_reqQueue (st : BitVec 3) (n : Nat) (f : Frame) (s : State) : (ownNumberRule st n f s).reqQueue = s.reqQueue := (ownNumberRule_keeps st n f s).2.2.2.2.2.2.1
@[simp] theorem ownNumberRule_pen (st : BitVec 3) (n : Nat) (f : Frame) (s : State) : (ownNumberRule st n f s).pen = s.pen := (ownNumberRule_keeps st n f s).2.2.2.2.2.2.2.1
@[simp] theorem ownNumberRule_lrp (st : BitVec 3) (n : Nat) (f : Frame) (s : State) : (ownNumberRule st n f s).lrp = s.lrp := (ownNumberRule_keeps st n f s).2.2.2.2.2.2.2.2.1
@[simp] theorem ownNumberRule_psr (st : BitVec 3) (n : Nat) (f : Frame) (s : State) : (ownNumberRule st n f s).psr = s.psr := (ownNumberRule_keeps st n f s).2.2.2.2.2.2.2.2.2

theorem takeFrame_keeps (st : BitVec 3) (f : Frame) (s : State) :
    (takeFrame st f s).pending = s.pending ∧ (takeFrame st f s).inReset = s.inReset ∧ (takeFrame st f s).scr = s.scr ∧ (takeFrame st f s).pins = s.pins ∧ (takeFrame st f s).degrees = s.degrees ∧ (takeFrame st f s).spm = s.spm ∧ (takeFrame st f s).reqQueue = s.reqQueue ∧ (takeFrame st f s).pen = s.pen ∧ (takeFrame st f s).lrp = s.lrp ∧ (takeFrame st f s).psr = s.psr := by
  unfold takeFrame
  try dsimp only
  repeat' apply And.intro
  all_goals (repeat' split) <;> simp
@[simp] theorem takeFrame_pending (st : BitVec 3) (f : Frame) (s : State) : (takeFrame st f s).pending = s.pending := (takeFrame_keeps st f s).1
@[simp] theorem takeFrame_inReset (st : BitVec 3) (f : Frame) (s : State) : (takeFrame st f s).inReset = s.inReset := (takeFrame_keeps st f s).2.1
@[simp] theorem takeFrame_scr (st : BitVec 3) (f : Frame) (s : State) : (takeFrame st f s).scr = s.scr := (takeFrame_keeps st f s).2.2.1
@[simp] theorem takeFrame_pins (st : BitVec 3) (f : Frame) (s : State) : (takeFrame st f s).pins = s.pins := (takeFrame_keeps st f s).2.2.2.1
@[simp] theorem takeFrame_degrees (st : BitVec 3) (f : Frame) (s : State) : (takeFrame st f s).degrees = s.degrees := (takeFrame_keeps st f s).2.2.2.2.1
@[simp] theorem takeFrame_spm (st : BitVec 3) (f : Frame) (s : State) : (takeFrame st f s).spm = s.spm := (takeFrame_keeps st f s).2.2.2.2.2.1
@[simp] theorem takeFrame_reqQueue (st : BitVec 3) (f : Frame) (s : State) : (takeFrame st f s).reqQueue = s.reqQueue := (takeFrame_keeps st f s).2.2.2.2.2.2.1
@[simp] theorem takeFrame_pen (st : BitVec 3) (f : Frame) (s : State) : (takeFrame st f s).pen = s.pen := (takeFrame_keeps st f s).2.2.2.2.2.2.2.1
@[simp] theorem takeFrame_lrp (st : BitVec 3) (f : Frame) (s : State) : (takeFrame st f s).lrp = s.lrp := (takeFrame_keeps st f s).2.2.2.2.2.2.2.2.1
@[simp] theorem takeFrame_psr (st : BitVec 3) (f : Frame) (s : State) : (takeFrame st f s).psr = s.psr := (takeFrame_keeps st f s).2.2.2.2.2.2.2.2.2

theorem takeOldest_keeps (st : BitVec 3) (s : State) :
    (takeOldest st s).pending = s.pending ∧ (takeOldest st s).inReset = s.inReset ∧ (takeOldest st s).pins = s.pins ∧ (takeOldest st s).degrees = s.degrees ∧ (takeOldest st s).spm = s.spm ∧ (takeOldest st s).reqQueue = s.reqQueue ∧ (takeOldest st s).pen = s.pen ∧ (takeOldest st s).lrp = s.lrp ∧ (takeOldest st s).psr = s.psr := by
  unfold takeOldest
  (repeat' split) <;> simp
@[simp] theorem takeOldest_pending (st : BitVec 3) (s : State) : (takeOldest st s).pending = s.pending := (takeOldest_keeps st s).1
@[simp] theorem takeOldest_inReset (st : BitVec 3) (s : State) : (takeOldest st s).inReset = s.inReset := (takeOldest_keeps st s).2.1
@[simp] theorem takeOldest_pins (st : BitVec 3) (s : State) : (takeOldest st s).pins = s.pins := (takeOldest_keeps st s).2.2.1
@[simp] theorem takeOldest_degrees (st : BitVec 3) (s : State) : (takeOldest st s).degrees = s.degrees := (takeOldest_keeps st s).2.2.2.1
@[simp] theorem takeOldest_spm (st : BitVec 3) (s : State) : (takeOldest st s).spm = s.spm := (takeOldest_keeps st s).2.2.2.2.1
@[simp] theorem takeOldest_reqQueue (st : BitVec 3) (s : State) : (takeOldest st s).reqQueue = s.reqQueue := (takeOldest_keeps st s).2.2.2.2.2.1
@[simp] theorem takeOldest_pen (st : BitVec 3) (s : State) : (takeOldest st s).pen = s.pen := (takeOldest_keeps st s).2.2.2.2.2.2.1
@[simp] theorem takeOldest_lrp (st : BitVec 3) (s : State) : (takeOldest st s).lrp = s.lrp := (takeOldest_keeps st s).2.2.2.2.2.2.2.1
@[simp] theorem takeOldest_psr (st : BitVec 3) (s : State) : (takeOldest st s).psr = s.psr := (takeOldest_keeps st s).2.2.2.2.2.2.2.2

theorem enterMember_keeps (n : Nat) (s : State) :
    (enterMember n s).pending = s.pending ∧ (enterMember n s).inReset = s.inReset ∧ (enterMember n s).scr = s.scr ∧ (enterMember n s).pins = s.pins ∧ (enterMember n s).degrees = s.degrees ∧ (enterMember n s).spm = s.spm ∧ (enterMember n s).slots = s.slots ∧ (enterMember n s).reqQueue = s.reqQueue ∧ (enterMember n s).pen = s.pen ∧ (enterMember n s).lrp = s.lrp ∧ (enterMember n s).psr = s.psr := by
  unfold enterMember
  (repeat' split) <;> simp
@[simp] theorem enterMember_pending (n : Nat) (s : State) : (enterMember n s).pending = s.pending := (enterMember_keeps n s).1
@[simp] theorem enterMember_inReset (n : Nat) (s : State) : (enterMember n s).inReset = s.inReset := (enterMember_keeps n s).2.1
@[simp] theorem enterMember_scr (n : Nat) (s : State) : (enterMember n s).scr = s.scr := (enterMember_keeps n s).2.2.1
@[simp] theorem enterMember_pins (n : Nat) (s : State) : (enterMember n s).pins = s.pins := (enterMember_keeps n s).2.2.2.1
@[simp] theorem enterMember_degrees (n : Nat) (s : State) : (enterMember n s).degrees = s.degrees := (enterMember_keeps n s).2.2.2.2.1
@[simp] theorem enterMember_spm (n : Nat) (s : State) : (enterMember n s).spm = s.spm := (enterMember_keeps n s).2.2.2.2.2.1
@[simp] theorem enterMember_slots (n : Nat) (s : State) : (enterMember n s).slots = s.slots := (enterMember_keeps n s).2.2.2.2.2.2.1
@[simp] theorem enterMember_reqQueue (n : Nat) (s : State) : (enterMember n s).reqQueue = s.reqQueue := (enterMember_keeps n s).2.2.2.2.2.2.2.1
@[simp] theorem enterMember_pen (n : Nat) (s : State) : (enterMember n s).pen = s.pen := (enterMember_keeps n s).2.2.2.2.2.2.2.2.1
@[simp] theorem enterMember_lrp (n : Nat) (s : State) : (enterMember n s).lrp = s.lrp := (enterMember_keeps n s).2.2.2.2.2.2.2.2.2.1
@[simp] theorem enterMember_psr (n : Nat) (s : State) : (enterMember n s).psr = s.psr := (enterMember_keeps n s).2.2.2.2.2.2.2.2.2.2

theorem roundExpired_keeps (s : State) :
    (roundExpired s).pending = s.pending ∧ (roundExpired s).inReset = s.inReset ∧ (roundExpired s).scr = s.scr ∧ (roundExpired s).pins = s.pins ∧ (roundExpired s).degrees = s.degrees ∧ (roundExpired s).spm = s.spm ∧ (roundExpired s).slots = s.slots ∧ (roundExpired s).reqQueue = s.reqQueue ∧ (roundExpired s).pen = s.pen ∧ (roundExpired s).lrp = s.lrp ∧ (roundExpired s).psr = s.psr := by
  unfold roundExpired
  (repeat' split) <;> simp
@[simp] theorem roundExpired_pending (s : State) : (roundExpired s).pending = s.pending := (roundExpired_keeps s).1
@[simp] theorem roundExpired_inReset (s : State) : (roundExpired s).inReset = s.inReset := (roundExpired_keeps s).2.1
@[simp] theorem roundExpired_scr (s : State) : (roundExpired s).scr = s.scr := (roundExpired_keeps s).2.2.1
@[simp] theorem roundExpired_pins (s : State) : (roundExpired s).pins = s.pins := (roundExpired_keeps s).2.2.2.1
@[simp] theorem roundExpired_degrees (s : State) : (roundExpired s).degrees = s.degrees := (roundExpired_keeps s).2.2.2.2.1
@[simp] theorem roundExpired_spm (s : State) : (roundExpired s).spm = s.spm := (roundExpired_keeps s).2.2.2.2.2.1
@[simp] theorem roundExpired_slots (s : State) : (roundExpired s).slots = s.slots := (roundExpired_keeps s).2.2.2.2.2.2.1
@[simp] theorem roundExpired_reqQueue (s : State) : (roundExpired s).reqQueue = s.reqQueue := (roundExpired_keeps s).2.2.2.2.2.2.2.1
@[simp] theorem roundExpired_pen (s : State) : (roundExpired s).pen = s.pen := (roundExpired_keeps s).2.2.2.2.2.2.2.2.1
@[simp] theorem roundExpired_lrp (s : State) : (roundExpired s).lrp = s.lrp := (roundExpired_keeps s).2.2.2.2.2.2.2.2.2.1
@[simp] theorem roundExpired_psr (s : State) : (roundExpired s).psr = s.psr := (roundExpired_keeps s).2.2.2.2.2.2.2.2.2.2

theorem samplePins_keeps (m : Bool) (l : DegreeSet) (s : State) :
    (samplePins m l s).pending = s.pending ∧ (samplePins m l s).inReset = s.inReset ∧ (samplePins m l s).scr = s.scr ∧ (samplePins m l s).dir = s.dir ∧ (samplePins m l s).spm = s.spm ∧ (samplePins m l s).reqQueue = s.reqQueue ∧ (samplePins m l s).pen = s.pen ∧ (samplePins m l s).lrp = s.lrp ∧ (samplePins m l s).psr = s.psr := by
  unfold samplePins
  exact ⟨((foldl_keeps _ State.pending (fun t x => by unfold deliverLol; split <;> simp) _ _).trans (by split <;> simp)), ((foldl_keeps _ State.inReset (fun t x => by unfold deliverLol; split <;> simp) _ _).trans (by split <;> simp)), ((foldl_keeps _ State.scr (fun t x => by unfold deliverLol; split <;> simp) _ _).trans (by split <;> simp)), ((foldl_keeps _ State.dir (fun t x => by unfold deliverLol; split <;> simp) _ _).trans (by split <;> simp)), ((foldl_keeps _ State.spm (fun t x => by unfold deliverLol; split <;> simp) _ _).trans (by split <;> simp)), ((foldl_keeps _ State.reqQueue (fun t x => by unfold deliverLol; split <;> simp) _ _).trans (by split <;> simp)), ((foldl_keeps _ State.pen (fun t x => by unfold deliverLol; split <;> simp) _ _).trans (by split <;> simp)), ((foldl_keeps _ State.lrp (fun t x => by unfold deliverLol; split <;> simp) _ _).trans (by split <;> simp)), ((foldl_keeps _ State.psr (fun t x => by unfold deliverLol; split <;> simp) _ _).trans (by split <;> simp))⟩
@[simp] theorem samplePins_pending (m : Bool) (l : DegreeSet) (s : State) : (samplePins m l s).pending = s.pending := (samplePins_keeps m l s).1
@[simp] theorem samplePins_inReset (m : Bool) (l : DegreeSet) (s : State) : (samplePins m l s).inReset = s.inReset := (samplePins_keeps m l s).2.1
@[simp] theorem samplePins_scr (m : Bool) (l : DegreeSet) (s : State) : (samplePins m l s).scr = s.scr := (samplePins_keeps m l s).2.2.1
@[simp] theorem samplePins_dir (m : Bool) (l : DegreeSet) (s : State) : (samplePins m l s).dir = s.dir := (samplePins_keeps m l s).2.2.2.1
@[simp] theorem samplePins_spm (m : Bool) (l : DegreeSet) (s : State) : (samplePins m l s).spm = s.spm := (samplePins_keeps m l s).2.2.2.2.1
@[simp] theorem samplePins_reqQueue (m : Bool) (l : DegreeSet) (s : State) : (samplePins m l s).reqQueue = s.reqQueue := (samplePins_keeps m l s).2.2.2.2.2.1
@[simp] theorem samplePins_pen (m : Bool) (l : DegreeSet) (s : State) : (samplePins m l s).pen = s.pen := (samplePins_keeps m l s).2.2.2.2.2.2.1
@[simp] theorem samplePins_lrp (m : Bool) (l : DegreeSet) (s : State) : (samplePins m l s).lrp = s.lrp := (samplePins_keeps m l s).2.2.2.2.2.2.2.1
@[simp] theorem samplePins_psr (m : Bool) (l : DegreeSet) (s : State) : (samplePins m l s).psr = s.psr := (samplePins_keeps m l s).2.2.2.2.2.2.2.2

theorem applyLoad_keeps (s : State) :
    (applyLoad s).pending = s.pending ∧ (applyLoad s).inReset = s.inReset ∧ (applyLoad s).scr = s.scr ∧ (applyLoad s).pins = s.pins ∧ (applyLoad s).dir = s.dir ∧ (applyLoad s).slots = s.slots ∧ (applyLoad s).reqQueue = s.reqQueue ∧ (applyLoad s).pen = s.pen ∧ (applyLoad s).lrp = s.lrp ∧ (applyLoad s).psr = s.psr := by
  unfold applyLoad
  exact ⟨((foldl_keeps _ State.pending (fun t d => by simp) _ _).trans (foldl_keeps _ State.pending (fun t d => by simp) _ _)), ((foldl_keeps _ State.inReset (fun t d => by simp) _ _).trans (foldl_keeps _ State.inReset (fun t d => by simp) _ _)), ((foldl_keeps _ State.scr (fun t d => by simp) _ _).trans (foldl_keeps _ State.scr (fun t d => by simp) _ _)), ((foldl_keeps _ State.pins (fun t d => by simp) _ _).trans (foldl_keeps _ State.pins (fun t d => by simp) _ _)), ((foldl_keeps _ State.dir (fun t d => by simp) _ _).trans (foldl_keeps _ State.dir (fun t d => by simp) _ _)), ((foldl_keeps _ State.slots (fun t d => by simp) _ _).trans (foldl_keeps _ State.slots (fun t d => by simp) _ _)), ((foldl_keeps _ State.reqQueue (fun t d => by simp) _ _).trans (foldl_keeps _ State.reqQueue (fun t d => by simp) _ _)), ((foldl_keeps _ State.pen (fun t d => by simp) _ _).trans (foldl_keeps _ State.pen (fun t d => by simp) _ _)), ((foldl_keeps _ State.lrp (fun t d => by simp) _ _).trans (foldl_keeps _ State.lrp (fun t d => by simp) _ _)), ((foldl_keeps _ State.psr (fun t d => by simp) _ _).trans (foldl_keeps _ State.psr (fun t d => by simp) _ _))⟩
@[simp] theorem applyLoad_pending (s : State) : (applyLoad s).pending = s.pending := (applyLoad_keeps s).1
@[simp] theorem applyLoad_inReset (s : State) : (applyLoad s).inReset = s.inReset := (applyLoad_keeps s).2.1
@[simp] theorem applyLoad_scr (s : State) : (applyLoad s).scr = s.scr := (applyLoad_keeps s).2.2.1
@[simp] theorem applyLoad_pins (s : State) : (applyLoad s).pins = s.pins := (applyLoad_keeps s).2.2.2.1
@[simp] theorem applyLoad_dir (s : State) : (applyLoad s).dir = s.dir := (applyLoad_keeps s).2.2.2.2.1
@[simp] theorem applyLoad_slots (s : State) : (applyLoad s).slots = s.slots := (applyLoad_keeps s).2.2.2.2.2.1
@[simp] theorem applyLoad_reqQueue (s : State) : (applyLoad s).reqQueue = s.reqQueue := (applyLoad_keeps s).2.2.2.2.2.2.1
@[simp] theorem applyLoad_pen (s : State) : (applyLoad s).pen = s.pen := (applyLoad_keeps s).2.2.2.2.2.2.2.1
@[simp] theorem applyLoad_lrp (s : State) : (applyLoad s).lrp = s.lrp := (applyLoad_keeps s).2.2.2.2.2.2.2.2.1
@[simp] theorem applyLoad_psr (s : State) : (applyLoad s).psr = s.psr := (applyLoad_keeps s).2.2.2.2.2.2.2.2.2

theorem beginWords_keeps (s : State) :
    (beginWords s).pending = s.pending ∧ (beginWords s).inReset = s.inReset ∧ (beginWords s).scr = s.scr ∧ (beginWords s).sct = s.sct ∧ (beginWords s).pins = s.pins ∧ (beginWords s).dir = s.dir ∧ (beginWords s).spm = s.spm ∧ (beginWords s).org = s.org ∧ (beginWords s).tdb = s.tdb ∧ (beginWords s).slots = s.slots ∧ (beginWords s).reqQueue = s.reqQueue ∧ (beginWords s).pen = s.pen ∧ (beginWords s).lrp = s.lrp ∧ (beginWords s).ntf = s.ntf ∧ (beginWords s).psr = s.psr := by
  unfold beginWords
  exact ⟨foldl_keeps _ State.pending (fun t d => by simp) _ _, foldl_keeps _ State.inReset (fun t d => by simp) _ _, foldl_keeps _ State.scr (fun t d => by simp) _ _, foldl_keeps _ State.sct (fun t d => by simp) _ _, foldl_keeps _ State.pins (fun t d => by simp) _ _, foldl_keeps _ State.dir (fun t d => by simp) _ _, foldl_keeps _ State.spm (fun t d => by simp) _ _, foldl_keeps _ State.org (fun t d => by simp) _ _, foldl_keeps _ State.tdb (fun t d => by simp) _ _, foldl_keeps _ State.slots (fun t d => by simp) _ _, foldl_keeps _ State.reqQueue (fun t d => by simp) _ _, foldl_keeps _ State.pen (fun t d => by simp) _ _, foldl_keeps _ State.lrp (fun t d => by simp) _ _, foldl_keeps _ State.ntf (fun t d => by simp) _ _, foldl_keeps _ State.psr (fun t d => by simp) _ _⟩
@[simp] theorem beginWords_pending (s : State) : (beginWords s).pending = s.pending := (beginWords_keeps s).1
@[simp] theorem beginWords_inReset (s : State) : (beginWords s).inReset = s.inReset := (beginWords_keeps s).2.1
@[simp] theorem beginWords_scr (s : State) : (beginWords s).scr = s.scr := (beginWords_keeps s).2.2.1
@[simp] theorem beginWords_sct (s : State) : (beginWords s).sct = s.sct := (beginWords_keeps s).2.2.2.1
@[simp] theorem beginWords_pins (s : State) : (beginWords s).pins = s.pins := (beginWords_keeps s).2.2.2.2.1
@[simp] theorem beginWords_dir (s : State) : (beginWords s).dir = s.dir := (beginWords_keeps s).2.2.2.2.2.1
@[simp] theorem beginWords_spm (s : State) : (beginWords s).spm = s.spm := (beginWords_keeps s).2.2.2.2.2.2.1
@[simp] theorem beginWords_org (s : State) : (beginWords s).org = s.org := (beginWords_keeps s).2.2.2.2.2.2.2.1
@[simp] theorem beginWords_tdb (s : State) : (beginWords s).tdb = s.tdb := (beginWords_keeps s).2.2.2.2.2.2.2.2.1
@[simp] theorem beginWords_slots (s : State) : (beginWords s).slots = s.slots := (beginWords_keeps s).2.2.2.2.2.2.2.2.2.1
@[simp] theorem beginWords_reqQueue (s : State) : (beginWords s).reqQueue = s.reqQueue := (beginWords_keeps s).2.2.2.2.2.2.2.2.2.2.1
@[simp] theorem beginWords_pen (s : State) : (beginWords s).pen = s.pen := (beginWords_keeps s).2.2.2.2.2.2.2.2.2.2.2.1
@[simp] theorem beginWords_lrp (s : State) : (beginWords s).lrp = s.lrp := (beginWords_keeps s).2.2.2.2.2.2.2.2.2.2.2.2.1
@[simp] theorem beginWords_ntf (s : State) : (beginWords s).ntf = s.ntf := (beginWords_keeps s).2.2.2.2.2.2.2.2.2.2.2.2.2.1
@[simp] theorem beginWords_psr (s : State) : (beginWords s).psr = s.psr := (beginWords_keeps s).2.2.2.2.2.2.2.2.2.2.2.2.2.2

theorem catchUpAll_keeps (s : State) :
    (catchUpAll s).pending = s.pending ∧ (catchUpAll s).inReset = s.inReset ∧ (catchUpAll s).scr = s.scr ∧ (catchUpAll s).pins = s.pins ∧ (catchUpAll s).dir = s.dir ∧ (catchUpAll s).spm = s.spm ∧ (catchUpAll s).slots = s.slots ∧ (catchUpAll s).reqQueue = s.reqQueue ∧ (catchUpAll s).pen = s.pen ∧ (catchUpAll s).lrp = s.lrp ∧ (catchUpAll s).psr = s.psr := by
  unfold catchUpAll
  exact ⟨foldl_keeps _ State.pending (fun t d => by simp) _ _, foldl_keeps _ State.inReset (fun t d => by simp) _ _, foldl_keeps _ State.scr (fun t d => by simp) _ _, foldl_keeps _ State.pins (fun t d => by simp) _ _, foldl_keeps _ State.dir (fun t d => by simp) _ _, foldl_keeps _ State.spm (fun t d => by simp) _ _, foldl_keeps _ State.slots (fun t d => by simp) _ _, foldl_keeps _ State.reqQueue (fun t d => by simp) _ _, foldl_keeps _ State.pen (fun t d => by simp) _ _, foldl_keeps _ State.lrp (fun t d => by simp) _ _, foldl_keeps _ State.psr (fun t d => by simp) _ _⟩
@[simp] theorem catchUpAll_pending (s : State) : (catchUpAll s).pending = s.pending := (catchUpAll_keeps s).1
@[simp] theorem catchUpAll_inReset (s : State) : (catchUpAll s).inReset = s.inReset := (catchUpAll_keeps s).2.1
@[simp] theorem catchUpAll_scr (s : State) : (catchUpAll s).scr = s.scr := (catchUpAll_keeps s).2.2.1
@[simp] theorem catchUpAll_pins (s : State) : (catchUpAll s).pins = s.pins := (catchUpAll_keeps s).2.2.2.1
@[simp] theorem catchUpAll_dir (s : State) : (catchUpAll s).dir = s.dir := (catchUpAll_keeps s).2.2.2.2.1
@[simp] theorem catchUpAll_spm (s : State) : (catchUpAll s).spm = s.spm := (catchUpAll_keeps s).2.2.2.2.2.1
@[simp] theorem catchUpAll_slots (s : State) : (catchUpAll s).slots = s.slots := (catchUpAll_keeps s).2.2.2.2.2.2.1
@[simp] theorem catchUpAll_reqQueue (s : State) : (catchUpAll s).reqQueue = s.reqQueue := (catchUpAll_keeps s).2.2.2.2.2.2.2.1
@[simp] theorem catchUpAll_pen (s : State) : (catchUpAll s).pen = s.pen := (catchUpAll_keeps s).2.2.2.2.2.2.2.2.1
@[simp] theorem catchUpAll_lrp (s : State) : (catchUpAll s).lrp = s.lrp := (catchUpAll_keeps s).2.2.2.2.2.2.2.2.2.1
@[simp] theorem catchUpAll_psr (s : State) : (catchUpAll s).psr = s.psr := (catchUpAll_keeps s).2.2.2.2.2.2.2.2.2.2

theorem noNumberExpired_keeps (x : BitVec 3) (s : State) :
    (noNumberExpired x s).pending = s.pending ∧ (noNumberExpired x s).inReset = s.inReset ∧ (noNumberExpired x s).scr = s.scr ∧ (noNumberExpired x s).pins = s.pins ∧ (noNumberExpired x s).degrees = s.degrees ∧ (noNumberExpired x s).spm = s.spm ∧ (noNumberExpired x s).org = s.org ∧ (noNumberExpired x s).tdb = s.tdb ∧ (noNumberExpired x s).slots = s.slots ∧ (noNumberExpired x s).reqQueue = s.reqQueue ∧ (noNumberExpired x s).pen = s.pen ∧ (noNumberExpired x s).lrp = s.lrp ∧ (noNumberExpired x s).psr = s.psr := by
  unfold noNumberExpired
  (repeat' split) <;> simp
@[simp] theorem noNumberExpired_pending (x : BitVec 3) (s : State) : (noNumberExpired x s).pending = s.pending := (noNumberExpired_keeps x s).1
@[simp] theorem noNumberExpired_inReset (x : BitVec 3) (s : State) : (noNumberExpired x s).inReset = s.inReset := (noNumberExpired_keeps x s).2.1
@[simp] theorem noNumberExpired_scr (x : BitVec 3) (s : State) : (noNumberExpired x s).scr = s.scr := (noNumberExpired_keeps x s).2.2.1
@[simp] theorem noNumberExpired_pins (x : BitVec 3) (s : State) : (noNumberExpired x s).pins = s.pins := (noNumberExpired_keeps x s).2.2.2.1
@[simp] theorem noNumberExpired_degrees (x : BitVec 3) (s : State) : (noNumberExpired x s).degrees = s.degrees := (noNumberExpired_keeps x s).2.2.2.2.1
@[simp] theorem noNumberExpired_spm (x : BitVec 3) (s : State) : (noNumberExpired x s).spm = s.spm := (noNumberExpired_keeps x s).2.2.2.2.2.1
@[simp] theorem noNumberExpired_org (x : BitVec 3) (s : State) : (noNumberExpired x s).org = s.org := (noNumberExpired_keeps x s).2.2.2.2.2.2.1
@[simp] theorem noNumberExpired_tdb (x : BitVec 3) (s : State) : (noNumberExpired x s).tdb = s.tdb := (noNumberExpired_keeps x s).2.2.2.2.2.2.2.1
@[simp] theorem noNumberExpired_slots (x : BitVec 3) (s : State) : (noNumberExpired x s).slots = s.slots := (noNumberExpired_keeps x s).2.2.2.2.2.2.2.2.1
@[simp] theorem noNumberExpired_reqQueue (x : BitVec 3) (s : State) : (noNumberExpired x s).reqQueue = s.reqQueue := (noNumberExpired_keeps x s).2.2.2.2.2.2.2.2.2.1
@[simp] theorem noNumberExpired_pen (x : BitVec 3) (s : State) : (noNumberExpired x s).pen = s.pen := (noNumberExpired_keeps x s).2.2.2.2.2.2.2.2.2.2.1
@[simp] theorem noNumberExpired_lrp (x : BitVec 3) (s : State) : (noNumberExpired x s).lrp = s.lrp := (noNumberExpired_keeps x s).2.2.2.2.2.2.2.2.2.2.2.1
@[simp] theorem noNumberExpired_psr (x : BitVec 3) (s : State) : (noNumberExpired x s).psr = s.psr := (noNumberExpired_keeps x s).2.2.2.2.2.2.2.2.2.2.2.2

theorem releaseReset_keeps (s : State) :
    (releaseReset s).pending = s.pending ∧ (releaseReset s).scr = s.scr ∧ (releaseReset s).sct = s.sct ∧ (releaseReset s).pins = s.pins ∧ (releaseReset s).dir = s.dir ∧ (releaseReset s).degrees = s.degrees ∧ (releaseReset s).spm = s.spm ∧ (releaseReset s).org = s.org ∧ (releaseReset s).tdb = s.tdb ∧ (releaseReset s).slots = s.slots ∧ (releaseReset s).reqQueue = s.reqQueue ∧ (releaseReset s).pen = s.pen ∧ (releaseReset s).lrp = s.lrp ∧ (releaseReset s).ntf = s.ntf := by
  unfold releaseReset
  try dsimp only
  repeat' apply And.intro
  all_goals (repeat' split) <;> simp [State.released]
@[simp] theorem releaseReset_pending (s : State) : (releaseReset s).pending = s.pending := (releaseReset_keeps s).1
@[simp] theorem releaseReset_scr (s : State) : (releaseReset s).scr = s.scr := (releaseReset_keeps s).2.1
@[simp] theorem releaseReset_sct (s : State) : (releaseReset s).sct = s.sct := (releaseReset_keeps s).2.2.1
@[simp] theorem releaseReset_pins (s : State) : (releaseReset s).pins = s.pins := (releaseReset_keeps s).2.2.2.1
@[simp] theorem releaseReset_dir (s : State) : (releaseReset s).dir = s.dir := (releaseReset_keeps s).2.2.2.2.1
@[simp] theorem releaseReset_degrees (s : State) : (releaseReset s).degrees = s.degrees := (releaseReset_keeps s).2.2.2.2.2.1
@[simp] theorem releaseReset_spm (s : State) : (releaseReset s).spm = s.spm := (releaseReset_keeps s).2.2.2.2.2.2.1
@[simp] theorem releaseReset_org (s : State) : (releaseReset s).org = s.org := (releaseReset_keeps s).2.2.2.2.2.2.2.1
@[simp] theorem releaseReset_tdb (s : State) : (releaseReset s).tdb = s.tdb := (releaseReset_keeps s).2.2.2.2.2.2.2.2.1
@[simp] theorem releaseReset_slots (s : State) : (releaseReset s).slots = s.slots := (releaseReset_keeps s).2.2.2.2.2.2.2.2.2.1
@[simp] theorem releaseReset_reqQueue (s : State) : (releaseReset s).reqQueue = s.reqQueue := (releaseReset_keeps s).2.2.2.2.2.2.2.2.2.2.1
@[simp] theorem releaseReset_pen (s : State) : (releaseReset s).pen = s.pen := (releaseReset_keeps s).2.2.2.2.2.2.2.2.2.2.2.1
@[simp] theorem releaseReset_lrp (s : State) : (releaseReset s).lrp = s.lrp := (releaseReset_keeps s).2.2.2.2.2.2.2.2.2.2.2.2.1
@[simp] theorem releaseReset_ntf (s : State) : (releaseReset s).ntf = s.ntf := (releaseReset_keeps s).2.2.2.2.2.2.2.2.2.2.2.2.2

theorem endStoreWrite_keeps (s : State) :
    (endStoreWrite s).pending = s.pending ∧ (endStoreWrite s).inReset = s.inReset ∧ (endStoreWrite s).scr = s.scr ∧ (endStoreWrite s).sct = s.sct ∧ (endStoreWrite s).pins = s.pins ∧ (endStoreWrite s).dir = s.dir ∧ (endStoreWrite s).degrees = s.degrees ∧ (endStoreWrite s).spm = s.spm ∧ (endStoreWrite s).org = s.org ∧ (endStoreWrite s).tdb = s.tdb ∧ (endStoreWrite s).slots = s.slots ∧ (endStoreWrite s).reqQueue = s.reqQueue ∧ (endStoreWrite s).pen = s.pen ∧ (endStoreWrite s).lrp = s.lrp ∧ (endStoreWrite s).ntf = s.ntf := by
  unfold endStoreWrite
  (repeat' split) <;> simp
@[simp] theorem endStoreWrite_pending (s : State) : (endStoreWrite s).pending = s.pending := (endStoreWrite_keeps s).1
@[simp] theorem endStoreWrite_inReset (s : State) : (endStoreWrite s).inReset = s.inReset := (endStoreWrite_keeps s).2.1
@[simp] theorem endStoreWrite_scr (s : State) : (endStoreWrite s).scr = s.scr := (endStoreWrite_keeps s).2.2.1
@[simp] theorem endStoreWrite_sct (s : State) : (endStoreWrite s).sct = s.sct := (endStoreWrite_keeps s).2.2.2.1
@[simp] theorem endStoreWrite_pins (s : State) : (endStoreWrite s).pins = s.pins := (endStoreWrite_keeps s).2.2.2.2.1
@[simp] theorem endStoreWrite_dir (s : State) : (endStoreWrite s).dir = s.dir := (endStoreWrite_keeps s).2.2.2.2.2.1
@[simp] theorem endStoreWrite_degrees (s : State) : (endStoreWrite s).degrees = s.degrees := (endStoreWrite_keeps s).2.2.2.2.2.2.1
@[simp] theorem endStoreWrite_spm (s : State) : (endStoreWrite s).spm = s.spm := (endStoreWrite_keeps s).2.2.2.2.2.2.2.1
@[simp] theorem endStoreWrite_org (s : State) : (endStoreWrite s).org = s.org := (endStoreWrite_keeps s).2.2.2.2.2.2.2.2.1
@[simp] theorem endStoreWrite_tdb (s : State) : (endStoreWrite s).tdb = s.tdb := (endStoreWrite_keeps s).2.2.2.2.2.2.2.2.2.1
@[simp] theorem endStoreWrite_slots (s : State) : (endStoreWrite s).slots = s.slots := (endStoreWrite_keeps s).2.2.2.2.2.2.2.2.2.2.1
@[simp] theorem endStoreWrite_reqQueue (s : State) : (endStoreWrite s).reqQueue = s.reqQueue := (endStoreWrite_keeps s).2.2.2.2.2.2.2.2.2.2.2.1
@[simp] theorem endStoreWrite_pen (s : State) : (endStoreWrite s).pen = s.pen := (endStoreWrite_keeps s).2.2.2.2.2.2.2.2.2.2.2.2.1
@[simp] theorem endStoreWrite_lrp (s : State) : (endStoreWrite s).lrp = s.lrp := (endStoreWrite_keeps s).2.2.2.2.2.2.2.2.2.2.2.2.2.1
@[simp] theorem endStoreWrite_ntf (s : State) : (endStoreWrite s).ntf = s.ntf := (endStoreWrite_keeps s).2.2.2.2.2.2.2.2.2.2.2.2.2.2

theorem loadWord_keeps (s : State) :
    (loadWord s).pending = s.pending ∧ (loadWord s).inReset = s.inReset ∧ (loadWord s).scr = s.scr ∧ (loadWord s).sct = s.sct ∧ (loadWord s).pins = s.pins ∧ (loadWord s).dir = s.dir ∧ (loadWord s).degrees = s.degrees ∧ (loadWord s).spm = s.spm ∧ (loadWord s).org = s.org ∧ (loadWord s).tdb = s.tdb ∧ (loadWord s).slots = s.slots ∧ (loadWord s).reqQueue = s.reqQueue ∧ (loadWord s).pen = s.pen ∧ (loadWord s).lrp = s.lrp ∧ (loadWord s).ntf = s.ntf := by
  unfold loadWord
  (repeat' split) <;> simp
@[simp] theorem loadWord_pending (s : State) : (loadWord s).pending = s.pending := (loadWord_keeps s).1
@[simp] theorem loadWord_inReset (s : State) : (loadWord s).inReset = s.inReset := (loadWord_keeps s).2.1
@[simp] theorem loadWord_scr (s : State) : (loadWord s).scr = s.scr := (loadWord_keeps s).2.2.1
@[simp] theorem loadWord_sct (s : State) : (loadWord s).sct = s.sct := (loadWord_keeps s).2.2.2.1
@[simp] theorem loadWord_pins (s : State) : (loadWord s).pins = s.pins := (loadWord_keeps s).2.2.2.2.1
@[simp] theorem loadWord_dir (s : State) : (loadWord s).dir = s.dir := (loadWord_keeps s).2.2.2.2.2.1
@[simp] theorem loadWord_degrees (s : State) : (loadWord s).degrees = s.degrees := (loadWord_keeps s).2.2.2.2.2.2.1
@[simp] theorem loadWord_spm (s : State) : (loadWord s).spm = s.spm := (loadWord_keeps s).2.2.2.2.2.2.2.1
@[simp] theorem loadWord_org (s : State) : (loadWord s).org = s.org := (loadWord_keeps s).2.2.2.2.2.2.2.2.1
@[simp] theorem loadWord_tdb (s : State) : (loadWord s).tdb = s.tdb := (loadWord_keeps s).2.2.2.2.2.2.2.2.2.1
@[simp] theorem loadWord_slots (s : State) : (loadWord s).slots = s.slots := (loadWord_keeps s).2.2.2.2.2.2.2.2.2.2.1
@[simp] theorem loadWord_reqQueue (s : State) : (loadWord s).reqQueue = s.reqQueue := (loadWord_keeps s).2.2.2.2.2.2.2.2.2.2.2.1
@[simp] theorem loadWord_pen (s : State) : (loadWord s).pen = s.pen := (loadWord_keeps s).2.2.2.2.2.2.2.2.2.2.2.2.1
@[simp] theorem loadWord_lrp (s : State) : (loadWord s).lrp = s.lrp := (loadWord_keeps s).2.2.2.2.2.2.2.2.2.2.2.2.2.1
@[simp] theorem loadWord_ntf (s : State) : (loadWord s).ntf = s.ntf := (loadWord_keeps s).2.2.2.2.2.2.2.2.2.2.2.2.2.2

theorem enterStandby_keeps (s : State) :
    (enterStandby s).pending = s.pending ∧ (enterStandby s).inReset = s.inReset ∧ (enterStandby s).scr = s.scr ∧ (enterStandby s).sct = s.sct ∧ (enterStandby s).pins = s.pins ∧ (enterStandby s).dir = s.dir ∧ (enterStandby s).spm = s.spm ∧ (enterStandby s).org = s.org ∧ (enterStandby s).slots = s.slots ∧ (enterStandby s).reqQueue = s.reqQueue ∧ (enterStandby s).pen = s.pen ∧ (enterStandby s).lrp = s.lrp ∧ (enterStandby s).ntf = s.ntf ∧ (enterStandby s).psr = s.psr := by
  unfold enterStandby
  (repeat' split) <;> simp
@[simp] theorem enterStandby_pending (s : State) : (enterStandby s).pending = s.pending := (enterStandby_keeps s).1
@[simp] theorem enterStandby_inReset (s : State) : (enterStandby s).inReset = s.inReset := (enterStandby_keeps s).2.1
@[simp] theorem enterStandby_scr (s : State) : (enterStandby s).scr = s.scr := (enterStandby_keeps s).2.2.1
@[simp] theorem enterStandby_sct (s : State) : (enterStandby s).sct = s.sct := (enterStandby_keeps s).2.2.2.1
@[simp] theorem enterStandby_pins (s : State) : (enterStandby s).pins = s.pins := (enterStandby_keeps s).2.2.2.2.1
@[simp] theorem enterStandby_dir (s : State) : (enterStandby s).dir = s.dir := (enterStandby_keeps s).2.2.2.2.2.1
@[simp] theorem enterStandby_spm (s : State) : (enterStandby s).spm = s.spm := (enterStandby_keeps s).2.2.2.2.2.2.1
@[simp] theorem enterStandby_org (s : State) : (enterStandby s).org = s.org := (enterStandby_keeps s).2.2.2.2.2.2.2.1
@[simp] theorem enterStandby_slots (s : State) : (enterStandby s).slots = s.slots := (enterStandby_keeps s).2.2.2.2.2.2.2.2.1
@[simp] theorem enterStandby_reqQueue (s : State) : (enterStandby s).reqQueue = s.reqQueue := (enterStandby_keeps s).2.2.2.2.2.2.2.2.2.1
@[simp] theorem enterStandby_pen (s : State) : (enterStandby s).pen = s.pen := (enterStandby_keeps s).2.2.2.2.2.2.2.2.2.2.1
@[simp] theorem enterStandby_lrp (s : State) : (enterStandby s).lrp = s.lrp := (enterStandby_keeps s).2.2.2.2.2.2.2.2.2.2.2.1
@[simp] theorem enterStandby_ntf (s : State) : (enterStandby s).ntf = s.ntf := (enterStandby_keeps s).2.2.2.2.2.2.2.2.2.2.2.2.1
@[simp] theorem enterStandby_psr (s : State) : (enterStandby s).psr = s.psr := (enterStandby_keeps s).2.2.2.2.2.2.2.2.2.2.2.2.2

theorem enterFaulted_keeps (s : State) :
    (enterFaulted s).pending = s.pending ∧ (enterFaulted s).inReset = s.inReset ∧ (enterFaulted s).sct = s.sct ∧ (enterFaulted s).pins = s.pins ∧ (enterFaulted s).dir = s.dir ∧ (enterFaulted s).degrees = s.degrees ∧ (enterFaulted s).spm = s.spm ∧ (enterFaulted s).org = s.org ∧ (enterFaulted s).tdb = s.tdb ∧ (enterFaulted s).slots = s.slots ∧ (enterFaulted s).reqQueue = s.reqQueue ∧ (enterFaulted s).pen = s.pen ∧ (enterFaulted s).lrp = s.lrp ∧ (enterFaulted s).psr = s.psr := by
  unfold enterFaulted
  (repeat' split) <;> simp
@[simp] theorem enterFaulted_pending (s : State) : (enterFaulted s).pending = s.pending := (enterFaulted_keeps s).1
@[simp] theorem enterFaulted_inReset (s : State) : (enterFaulted s).inReset = s.inReset := (enterFaulted_keeps s).2.1
@[simp] theorem enterFaulted_sct (s : State) : (enterFaulted s).sct = s.sct := (enterFaulted_keeps s).2.2.1
@[simp] theorem enterFaulted_pins (s : State) : (enterFaulted s).pins = s.pins := (enterFaulted_keeps s).2.2.2.1
@[simp] theorem enterFaulted_dir (s : State) : (enterFaulted s).dir = s.dir := (enterFaulted_keeps s).2.2.2.2.1
@[simp] theorem enterFaulted_degrees (s : State) : (enterFaulted s).degrees = s.degrees := (enterFaulted_keeps s).2.2.2.2.2.1
@[simp] theorem enterFaulted_spm (s : State) : (enterFaulted s).spm = s.spm := (enterFaulted_keeps s).2.2.2.2.2.2.1
@[simp] theorem enterFaulted_org (s : State) : (enterFaulted s).org = s.org := (enterFaulted_keeps s).2.2.2.2.2.2.2.1
@[simp] theorem enterFaulted_tdb (s : State) : (enterFaulted s).tdb = s.tdb := (enterFaulted_keeps s).2.2.2.2.2.2.2.2.1
@[simp] theorem enterFaulted_slots (s : State) : (enterFaulted s).slots = s.slots := (enterFaulted_keeps s).2.2.2.2.2.2.2.2.2.1
@[simp] theorem enterFaulted_reqQueue (s : State) : (enterFaulted s).reqQueue = s.reqQueue := (enterFaulted_keeps s).2.2.2.2.2.2.2.2.2.2.1
@[simp] theorem enterFaulted_pen (s : State) : (enterFaulted s).pen = s.pen := (enterFaulted_keeps s).2.2.2.2.2.2.2.2.2.2.2.1
@[simp] theorem enterFaulted_lrp (s : State) : (enterFaulted s).lrp = s.lrp := (enterFaulted_keeps s).2.2.2.2.2.2.2.2.2.2.2.2.1
@[simp] theorem enterFaulted_psr (s : State) : (enterFaulted s).psr = s.psr := (enterFaulted_keeps s).2.2.2.2.2.2.2.2.2.2.2.2.2

theorem endLoad_keeps (s : State) :
    (endLoad s).pending = s.pending ∧ (endLoad s).inReset = s.inReset ∧ (endLoad s).pins = s.pins ∧ (endLoad s).slots = s.slots ∧ (endLoad s).reqQueue = s.reqQueue ∧ (endLoad s).pen = s.pen ∧ (endLoad s).lrp = s.lrp := by
  unfold endLoad
  try dsimp only
  repeat' apply And.intro
  all_goals (repeat' split) <;> simp
@[simp] theorem endLoad_pending (s : State) : (endLoad s).pending = s.pending := (endLoad_keeps s).1
@[simp] theorem endLoad_inReset (s : State) : (endLoad s).inReset = s.inReset := (endLoad_keeps s).2.1
@[simp] theorem endLoad_pins (s : State) : (endLoad s).pins = s.pins := (endLoad_keeps s).2.2.1
@[simp] theorem endLoad_slots (s : State) : (endLoad s).slots = s.slots := (endLoad_keeps s).2.2.2.1
@[simp] theorem endLoad_reqQueue (s : State) : (endLoad s).reqQueue = s.reqQueue := (endLoad_keeps s).2.2.2.2.1
@[simp] theorem endLoad_pen (s : State) : (endLoad s).pen = s.pen := (endLoad_keeps s).2.2.2.2.2.1
@[simp] theorem endLoad_lrp (s : State) : (endLoad s).lrp = s.lrp := (endLoad_keeps s).2.2.2.2.2.2

theorem readResponse_keeps (n : Nat) (s : State) :
    (readResponse n s).pending = s.pending ∧ (readResponse n s).inReset = s.inReset ∧ (readResponse n s).scr = s.scr ∧ (readResponse n s).sct = s.sct ∧ (readResponse n s).pins = s.pins ∧ (readResponse n s).dir = s.dir ∧ (readResponse n s).degrees = s.degrees ∧ (readResponse n s).spm = s.spm ∧ (readResponse n s).org = s.org ∧ (readResponse n s).tdb = s.tdb ∧ (readResponse n s).slots = s.slots ∧ (readResponse n s).reqQueue = s.reqQueue ∧ (readResponse n s).pen = s.pen ∧ (readResponse n s).ntf = s.ntf ∧ (readResponse n s).psr = s.psr := by
  unfold readResponse
  (repeat' split) <;> simp
@[simp] theorem readResponse_pending (n : Nat) (s : State) : (readResponse n s).pending = s.pending := (readResponse_keeps n s).1
@[simp] theorem readResponse_inReset (n : Nat) (s : State) : (readResponse n s).inReset = s.inReset := (readResponse_keeps n s).2.1
@[simp] theorem readResponse_scr (n : Nat) (s : State) : (readResponse n s).scr = s.scr := (readResponse_keeps n s).2.2.1
@[simp] theorem readResponse_sct (n : Nat) (s : State) : (readResponse n s).sct = s.sct := (readResponse_keeps n s).2.2.2.1
@[simp] theorem readResponse_pins (n : Nat) (s : State) : (readResponse n s).pins = s.pins := (readResponse_keeps n s).2.2.2.2.1
@[simp] theorem readResponse_dir (n : Nat) (s : State) : (readResponse n s).dir = s.dir := (readResponse_keeps n s).2.2.2.2.2.1
@[simp] theorem readResponse_degrees (n : Nat) (s : State) : (readResponse n s).degrees = s.degrees := (readResponse_keeps n s).2.2.2.2.2.2.1
@[simp] theorem readResponse_spm (n : Nat) (s : State) : (readResponse n s).spm = s.spm := (readResponse_keeps n s).2.2.2.2.2.2.2.1
@[simp] theorem readResponse_org (n : Nat) (s : State) : (readResponse n s).org = s.org := (readResponse_keeps n s).2.2.2.2.2.2.2.2.1
@[simp] theorem readResponse_tdb (n : Nat) (s : State) : (readResponse n s).tdb = s.tdb := (readResponse_keeps n s).2.2.2.2.2.2.2.2.2.1
@[simp] theorem readResponse_slots (n : Nat) (s : State) : (readResponse n s).slots = s.slots := (readResponse_keeps n s).2.2.2.2.2.2.2.2.2.2.1
@[simp] theorem readResponse_reqQueue (n : Nat) (s : State) : (readResponse n s).reqQueue = s.reqQueue := (readResponse_keeps n s).2.2.2.2.2.2.2.2.2.2.2.1
@[simp] theorem readResponse_pen (n : Nat) (s : State) : (readResponse n s).pen = s.pen := (readResponse_keeps n s).2.2.2.2.2.2.2.2.2.2.2.2.1
@[simp] theorem readResponse_ntf (n : Nat) (s : State) : (readResponse n s).ntf = s.ntf := (readResponse_keeps n s).2.2.2.2.2.2.2.2.2.2.2.2.2.1
@[simp] theorem readResponse_psr (n : Nat) (s : State) : (readResponse n s).psr = s.psr := (readResponse_keeps n s).2.2.2.2.2.2.2.2.2.2.2.2.2.2

theorem ignoreTransaction_keeps (b : List Bool) (s : State) :
    (ignoreTransaction b s).pending = s.pending ∧ (ignoreTransaction b s).inReset = s.inReset ∧ (ignoreTransaction b s).scr = s.scr ∧ (ignoreTransaction b s).sct = s.sct ∧ (ignoreTransaction b s).pins = s.pins ∧ (ignoreTransaction b s).dir = s.dir ∧ (ignoreTransaction b s).degrees = s.degrees ∧ (ignoreTransaction b s).spm = s.spm ∧ (ignoreTransaction b s).org = s.org ∧ (ignoreTransaction b s).tdb = s.tdb ∧ (ignoreTransaction b s).slots = s.slots ∧ (ignoreTransaction b s).reqQueue = s.reqQueue ∧ (ignoreTransaction b s).pen = s.pen ∧ (ignoreTransaction b s).ntf = s.ntf ∧ (ignoreTransaction b s).psr = s.psr := by
  unfold ignoreTransaction
  (repeat' split) <;> simp
@[simp] theorem ignoreTransaction_pending (b : List Bool) (s : State) : (ignoreTransaction b s).pending = s.pending := (ignoreTransaction_keeps b s).1
@[simp] theorem ignoreTransaction_inReset (b : List Bool) (s : State) : (ignoreTransaction b s).inReset = s.inReset := (ignoreTransaction_keeps b s).2.1
@[simp] theorem ignoreTransaction_scr (b : List Bool) (s : State) : (ignoreTransaction b s).scr = s.scr := (ignoreTransaction_keeps b s).2.2.1
@[simp] theorem ignoreTransaction_sct (b : List Bool) (s : State) : (ignoreTransaction b s).sct = s.sct := (ignoreTransaction_keeps b s).2.2.2.1
@[simp] theorem ignoreTransaction_pins (b : List Bool) (s : State) : (ignoreTransaction b s).pins = s.pins := (ignoreTransaction_keeps b s).2.2.2.2.1
@[simp] theorem ignoreTransaction_dir (b : List Bool) (s : State) : (ignoreTransaction b s).dir = s.dir := (ignoreTransaction_keeps b s).2.2.2.2.2.1
@[simp] theorem ignoreTransaction_degrees (b : List Bool) (s : State) : (ignoreTransaction b s).degrees = s.degrees := (ignoreTransaction_keeps b s).2.2.2.2.2.2.1
@[simp] theorem ignoreTransaction_spm (b : List Bool) (s : State) : (ignoreTransaction b s).spm = s.spm := (ignoreTransaction_keeps b s).2.2.2.2.2.2.2.1
@[simp] theorem ignoreTransaction_org (b : List Bool) (s : State) : (ignoreTransaction b s).org = s.org := (ignoreTransaction_keeps b s).2.2.2.2.2.2.2.2.1
@[simp] theorem ignoreTransaction_tdb (b : List Bool) (s : State) : (ignoreTransaction b s).tdb = s.tdb := (ignoreTransaction_keeps b s).2.2.2.2.2.2.2.2.2.1
@[simp] theorem ignoreTransaction_slots (b : List Bool) (s : State) : (ignoreTransaction b s).slots = s.slots := (ignoreTransaction_keeps b s).2.2.2.2.2.2.2.2.2.2.1
@[simp] theorem ignoreTransaction_reqQueue (b : List Bool) (s : State) : (ignoreTransaction b s).reqQueue = s.reqQueue := (ignoreTransaction_keeps b s).2.2.2.2.2.2.2.2.2.2.2.1
@[simp] theorem ignoreTransaction_pen (b : List Bool) (s : State) : (ignoreTransaction b s).pen = s.pen := (ignoreTransaction_keeps b s).2.2.2.2.2.2.2.2.2.2.2.2.1
@[simp] theorem ignoreTransaction_ntf (b : List Bool) (s : State) : (ignoreTransaction b s).ntf = s.ntf := (ignoreTransaction_keeps b s).2.2.2.2.2.2.2.2.2.2.2.2.2.1
@[simp] theorem ignoreTransaction_psr (b : List Bool) (s : State) : (ignoreTransaction b s).psr = s.psr := (ignoreTransaction_keeps b s).2.2.2.2.2.2.2.2.2.2.2.2.2.2

theorem refuseUnknown_keeps (c : Byte) (r : List Byte) (s : State) :
    (refuseUnknown c r s).pending = s.pending ∧ (refuseUnknown c r s).inReset = s.inReset ∧ (refuseUnknown c r s).scr = s.scr ∧ (refuseUnknown c r s).sct = s.sct ∧ (refuseUnknown c r s).pins = s.pins ∧ (refuseUnknown c r s).dir = s.dir ∧ (refuseUnknown c r s).degrees = s.degrees ∧ (refuseUnknown c r s).spm = s.spm ∧ (refuseUnknown c r s).org = s.org ∧ (refuseUnknown c r s).tdb = s.tdb ∧ (refuseUnknown c r s).slots = s.slots ∧ (refuseUnknown c r s).reqQueue = s.reqQueue ∧ (refuseUnknown c r s).pen = s.pen ∧ (refuseUnknown c r s).ntf = s.ntf ∧ (refuseUnknown c r s).psr = s.psr := by
  unfold refuseUnknown endTransaction
  try dsimp only
  repeat' apply And.intro
  all_goals (repeat' split) <;> simp
@[simp] theorem refuseUnknown_pending (c : Byte) (r : List Byte) (s : State) : (refuseUnknown c r s).pending = s.pending := (refuseUnknown_keeps c r s).1
@[simp] theorem refuseUnknown_inReset (c : Byte) (r : List Byte) (s : State) : (refuseUnknown c r s).inReset = s.inReset := (refuseUnknown_keeps c r s).2.1
@[simp] theorem refuseUnknown_scr (c : Byte) (r : List Byte) (s : State) : (refuseUnknown c r s).scr = s.scr := (refuseUnknown_keeps c r s).2.2.1
@[simp] theorem refuseUnknown_sct (c : Byte) (r : List Byte) (s : State) : (refuseUnknown c r s).sct = s.sct := (refuseUnknown_keeps c r s).2.2.2.1
@[simp] theorem refuseUnknown_pins (c : Byte) (r : List Byte) (s : State) : (refuseUnknown c r s).pins = s.pins := (refuseUnknown_keeps c r s).2.2.2.2.1
@[simp] theorem refuseUnknown_dir (c : Byte) (r : List Byte) (s : State) : (refuseUnknown c r s).dir = s.dir := (refuseUnknown_keeps c r s).2.2.2.2.2.1
@[simp] theorem refuseUnknown_degrees (c : Byte) (r : List Byte) (s : State) : (refuseUnknown c r s).degrees = s.degrees := (refuseUnknown_keeps c r s).2.2.2.2.2.2.1
@[simp] theorem refuseUnknown_spm (c : Byte) (r : List Byte) (s : State) : (refuseUnknown c r s).spm = s.spm := (refuseUnknown_keeps c r s).2.2.2.2.2.2.2.1
@[simp] theorem refuseUnknown_org (c : Byte) (r : List Byte) (s : State) : (refuseUnknown c r s).org = s.org := (refuseUnknown_keeps c r s).2.2.2.2.2.2.2.2.1
@[simp] theorem refuseUnknown_tdb (c : Byte) (r : List Byte) (s : State) : (refuseUnknown c r s).tdb = s.tdb := (refuseUnknown_keeps c r s).2.2.2.2.2.2.2.2.2.1
@[simp] theorem refuseUnknown_slots (c : Byte) (r : List Byte) (s : State) : (refuseUnknown c r s).slots = s.slots := (refuseUnknown_keeps c r s).2.2.2.2.2.2.2.2.2.2.1
@[simp] theorem refuseUnknown_reqQueue (c : Byte) (r : List Byte) (s : State) : (refuseUnknown c r s).reqQueue = s.reqQueue := (refuseUnknown_keeps c r s).2.2.2.2.2.2.2.2.2.2.2.1
@[simp] theorem refuseUnknown_pen (c : Byte) (r : List Byte) (s : State) : (refuseUnknown c r s).pen = s.pen := (refuseUnknown_keeps c r s).2.2.2.2.2.2.2.2.2.2.2.2.1
@[simp] theorem refuseUnknown_ntf (c : Byte) (r : List Byte) (s : State) : (refuseUnknown c r s).ntf = s.ntf := (refuseUnknown_keeps c r s).2.2.2.2.2.2.2.2.2.2.2.2.2.1
@[simp] theorem refuseUnknown_psr (c : Byte) (r : List Byte) (s : State) : (refuseUnknown c r s).psr = s.psr := (refuseUnknown_keeps c r s).2.2.2.2.2.2.2.2.2.2.2.2.2.2

theorem readStatus_keeps (p : List Byte) (s : State) :
    (readStatus p s).pending = s.pending ∧ (readStatus p s).inReset = s.inReset ∧ (readStatus p s).scr = s.scr ∧ (readStatus p s).sct = s.sct ∧ (readStatus p s).pins = s.pins ∧ (readStatus p s).dir = s.dir ∧ (readStatus p s).degrees = s.degrees ∧ (readStatus p s).spm = s.spm ∧ (readStatus p s).org = s.org ∧ (readStatus p s).tdb = s.tdb ∧ (readStatus p s).slots = s.slots ∧ (readStatus p s).reqQueue = s.reqQueue ∧ (readStatus p s).pen = s.pen ∧ (readStatus p s).ntf = s.ntf ∧ (readStatus p s).psr = s.psr := by
  unfold readStatus
  (repeat' split) <;> simp
@[simp] theorem readStatus_pending (p : List Byte) (s : State) : (readStatus p s).pending = s.pending := (readStatus_keeps p s).1
@[simp] theorem readStatus_inReset (p : List Byte) (s : State) : (readStatus p s).inReset = s.inReset := (readStatus_keeps p s).2.1
@[simp] theorem readStatus_scr (p : List Byte) (s : State) : (readStatus p s).scr = s.scr := (readStatus_keeps p s).2.2.1
@[simp] theorem readStatus_sct (p : List Byte) (s : State) : (readStatus p s).sct = s.sct := (readStatus_keeps p s).2.2.2.1
@[simp] theorem readStatus_pins (p : List Byte) (s : State) : (readStatus p s).pins = s.pins := (readStatus_keeps p s).2.2.2.2.1
@[simp] theorem readStatus_dir (p : List Byte) (s : State) : (readStatus p s).dir = s.dir := (readStatus_keeps p s).2.2.2.2.2.1
@[simp] theorem readStatus_degrees (p : List Byte) (s : State) : (readStatus p s).degrees = s.degrees := (readStatus_keeps p s).2.2.2.2.2.2.1
@[simp] theorem readStatus_spm (p : List Byte) (s : State) : (readStatus p s).spm = s.spm := (readStatus_keeps p s).2.2.2.2.2.2.2.1
@[simp] theorem readStatus_org (p : List Byte) (s : State) : (readStatus p s).org = s.org := (readStatus_keeps p s).2.2.2.2.2.2.2.2.1
@[simp] theorem readStatus_tdb (p : List Byte) (s : State) : (readStatus p s).tdb = s.tdb := (readStatus_keeps p s).2.2.2.2.2.2.2.2.2.1
@[simp] theorem readStatus_slots (p : List Byte) (s : State) : (readStatus p s).slots = s.slots := (readStatus_keeps p s).2.2.2.2.2.2.2.2.2.2.1
@[simp] theorem readStatus_reqQueue (p : List Byte) (s : State) : (readStatus p s).reqQueue = s.reqQueue := (readStatus_keeps p s).2.2.2.2.2.2.2.2.2.2.2.1
@[simp] theorem readStatus_pen (p : List Byte) (s : State) : (readStatus p s).pen = s.pen := (readStatus_keeps p s).2.2.2.2.2.2.2.2.2.2.2.2.1
@[simp] theorem readStatus_ntf (p : List Byte) (s : State) : (readStatus p s).ntf = s.ntf := (readStatus_keeps p s).2.2.2.2.2.2.2.2.2.2.2.2.2.1
@[simp] theorem readStatus_psr (p : List Byte) (s : State) : (readStatus p s).psr = s.psr := (readStatus_keeps p s).2.2.2.2.2.2.2.2.2.2.2.2.2.2

theorem readDirectoryEntry_keeps (p : List Byte) (s : State) :
    (readDirectoryEntry p s).pending = s.pending ∧ (readDirectoryEntry p s).inReset = s.inReset ∧ (readDirectoryEntry p s).scr = s.scr ∧ (readDirectoryEntry p s).sct = s.sct ∧ (readDirectoryEntry p s).pins = s.pins ∧ (readDirectoryEntry p s).dir = s.dir ∧ (readDirectoryEntry p s).degrees = s.degrees ∧ (readDirectoryEntry p s).spm = s.spm ∧ (readDirectoryEntry p s).org = s.org ∧ (readDirectoryEntry p s).tdb = s.tdb ∧ (readDirectoryEntry p s).slots = s.slots ∧ (readDirectoryEntry p s).reqQueue = s.reqQueue ∧ (readDirectoryEntry p s).pen = s.pen ∧ (readDirectoryEntry p s).ntf = s.ntf ∧ (readDirectoryEntry p s).psr = s.psr := by
  unfold readDirectoryEntry
  try dsimp only
  repeat' apply And.intro
  all_goals (repeat' split) <;> simp
@[simp] theorem readDirectoryEntry_pending (p : List Byte) (s : State) : (readDirectoryEntry p s).pending = s.pending := (readDirectoryEntry_keeps p s).1
@[simp] theorem readDirectoryEntry_inReset (p : List Byte) (s : State) : (readDirectoryEntry p s).inReset = s.inReset := (readDirectoryEntry_keeps p s).2.1
@[simp] theorem readDirectoryEntry_scr (p : List Byte) (s : State) : (readDirectoryEntry p s).scr = s.scr := (readDirectoryEntry_keeps p s).2.2.1
@[simp] theorem readDirectoryEntry_sct (p : List Byte) (s : State) : (readDirectoryEntry p s).sct = s.sct := (readDirectoryEntry_keeps p s).2.2.2.1
@[simp] theorem readDirectoryEntry_pins (p : List Byte) (s : State) : (readDirectoryEntry p s).pins = s.pins := (readDirectoryEntry_keeps p s).2.2.2.2.1
@[simp] theorem readDirectoryEntry_dir (p : List Byte) (s : State) : (readDirectoryEntry p s).dir = s.dir := (readDirectoryEntry_keeps p s).2.2.2.2.2.1
@[simp] theorem readDirectoryEntry_degrees (p : List Byte) (s : State) : (readDirectoryEntry p s).degrees = s.degrees := (readDirectoryEntry_keeps p s).2.2.2.2.2.2.1
@[simp] theorem readDirectoryEntry_spm (p : List Byte) (s : State) : (readDirectoryEntry p s).spm = s.spm := (readDirectoryEntry_keeps p s).2.2.2.2.2.2.2.1
@[simp] theorem readDirectoryEntry_org (p : List Byte) (s : State) : (readDirectoryEntry p s).org = s.org := (readDirectoryEntry_keeps p s).2.2.2.2.2.2.2.2.1
@[simp] theorem readDirectoryEntry_tdb (p : List Byte) (s : State) : (readDirectoryEntry p s).tdb = s.tdb := (readDirectoryEntry_keeps p s).2.2.2.2.2.2.2.2.2.1
@[simp] theorem readDirectoryEntry_slots (p : List Byte) (s : State) : (readDirectoryEntry p s).slots = s.slots := (readDirectoryEntry_keeps p s).2.2.2.2.2.2.2.2.2.2.1
@[simp] theorem readDirectoryEntry_reqQueue (p : List Byte) (s : State) : (readDirectoryEntry p s).reqQueue = s.reqQueue := (readDirectoryEntry_keeps p s).2.2.2.2.2.2.2.2.2.2.2.1
@[simp] theorem readDirectoryEntry_pen (p : List Byte) (s : State) : (readDirectoryEntry p s).pen = s.pen := (readDirectoryEntry_keeps p s).2.2.2.2.2.2.2.2.2.2.2.2.1
@[simp] theorem readDirectoryEntry_ntf (p : List Byte) (s : State) : (readDirectoryEntry p s).ntf = s.ntf := (readDirectoryEntry_keeps p s).2.2.2.2.2.2.2.2.2.2.2.2.2.1
@[simp] theorem readDirectoryEntry_psr (p : List Byte) (s : State) : (readDirectoryEntry p s).psr = s.psr := (readDirectoryEntry_keeps p s).2.2.2.2.2.2.2.2.2.2.2.2.2.2

theorem readDegree_keeps (p : List Byte) (s : State) :
    (readDegree p s).pending = s.pending ∧ (readDegree p s).inReset = s.inReset ∧ (readDegree p s).scr = s.scr ∧ (readDegree p s).sct = s.sct ∧ (readDegree p s).pins = s.pins ∧ (readDegree p s).dir = s.dir ∧ (readDegree p s).degrees = s.degrees ∧ (readDegree p s).spm = s.spm ∧ (readDegree p s).org = s.org ∧ (readDegree p s).tdb = s.tdb ∧ (readDegree p s).slots = s.slots ∧ (readDegree p s).reqQueue = s.reqQueue ∧ (readDegree p s).pen = s.pen ∧ (readDegree p s).ntf = s.ntf ∧ (readDegree p s).psr = s.psr := by
  unfold readDegree
  try dsimp only
  repeat' apply And.intro
  all_goals (repeat' split) <;> simp
@[simp] theorem readDegree_pending (p : List Byte) (s : State) : (readDegree p s).pending = s.pending := (readDegree_keeps p s).1
@[simp] theorem readDegree_inReset (p : List Byte) (s : State) : (readDegree p s).inReset = s.inReset := (readDegree_keeps p s).2.1
@[simp] theorem readDegree_scr (p : List Byte) (s : State) : (readDegree p s).scr = s.scr := (readDegree_keeps p s).2.2.1
@[simp] theorem readDegree_sct (p : List Byte) (s : State) : (readDegree p s).sct = s.sct := (readDegree_keeps p s).2.2.2.1
@[simp] theorem readDegree_pins (p : List Byte) (s : State) : (readDegree p s).pins = s.pins := (readDegree_keeps p s).2.2.2.2.1
@[simp] theorem readDegree_dir (p : List Byte) (s : State) : (readDegree p s).dir = s.dir := (readDegree_keeps p s).2.2.2.2.2.1
@[simp] theorem readDegree_degrees (p : List Byte) (s : State) : (readDegree p s).degrees = s.degrees := (readDegree_keeps p s).2.2.2.2.2.2.1
@[simp] theorem readDegree_spm (p : List Byte) (s : State) : (readDegree p s).spm = s.spm := (readDegree_keeps p s).2.2.2.2.2.2.2.1
@[simp] theorem readDegree_org (p : List Byte) (s : State) : (readDegree p s).org = s.org := (readDegree_keeps p s).2.2.2.2.2.2.2.2.1
@[simp] theorem readDegree_tdb (p : List Byte) (s : State) : (readDegree p s).tdb = s.tdb := (readDegree_keeps p s).2.2.2.2.2.2.2.2.2.1
@[simp] theorem readDegree_slots (p : List Byte) (s : State) : (readDegree p s).slots = s.slots := (readDegree_keeps p s).2.2.2.2.2.2.2.2.2.2.1
@[simp] theorem readDegree_reqQueue (p : List Byte) (s : State) : (readDegree p s).reqQueue = s.reqQueue := (readDegree_keeps p s).2.2.2.2.2.2.2.2.2.2.2.1
@[simp] theorem readDegree_pen (p : List Byte) (s : State) : (readDegree p s).pen = s.pen := (readDegree_keeps p s).2.2.2.2.2.2.2.2.2.2.2.2.1
@[simp] theorem readDegree_ntf (p : List Byte) (s : State) : (readDegree p s).ntf = s.ntf := (readDegree_keeps p s).2.2.2.2.2.2.2.2.2.2.2.2.2.1
@[simp] theorem readDegree_psr (p : List Byte) (s : State) : (readDegree p s).psr = s.psr := (readDegree_keeps p s).2.2.2.2.2.2.2.2.2.2.2.2.2.2

theorem readReport_keeps (p : List Byte) (s : State) :
    (readReport p s).pending = s.pending ∧ (readReport p s).inReset = s.inReset ∧ (readReport p s).scr = s.scr ∧ (readReport p s).sct = s.sct ∧ (readReport p s).pins = s.pins ∧ (readReport p s).dir = s.dir ∧ (readReport p s).degrees = s.degrees ∧ (readReport p s).spm = s.spm ∧ (readReport p s).org = s.org ∧ (readReport p s).tdb = s.tdb ∧ (readReport p s).slots = s.slots ∧ (readReport p s).reqQueue = s.reqQueue ∧ (readReport p s).pen = s.pen ∧ (readReport p s).ntf = s.ntf ∧ (readReport p s).psr = s.psr := by
  unfold readReport
  try dsimp only
  repeat' apply And.intro
  all_goals (repeat' split) <;> simp
@[simp] theorem readReport_pending (p : List Byte) (s : State) : (readReport p s).pending = s.pending := (readReport_keeps p s).1
@[simp] theorem readReport_inReset (p : List Byte) (s : State) : (readReport p s).inReset = s.inReset := (readReport_keeps p s).2.1
@[simp] theorem readReport_scr (p : List Byte) (s : State) : (readReport p s).scr = s.scr := (readReport_keeps p s).2.2.1
@[simp] theorem readReport_sct (p : List Byte) (s : State) : (readReport p s).sct = s.sct := (readReport_keeps p s).2.2.2.1
@[simp] theorem readReport_pins (p : List Byte) (s : State) : (readReport p s).pins = s.pins := (readReport_keeps p s).2.2.2.2.1
@[simp] theorem readReport_dir (p : List Byte) (s : State) : (readReport p s).dir = s.dir := (readReport_keeps p s).2.2.2.2.2.1
@[simp] theorem readReport_degrees (p : List Byte) (s : State) : (readReport p s).degrees = s.degrees := (readReport_keeps p s).2.2.2.2.2.2.1
@[simp] theorem readReport_spm (p : List Byte) (s : State) : (readReport p s).spm = s.spm := (readReport_keeps p s).2.2.2.2.2.2.2.1
@[simp] theorem readReport_org (p : List Byte) (s : State) : (readReport p s).org = s.org := (readReport_keeps p s).2.2.2.2.2.2.2.2.1
@[simp] theorem readReport_tdb (p : List Byte) (s : State) : (readReport p s).tdb = s.tdb := (readReport_keeps p s).2.2.2.2.2.2.2.2.2.1
@[simp] theorem readReport_slots (p : List Byte) (s : State) : (readReport p s).slots = s.slots := (readReport_keeps p s).2.2.2.2.2.2.2.2.2.2.1
@[simp] theorem readReport_reqQueue (p : List Byte) (s : State) : (readReport p s).reqQueue = s.reqQueue := (readReport_keeps p s).2.2.2.2.2.2.2.2.2.2.2.1
@[simp] theorem readReport_pen (p : List Byte) (s : State) : (readReport p s).pen = s.pen := (readReport_keeps p s).2.2.2.2.2.2.2.2.2.2.2.2.1
@[simp] theorem readReport_ntf (p : List Byte) (s : State) : (readReport p s).ntf = s.ntf := (readReport_keeps p s).2.2.2.2.2.2.2.2.2.2.2.2.2.1
@[simp] theorem readReport_psr (p : List Byte) (s : State) : (readReport p s).psr = s.psr := (readReport_keeps p s).2.2.2.2.2.2.2.2.2.2.2.2.2.2

theorem readPeerIntent_keeps (p : List Byte) (s : State) :
    (readPeerIntent p s).pending = s.pending ∧ (readPeerIntent p s).inReset = s.inReset ∧ (readPeerIntent p s).scr = s.scr ∧ (readPeerIntent p s).sct = s.sct ∧ (readPeerIntent p s).pins = s.pins ∧ (readPeerIntent p s).dir = s.dir ∧ (readPeerIntent p s).degrees = s.degrees ∧ (readPeerIntent p s).spm = s.spm ∧ (readPeerIntent p s).org = s.org ∧ (readPeerIntent p s).tdb = s.tdb ∧ (readPeerIntent p s).slots = s.slots ∧ (readPeerIntent p s).reqQueue = s.reqQueue ∧ (readPeerIntent p s).pen = s.pen ∧ (readPeerIntent p s).ntf = s.ntf ∧ (readPeerIntent p s).psr = s.psr := by
  unfold readPeerIntent
  try dsimp only
  repeat' apply And.intro
  all_goals (repeat' split) <;> simp
@[simp] theorem readPeerIntent_pending (p : List Byte) (s : State) : (readPeerIntent p s).pending = s.pending := (readPeerIntent_keeps p s).1
@[simp] theorem readPeerIntent_inReset (p : List Byte) (s : State) : (readPeerIntent p s).inReset = s.inReset := (readPeerIntent_keeps p s).2.1
@[simp] theorem readPeerIntent_scr (p : List Byte) (s : State) : (readPeerIntent p s).scr = s.scr := (readPeerIntent_keeps p s).2.2.1
@[simp] theorem readPeerIntent_sct (p : List Byte) (s : State) : (readPeerIntent p s).sct = s.sct := (readPeerIntent_keeps p s).2.2.2.1
@[simp] theorem readPeerIntent_pins (p : List Byte) (s : State) : (readPeerIntent p s).pins = s.pins := (readPeerIntent_keeps p s).2.2.2.2.1
@[simp] theorem readPeerIntent_dir (p : List Byte) (s : State) : (readPeerIntent p s).dir = s.dir := (readPeerIntent_keeps p s).2.2.2.2.2.1
@[simp] theorem readPeerIntent_degrees (p : List Byte) (s : State) : (readPeerIntent p s).degrees = s.degrees := (readPeerIntent_keeps p s).2.2.2.2.2.2.1
@[simp] theorem readPeerIntent_spm (p : List Byte) (s : State) : (readPeerIntent p s).spm = s.spm := (readPeerIntent_keeps p s).2.2.2.2.2.2.2.1
@[simp] theorem readPeerIntent_org (p : List Byte) (s : State) : (readPeerIntent p s).org = s.org := (readPeerIntent_keeps p s).2.2.2.2.2.2.2.2.1
@[simp] theorem readPeerIntent_tdb (p : List Byte) (s : State) : (readPeerIntent p s).tdb = s.tdb := (readPeerIntent_keeps p s).2.2.2.2.2.2.2.2.2.1
@[simp] theorem readPeerIntent_slots (p : List Byte) (s : State) : (readPeerIntent p s).slots = s.slots := (readPeerIntent_keeps p s).2.2.2.2.2.2.2.2.2.2.1
@[simp] theorem readPeerIntent_reqQueue (p : List Byte) (s : State) : (readPeerIntent p s).reqQueue = s.reqQueue := (readPeerIntent_keeps p s).2.2.2.2.2.2.2.2.2.2.2.1
@[simp] theorem readPeerIntent_pen (p : List Byte) (s : State) : (readPeerIntent p s).pen = s.pen := (readPeerIntent_keeps p s).2.2.2.2.2.2.2.2.2.2.2.2.1
@[simp] theorem readPeerIntent_ntf (p : List Byte) (s : State) : (readPeerIntent p s).ntf = s.ntf := (readPeerIntent_keeps p s).2.2.2.2.2.2.2.2.2.2.2.2.2.1
@[simp] theorem readPeerIntent_psr (p : List Byte) (s : State) : (readPeerIntent p s).psr = s.psr := (readPeerIntent_keeps p s).2.2.2.2.2.2.2.2.2.2.2.2.2.2

theorem writeNodeReport_keeps (p : List Byte) (s : State) :
    (writeNodeReport p s).pending = s.pending ∧ (writeNodeReport p s).inReset = s.inReset ∧ (writeNodeReport p s).scr = s.scr ∧ (writeNodeReport p s).pins = s.pins ∧ (writeNodeReport p s).dir = s.dir ∧ (writeNodeReport p s).degrees = s.degrees ∧ (writeNodeReport p s).slots = s.slots ∧ (writeNodeReport p s).reqQueue = s.reqQueue ∧ (writeNodeReport p s).pen = s.pen ∧ (writeNodeReport p s).psr = s.psr := by
  unfold writeNodeReport
  try dsimp only
  repeat' apply And.intro
  all_goals (repeat' split) <;> simp
@[simp] theorem writeNodeReport_pending (p : List Byte) (s : State) : (writeNodeReport p s).pending = s.pending := (writeNodeReport_keeps p s).1
@[simp] theorem writeNodeReport_inReset (p : List Byte) (s : State) : (writeNodeReport p s).inReset = s.inReset := (writeNodeReport_keeps p s).2.1
@[simp] theorem writeNodeReport_scr (p : List Byte) (s : State) : (writeNodeReport p s).scr = s.scr := (writeNodeReport_keeps p s).2.2.1
@[simp] theorem writeNodeReport_pins (p : List Byte) (s : State) : (writeNodeReport p s).pins = s.pins := (writeNodeReport_keeps p s).2.2.2.1
@[simp] theorem writeNodeReport_dir (p : List Byte) (s : State) : (writeNodeReport p s).dir = s.dir := (writeNodeReport_keeps p s).2.2.2.2.1
@[simp] theorem writeNodeReport_degrees (p : List Byte) (s : State) : (writeNodeReport p s).degrees = s.degrees := (writeNodeReport_keeps p s).2.2.2.2.2.1
@[simp] theorem writeNodeReport_slots (p : List Byte) (s : State) : (writeNodeReport p s).slots = s.slots := (writeNodeReport_keeps p s).2.2.2.2.2.2.1
@[simp] theorem writeNodeReport_reqQueue (p : List Byte) (s : State) : (writeNodeReport p s).reqQueue = s.reqQueue := (writeNodeReport_keeps p s).2.2.2.2.2.2.2.1
@[simp] theorem writeNodeReport_pen (p : List Byte) (s : State) : (writeNodeReport p s).pen = s.pen := (writeNodeReport_keeps p s).2.2.2.2.2.2.2.2.1
@[simp] theorem writeNodeReport_psr (p : List Byte) (s : State) : (writeNodeReport p s).psr = s.psr := (writeNodeReport_keeps p s).2.2.2.2.2.2.2.2.2

theorem writeSpanReport_keeps (p : List Byte) (s : State) :
    (writeSpanReport p s).pending = s.pending ∧ (writeSpanReport p s).inReset = s.inReset ∧ (writeSpanReport p s).scr = s.scr ∧ (writeSpanReport p s).pins = s.pins ∧ (writeSpanReport p s).dir = s.dir ∧ (writeSpanReport p s).degrees = s.degrees ∧ (writeSpanReport p s).slots = s.slots ∧ (writeSpanReport p s).reqQueue = s.reqQueue ∧ (writeSpanReport p s).pen = s.pen ∧ (writeSpanReport p s).psr = s.psr := by
  unfold writeSpanReport
  try dsimp only
  repeat' apply And.intro
  all_goals (repeat' split) <;> simp
@[simp] theorem writeSpanReport_pending (p : List Byte) (s : State) : (writeSpanReport p s).pending = s.pending := (writeSpanReport_keeps p s).1
@[simp] theorem writeSpanReport_inReset (p : List Byte) (s : State) : (writeSpanReport p s).inReset = s.inReset := (writeSpanReport_keeps p s).2.1
@[simp] theorem writeSpanReport_scr (p : List Byte) (s : State) : (writeSpanReport p s).scr = s.scr := (writeSpanReport_keeps p s).2.2.1
@[simp] theorem writeSpanReport_pins (p : List Byte) (s : State) : (writeSpanReport p s).pins = s.pins := (writeSpanReport_keeps p s).2.2.2.1
@[simp] theorem writeSpanReport_dir (p : List Byte) (s : State) : (writeSpanReport p s).dir = s.dir := (writeSpanReport_keeps p s).2.2.2.2.1
@[simp] theorem writeSpanReport_degrees (p : List Byte) (s : State) : (writeSpanReport p s).degrees = s.degrees := (writeSpanReport_keeps p s).2.2.2.2.2.1
@[simp] theorem writeSpanReport_slots (p : List Byte) (s : State) : (writeSpanReport p s).slots = s.slots := (writeSpanReport_keeps p s).2.2.2.2.2.2.1
@[simp] theorem writeSpanReport_reqQueue (p : List Byte) (s : State) : (writeSpanReport p s).reqQueue = s.reqQueue := (writeSpanReport_keeps p s).2.2.2.2.2.2.2.1
@[simp] theorem writeSpanReport_pen (p : List Byte) (s : State) : (writeSpanReport p s).pen = s.pen := (writeSpanReport_keeps p s).2.2.2.2.2.2.2.2.1
@[simp] theorem writeSpanReport_psr (p : List Byte) (s : State) : (writeSpanReport p s).psr = s.psr := (writeSpanReport_keeps p s).2.2.2.2.2.2.2.2.2

theorem clearLatch_keeps (p : List Byte) (s : State) :
    (clearLatch p s).pending = s.pending ∧ (clearLatch p s).inReset = s.inReset ∧ (clearLatch p s).scr = s.scr ∧ (clearLatch p s).pins = s.pins ∧ (clearLatch p s).dir = s.dir ∧ (clearLatch p s).degrees = s.degrees ∧ (clearLatch p s).slots = s.slots ∧ (clearLatch p s).reqQueue = s.reqQueue ∧ (clearLatch p s).pen = s.pen ∧ (clearLatch p s).psr = s.psr := by
  unfold clearLatch
  try dsimp only
  repeat' apply And.intro
  all_goals (repeat' split) <;> simp
@[simp] theorem clearLatch_pending (p : List Byte) (s : State) : (clearLatch p s).pending = s.pending := (clearLatch_keeps p s).1
@[simp] theorem clearLatch_inReset (p : List Byte) (s : State) : (clearLatch p s).inReset = s.inReset := (clearLatch_keeps p s).2.1
@[simp] theorem clearLatch_scr (p : List Byte) (s : State) : (clearLatch p s).scr = s.scr := (clearLatch_keeps p s).2.2.1
@[simp] theorem clearLatch_pins (p : List Byte) (s : State) : (clearLatch p s).pins = s.pins := (clearLatch_keeps p s).2.2.2.1
@[simp] theorem clearLatch_dir (p : List Byte) (s : State) : (clearLatch p s).dir = s.dir := (clearLatch_keeps p s).2.2.2.2.1
@[simp] theorem clearLatch_degrees (p : List Byte) (s : State) : (clearLatch p s).degrees = s.degrees := (clearLatch_keeps p s).2.2.2.2.2.1
@[simp] theorem clearLatch_slots (p : List Byte) (s : State) : (clearLatch p s).slots = s.slots := (clearLatch_keeps p s).2.2.2.2.2.2.1
@[simp] theorem clearLatch_reqQueue (p : List Byte) (s : State) : (clearLatch p s).reqQueue = s.reqQueue := (clearLatch_keeps p s).2.2.2.2.2.2.2.1
@[simp] theorem clearLatch_pen (p : List Byte) (s : State) : (clearLatch p s).pen = s.pen := (clearLatch_keeps p s).2.2.2.2.2.2.2.2.1
@[simp] theorem clearLatch_psr (p : List Byte) (s : State) : (clearLatch p s).psr = s.psr := (clearLatch_keeps p s).2.2.2.2.2.2.2.2.2

theorem submit_keeps (p : List Byte) (s : State) :
    (submit p s).pending = s.pending ∧ (submit p s).inReset = s.inReset ∧ (submit p s).scr = s.scr ∧ (submit p s).sct = s.sct ∧ (submit p s).pins = s.pins ∧ (submit p s).dir = s.dir ∧ (submit p s).degrees = s.degrees ∧ (submit p s).spm = s.spm ∧ (submit p s).org = s.org ∧ (submit p s).tdb = s.tdb ∧ (submit p s).psr = s.psr := by
  unfold submit
  try dsimp only
  repeat' apply And.intro
  all_goals (repeat' split) <;> simp
@[simp] theorem submit_pending (p : List Byte) (s : State) : (submit p s).pending = s.pending := (submit_keeps p s).1
@[simp] theorem submit_inReset (p : List Byte) (s : State) : (submit p s).inReset = s.inReset := (submit_keeps p s).2.1
@[simp] theorem submit_scr (p : List Byte) (s : State) : (submit p s).scr = s.scr := (submit_keeps p s).2.2.1
@[simp] theorem submit_sct (p : List Byte) (s : State) : (submit p s).sct = s.sct := (submit_keeps p s).2.2.2.1
@[simp] theorem submit_pins (p : List Byte) (s : State) : (submit p s).pins = s.pins := (submit_keeps p s).2.2.2.2.1
@[simp] theorem submit_dir (p : List Byte) (s : State) : (submit p s).dir = s.dir := (submit_keeps p s).2.2.2.2.2.1
@[simp] theorem submit_degrees (p : List Byte) (s : State) : (submit p s).degrees = s.degrees := (submit_keeps p s).2.2.2.2.2.2.1
@[simp] theorem submit_spm (p : List Byte) (s : State) : (submit p s).spm = s.spm := (submit_keeps p s).2.2.2.2.2.2.2.1
@[simp] theorem submit_org (p : List Byte) (s : State) : (submit p s).org = s.org := (submit_keeps p s).2.2.2.2.2.2.2.2.1
@[simp] theorem submit_tdb (p : List Byte) (s : State) : (submit p s).tdb = s.tdb := (submit_keeps p s).2.2.2.2.2.2.2.2.2.1
@[simp] theorem submit_psr (p : List Byte) (s : State) : (submit p s).psr = s.psr := (submit_keeps p s).2.2.2.2.2.2.2.2.2.2

theorem cancel_keeps (p : List Byte) (s : State) :
    (cancel p s).pending = s.pending ∧ (cancel p s).inReset = s.inReset ∧ (cancel p s).scr = s.scr ∧ (cancel p s).sct = s.sct ∧ (cancel p s).pins = s.pins ∧ (cancel p s).dir = s.dir ∧ (cancel p s).degrees = s.degrees ∧ (cancel p s).spm = s.spm ∧ (cancel p s).org = s.org ∧ (cancel p s).psr = s.psr := by
  unfold cancel
  try dsimp only
  repeat' apply And.intro
  all_goals (repeat' split) <;> (first | rfl | simp)
@[simp] theorem cancel_pending (p : List Byte) (s : State) : (cancel p s).pending = s.pending := (cancel_keeps p s).1
@[simp] theorem cancel_inReset (p : List Byte) (s : State) : (cancel p s).inReset = s.inReset := (cancel_keeps p s).2.1
@[simp] theorem cancel_scr (p : List Byte) (s : State) : (cancel p s).scr = s.scr := (cancel_keeps p s).2.2.1
@[simp] theorem cancel_sct (p : List Byte) (s : State) : (cancel p s).sct = s.sct := (cancel_keeps p s).2.2.2.1
@[simp] theorem cancel_pins (p : List Byte) (s : State) : (cancel p s).pins = s.pins := (cancel_keeps p s).2.2.2.2.1
@[simp] theorem cancel_dir (p : List Byte) (s : State) : (cancel p s).dir = s.dir := (cancel_keeps p s).2.2.2.2.2.1
@[simp] theorem cancel_degrees (p : List Byte) (s : State) : (cancel p s).degrees = s.degrees := (cancel_keeps p s).2.2.2.2.2.2.1
@[simp] theorem cancel_spm (p : List Byte) (s : State) : (cancel p s).spm = s.spm := (cancel_keeps p s).2.2.2.2.2.2.2.1
@[simp] theorem cancel_org (p : List Byte) (s : State) : (cancel p s).org = s.org := (cancel_keeps p s).2.2.2.2.2.2.2.2.1
@[simp] theorem cancel_psr (p : List Byte) (s : State) : (cancel p s).psr = s.psr := (cancel_keeps p s).2.2.2.2.2.2.2.2.2

theorem releaseSlot_keeps (p : List Byte) (s : State) :
    (releaseSlot p s).pending = s.pending ∧ (releaseSlot p s).inReset = s.inReset ∧ (releaseSlot p s).scr = s.scr ∧ (releaseSlot p s).pins = s.pins ∧ (releaseSlot p s).dir = s.dir ∧ (releaseSlot p s).degrees = s.degrees ∧ (releaseSlot p s).spm = s.spm ∧ (releaseSlot p s).org = s.org ∧ (releaseSlot p s).tdb = s.tdb ∧ (releaseSlot p s).reqQueue = s.reqQueue ∧ (releaseSlot p s).pen = s.pen ∧ (releaseSlot p s).psr = s.psr := by
  unfold releaseSlot
  try dsimp only
  repeat' apply And.intro
  all_goals (repeat' split) <;> simp
@[simp] theorem releaseSlot_pending (p : List Byte) (s : State) : (releaseSlot p s).pending = s.pending := (releaseSlot_keeps p s).1
@[simp] theorem releaseSlot_inReset (p : List Byte) (s : State) : (releaseSlot p s).inReset = s.inReset := (releaseSlot_keeps p s).2.1
@[simp] theorem releaseSlot_scr (p : List Byte) (s : State) : (releaseSlot p s).scr = s.scr := (releaseSlot_keeps p s).2.2.1
@[simp] theorem releaseSlot_pins (p : List Byte) (s : State) : (releaseSlot p s).pins = s.pins := (releaseSlot_keeps p s).2.2.2.1
@[simp] theorem releaseSlot_dir (p : List Byte) (s : State) : (releaseSlot p s).dir = s.dir := (releaseSlot_keeps p s).2.2.2.2.1
@[simp] theorem releaseSlot_degrees (p : List Byte) (s : State) : (releaseSlot p s).degrees = s.degrees := (releaseSlot_keeps p s).2.2.2.2.2.1
@[simp] theorem releaseSlot_spm (p : List Byte) (s : State) : (releaseSlot p s).spm = s.spm := (releaseSlot_keeps p s).2.2.2.2.2.2.1
@[simp] theorem releaseSlot_org (p : List Byte) (s : State) : (releaseSlot p s).org = s.org := (releaseSlot_keeps p s).2.2.2.2.2.2.2.1
@[simp] theorem releaseSlot_tdb (p : List Byte) (s : State) : (releaseSlot p s).tdb = s.tdb := (releaseSlot_keeps p s).2.2.2.2.2.2.2.2.1
@[simp] theorem releaseSlot_reqQueue (p : List Byte) (s : State) : (releaseSlot p s).reqQueue = s.reqQueue := (releaseSlot_keeps p s).2.2.2.2.2.2.2.2.2.1
@[simp] theorem releaseSlot_pen (p : List Byte) (s : State) : (releaseSlot p s).pen = s.pen := (releaseSlot_keeps p s).2.2.2.2.2.2.2.2.2.2.1
@[simp] theorem releaseSlot_psr (p : List Byte) (s : State) : (releaseSlot p s).psr = s.psr := (releaseSlot_keeps p s).2.2.2.2.2.2.2.2.2.2.2

theorem readSlot_keeps (p : List Byte) (s : State) :
    (readSlot p s).pending = s.pending ∧ (readSlot p s).inReset = s.inReset ∧ (readSlot p s).scr = s.scr ∧ (readSlot p s).sct = s.sct ∧ (readSlot p s).pins = s.pins ∧ (readSlot p s).dir = s.dir ∧ (readSlot p s).degrees = s.degrees ∧ (readSlot p s).spm = s.spm ∧ (readSlot p s).org = s.org ∧ (readSlot p s).tdb = s.tdb ∧ (readSlot p s).slots = s.slots ∧ (readSlot p s).reqQueue = s.reqQueue ∧ (readSlot p s).pen = s.pen ∧ (readSlot p s).ntf = s.ntf ∧ (readSlot p s).psr = s.psr := by
  unfold readSlot
  try dsimp only
  repeat' apply And.intro
  all_goals (repeat' split) <;> simp
@[simp] theorem readSlot_pending (p : List Byte) (s : State) : (readSlot p s).pending = s.pending := (readSlot_keeps p s).1
@[simp] theorem readSlot_inReset (p : List Byte) (s : State) : (readSlot p s).inReset = s.inReset := (readSlot_keeps p s).2.1
@[simp] theorem readSlot_scr (p : List Byte) (s : State) : (readSlot p s).scr = s.scr := (readSlot_keeps p s).2.2.1
@[simp] theorem readSlot_sct (p : List Byte) (s : State) : (readSlot p s).sct = s.sct := (readSlot_keeps p s).2.2.2.1
@[simp] theorem readSlot_pins (p : List Byte) (s : State) : (readSlot p s).pins = s.pins := (readSlot_keeps p s).2.2.2.2.1
@[simp] theorem readSlot_dir (p : List Byte) (s : State) : (readSlot p s).dir = s.dir := (readSlot_keeps p s).2.2.2.2.2.1
@[simp] theorem readSlot_degrees (p : List Byte) (s : State) : (readSlot p s).degrees = s.degrees := (readSlot_keeps p s).2.2.2.2.2.2.1
@[simp] theorem readSlot_spm (p : List Byte) (s : State) : (readSlot p s).spm = s.spm := (readSlot_keeps p s).2.2.2.2.2.2.2.1
@[simp] theorem readSlot_org (p : List Byte) (s : State) : (readSlot p s).org = s.org := (readSlot_keeps p s).2.2.2.2.2.2.2.2.1
@[simp] theorem readSlot_tdb (p : List Byte) (s : State) : (readSlot p s).tdb = s.tdb := (readSlot_keeps p s).2.2.2.2.2.2.2.2.2.1
@[simp] theorem readSlot_slots (p : List Byte) (s : State) : (readSlot p s).slots = s.slots := (readSlot_keeps p s).2.2.2.2.2.2.2.2.2.2.1
@[simp] theorem readSlot_reqQueue (p : List Byte) (s : State) : (readSlot p s).reqQueue = s.reqQueue := (readSlot_keeps p s).2.2.2.2.2.2.2.2.2.2.2.1
@[simp] theorem readSlot_pen (p : List Byte) (s : State) : (readSlot p s).pen = s.pen := (readSlot_keeps p s).2.2.2.2.2.2.2.2.2.2.2.2.1
@[simp] theorem readSlot_ntf (p : List Byte) (s : State) : (readSlot p s).ntf = s.ntf := (readSlot_keeps p s).2.2.2.2.2.2.2.2.2.2.2.2.2.1
@[simp] theorem readSlot_psr (p : List Byte) (s : State) : (readSlot p s).psr = s.psr := (readSlot_keeps p s).2.2.2.2.2.2.2.2.2.2.2.2.2.2

theorem claimPath_keeps (i pr : Nat) (ps : List Pair) (s : State) :
    (claimPath i pr ps s).pending = s.pending ∧ (claimPath i pr ps s).inReset = s.inReset ∧ (claimPath i pr ps s).scr = s.scr ∧ (claimPath i pr ps s).pins = s.pins ∧ (claimPath i pr ps s).dir = s.dir ∧ (claimPath i pr ps s).degrees = s.degrees ∧ (claimPath i pr ps s).spm = s.spm ∧ (claimPath i pr ps s).org = s.org ∧ (claimPath i pr ps s).tdb = s.tdb ∧ (claimPath i pr ps s).reqQueue = s.reqQueue ∧ (claimPath i pr ps s).pen = s.pen ∧ (claimPath i pr ps s).psr = s.psr := by
  unfold claimPath
  (repeat' split) <;> simp
@[simp] theorem claimPath_pending (i pr : Nat) (ps : List Pair) (s : State) : (claimPath i pr ps s).pending = s.pending := (claimPath_keeps i pr ps s).1
@[simp] theorem claimPath_inReset (i pr : Nat) (ps : List Pair) (s : State) : (claimPath i pr ps s).inReset = s.inReset := (claimPath_keeps i pr ps s).2.1
@[simp] theorem claimPath_scr (i pr : Nat) (ps : List Pair) (s : State) : (claimPath i pr ps s).scr = s.scr := (claimPath_keeps i pr ps s).2.2.1
@[simp] theorem claimPath_pins (i pr : Nat) (ps : List Pair) (s : State) : (claimPath i pr ps s).pins = s.pins := (claimPath_keeps i pr ps s).2.2.2.1
@[simp] theorem claimPath_dir (i pr : Nat) (ps : List Pair) (s : State) : (claimPath i pr ps s).dir = s.dir := (claimPath_keeps i pr ps s).2.2.2.2.1
@[simp] theorem claimPath_degrees (i pr : Nat) (ps : List Pair) (s : State) : (claimPath i pr ps s).degrees = s.degrees := (claimPath_keeps i pr ps s).2.2.2.2.2.1
@[simp] theorem claimPath_spm (i pr : Nat) (ps : List Pair) (s : State) : (claimPath i pr ps s).spm = s.spm := (claimPath_keeps i pr ps s).2.2.2.2.2.2.1
@[simp] theorem claimPath_org (i pr : Nat) (ps : List Pair) (s : State) : (claimPath i pr ps s).org = s.org := (claimPath_keeps i pr ps s).2.2.2.2.2.2.2.1
@[simp] theorem claimPath_tdb (i pr : Nat) (ps : List Pair) (s : State) : (claimPath i pr ps s).tdb = s.tdb := (claimPath_keeps i pr ps s).2.2.2.2.2.2.2.2.1
@[simp] theorem claimPath_reqQueue (i pr : Nat) (ps : List Pair) (s : State) : (claimPath i pr ps s).reqQueue = s.reqQueue := (claimPath_keeps i pr ps s).2.2.2.2.2.2.2.2.2.1
@[simp] theorem claimPath_pen (i pr : Nat) (ps : List Pair) (s : State) : (claimPath i pr ps s).pen = s.pen := (claimPath_keeps i pr ps s).2.2.2.2.2.2.2.2.2.2.1
@[simp] theorem claimPath_psr (i pr : Nat) (ps : List Pair) (s : State) : (claimPath i pr ps s).psr = s.psr := (claimPath_keeps i pr ps s).2.2.2.2.2.2.2.2.2.2.2

theorem commitIntent_keeps (p : List Byte) (s : State) :
    (commitIntent p s).pending = s.pending ∧ (commitIntent p s).inReset = s.inReset ∧ (commitIntent p s).scr = s.scr ∧ (commitIntent p s).pins = s.pins ∧ (commitIntent p s).dir = s.dir ∧ (commitIntent p s).degrees = s.degrees ∧ (commitIntent p s).spm = s.spm ∧ (commitIntent p s).org = s.org ∧ (commitIntent p s).tdb = s.tdb ∧ (commitIntent p s).reqQueue = s.reqQueue ∧ (commitIntent p s).pen = s.pen ∧ (commitIntent p s).psr = s.psr := by
  unfold commitIntent
  try dsimp only
  repeat' apply And.intro
  all_goals (repeat' split) <;> simp
@[simp] theorem commitIntent_pending (p : List Byte) (s : State) : (commitIntent p s).pending = s.pending := (commitIntent_keeps p s).1
@[simp] theorem commitIntent_inReset (p : List Byte) (s : State) : (commitIntent p s).inReset = s.inReset := (commitIntent_keeps p s).2.1
@[simp] theorem commitIntent_scr (p : List Byte) (s : State) : (commitIntent p s).scr = s.scr := (commitIntent_keeps p s).2.2.1
@[simp] theorem commitIntent_pins (p : List Byte) (s : State) : (commitIntent p s).pins = s.pins := (commitIntent_keeps p s).2.2.2.1
@[simp] theorem commitIntent_dir (p : List Byte) (s : State) : (commitIntent p s).dir = s.dir := (commitIntent_keeps p s).2.2.2.2.1
@[simp] theorem commitIntent_degrees (p : List Byte) (s : State) : (commitIntent p s).degrees = s.degrees := (commitIntent_keeps p s).2.2.2.2.2.1
@[simp] theorem commitIntent_spm (p : List Byte) (s : State) : (commitIntent p s).spm = s.spm := (commitIntent_keeps p s).2.2.2.2.2.2.1
@[simp] theorem commitIntent_org (p : List Byte) (s : State) : (commitIntent p s).org = s.org := (commitIntent_keeps p s).2.2.2.2.2.2.2.1
@[simp] theorem commitIntent_tdb (p : List Byte) (s : State) : (commitIntent p s).tdb = s.tdb := (commitIntent_keeps p s).2.2.2.2.2.2.2.2.1
@[simp] theorem commitIntent_reqQueue (p : List Byte) (s : State) : (commitIntent p s).reqQueue = s.reqQueue := (commitIntent_keeps p s).2.2.2.2.2.2.2.2.2.1
@[simp] theorem commitIntent_pen (p : List Byte) (s : State) : (commitIntent p s).pen = s.pen := (commitIntent_keeps p s).2.2.2.2.2.2.2.2.2.2.1
@[simp] theorem commitIntent_psr (p : List Byte) (s : State) : (commitIntent p s).psr = s.psr := (commitIntent_keeps p s).2.2.2.2.2.2.2.2.2.2.2

theorem withdraw_keeps (p : List Byte) (s : State) :
    (withdraw p s).pending = s.pending ∧ (withdraw p s).inReset = s.inReset ∧ (withdraw p s).scr = s.scr ∧ (withdraw p s).pins = s.pins ∧ (withdraw p s).dir = s.dir ∧ (withdraw p s).degrees = s.degrees ∧ (withdraw p s).spm = s.spm ∧ (withdraw p s).org = s.org ∧ (withdraw p s).tdb = s.tdb ∧ (withdraw p s).reqQueue = s.reqQueue ∧ (withdraw p s).pen = s.pen ∧ (withdraw p s).psr = s.psr := by
  unfold withdraw
  try dsimp only
  repeat' apply And.intro
  all_goals (repeat' split) <;> simp
@[simp] theorem withdraw_pending (p : List Byte) (s : State) : (withdraw p s).pending = s.pending := (withdraw_keeps p s).1
@[simp] theorem withdraw_inReset (p : List Byte) (s : State) : (withdraw p s).inReset = s.inReset := (withdraw_keeps p s).2.1
@[simp] theorem withdraw_scr (p : List Byte) (s : State) : (withdraw p s).scr = s.scr := (withdraw_keeps p s).2.2.1
@[simp] theorem withdraw_pins (p : List Byte) (s : State) : (withdraw p s).pins = s.pins := (withdraw_keeps p s).2.2.2.1
@[simp] theorem withdraw_dir (p : List Byte) (s : State) : (withdraw p s).dir = s.dir := (withdraw_keeps p s).2.2.2.2.1
@[simp] theorem withdraw_degrees (p : List Byte) (s : State) : (withdraw p s).degrees = s.degrees := (withdraw_keeps p s).2.2.2.2.2.1
@[simp] theorem withdraw_spm (p : List Byte) (s : State) : (withdraw p s).spm = s.spm := (withdraw_keeps p s).2.2.2.2.2.2.1
@[simp] theorem withdraw_org (p : List Byte) (s : State) : (withdraw p s).org = s.org := (withdraw_keeps p s).2.2.2.2.2.2.2.1
@[simp] theorem withdraw_tdb (p : List Byte) (s : State) : (withdraw p s).tdb = s.tdb := (withdraw_keeps p s).2.2.2.2.2.2.2.2.1
@[simp] theorem withdraw_reqQueue (p : List Byte) (s : State) : (withdraw p s).reqQueue = s.reqQueue := (withdraw_keeps p s).2.2.2.2.2.2.2.2.2.1
@[simp] theorem withdraw_pen (p : List Byte) (s : State) : (withdraw p s).pen = s.pen := (withdraw_keeps p s).2.2.2.2.2.2.2.2.2.2.1
@[simp] theorem withdraw_psr (p : List Byte) (s : State) : (withdraw p s).psr = s.psr := (withdraw_keeps p s).2.2.2.2.2.2.2.2.2.2.2

theorem forceEpoch_keeps (p : List Byte) (s : State) :
    (forceEpoch p s).pending = s.pending ∧ (forceEpoch p s).inReset = s.inReset ∧ (forceEpoch p s).scr = s.scr ∧ (forceEpoch p s).sct = s.sct ∧ (forceEpoch p s).pins = s.pins ∧ (forceEpoch p s).dir = s.dir ∧ (forceEpoch p s).degrees = s.degrees ∧ (forceEpoch p s).spm = s.spm ∧ (forceEpoch p s).org = s.org ∧ (forceEpoch p s).psr = s.psr := by
  unfold forceEpoch
  (repeat' split) <;> simp
@[simp] theorem forceEpoch_pending (p : List Byte) (s : State) : (forceEpoch p s).pending = s.pending := (forceEpoch_keeps p s).1
@[simp] theorem forceEpoch_inReset (p : List Byte) (s : State) : (forceEpoch p s).inReset = s.inReset := (forceEpoch_keeps p s).2.1
@[simp] theorem forceEpoch_scr (p : List Byte) (s : State) : (forceEpoch p s).scr = s.scr := (forceEpoch_keeps p s).2.2.1
@[simp] theorem forceEpoch_sct (p : List Byte) (s : State) : (forceEpoch p s).sct = s.sct := (forceEpoch_keeps p s).2.2.2.1
@[simp] theorem forceEpoch_pins (p : List Byte) (s : State) : (forceEpoch p s).pins = s.pins := (forceEpoch_keeps p s).2.2.2.2.1
@[simp] theorem forceEpoch_dir (p : List Byte) (s : State) : (forceEpoch p s).dir = s.dir := (forceEpoch_keeps p s).2.2.2.2.2.1
@[simp] theorem forceEpoch_degrees (p : List Byte) (s : State) : (forceEpoch p s).degrees = s.degrees := (forceEpoch_keeps p s).2.2.2.2.2.2.1
@[simp] theorem forceEpoch_spm (p : List Byte) (s : State) : (forceEpoch p s).spm = s.spm := (forceEpoch_keeps p s).2.2.2.2.2.2.2.1
@[simp] theorem forceEpoch_org (p : List Byte) (s : State) : (forceEpoch p s).org = s.org := (forceEpoch_keeps p s).2.2.2.2.2.2.2.2.1
@[simp] theorem forceEpoch_psr (p : List Byte) (s : State) : (forceEpoch p s).psr = s.psr := (forceEpoch_keeps p s).2.2.2.2.2.2.2.2.2

theorem muteCommand_keeps (p : List Byte) (s : State) :
    (muteCommand p s).pending = s.pending ∧ (muteCommand p s).inReset = s.inReset ∧ (muteCommand p s).scr = s.scr ∧ (muteCommand p s).pins = s.pins ∧ (muteCommand p s).dir = s.dir ∧ (muteCommand p s).degrees = s.degrees ∧ (muteCommand p s).spm = s.spm ∧ (muteCommand p s).org = s.org ∧ (muteCommand p s).tdb = s.tdb ∧ (muteCommand p s).reqQueue = s.reqQueue ∧ (muteCommand p s).pen = s.pen ∧ (muteCommand p s).psr = s.psr := by
  unfold muteCommand
  (repeat' split) <;> simp
@[simp] theorem muteCommand_pending (p : List Byte) (s : State) : (muteCommand p s).pending = s.pending := (muteCommand_keeps p s).1
@[simp] theorem muteCommand_inReset (p : List Byte) (s : State) : (muteCommand p s).inReset = s.inReset := (muteCommand_keeps p s).2.1
@[simp] theorem muteCommand_scr (p : List Byte) (s : State) : (muteCommand p s).scr = s.scr := (muteCommand_keeps p s).2.2.1
@[simp] theorem muteCommand_pins (p : List Byte) (s : State) : (muteCommand p s).pins = s.pins := (muteCommand_keeps p s).2.2.2.1
@[simp] theorem muteCommand_dir (p : List Byte) (s : State) : (muteCommand p s).dir = s.dir := (muteCommand_keeps p s).2.2.2.2.1
@[simp] theorem muteCommand_degrees (p : List Byte) (s : State) : (muteCommand p s).degrees = s.degrees := (muteCommand_keeps p s).2.2.2.2.2.1
@[simp] theorem muteCommand_spm (p : List Byte) (s : State) : (muteCommand p s).spm = s.spm := (muteCommand_keeps p s).2.2.2.2.2.2.1
@[simp] theorem muteCommand_org (p : List Byte) (s : State) : (muteCommand p s).org = s.org := (muteCommand_keeps p s).2.2.2.2.2.2.2.1
@[simp] theorem muteCommand_tdb (p : List Byte) (s : State) : (muteCommand p s).tdb = s.tdb := (muteCommand_keeps p s).2.2.2.2.2.2.2.2.1
@[simp] theorem muteCommand_reqQueue (p : List Byte) (s : State) : (muteCommand p s).reqQueue = s.reqQueue := (muteCommand_keeps p s).2.2.2.2.2.2.2.2.2.1
@[simp] theorem muteCommand_pen (p : List Byte) (s : State) : (muteCommand p s).pen = s.pen := (muteCommand_keeps p s).2.2.2.2.2.2.2.2.2.2.1
@[simp] theorem muteCommand_psr (p : List Byte) (s : State) : (muteCommand p s).psr = s.psr := (muteCommand_keeps p s).2.2.2.2.2.2.2.2.2.2.2

theorem clearMuteCommand_keeps (p : List Byte) (s : State) :
    (clearMuteCommand p s).pending = s.pending ∧ (clearMuteCommand p s).inReset = s.inReset ∧ (clearMuteCommand p s).scr = s.scr ∧ (clearMuteCommand p s).pins = s.pins ∧ (clearMuteCommand p s).dir = s.dir ∧ (clearMuteCommand p s).degrees = s.degrees ∧ (clearMuteCommand p s).spm = s.spm ∧ (clearMuteCommand p s).org = s.org ∧ (clearMuteCommand p s).tdb = s.tdb ∧ (clearMuteCommand p s).slots = s.slots ∧ (clearMuteCommand p s).reqQueue = s.reqQueue ∧ (clearMuteCommand p s).pen = s.pen ∧ (clearMuteCommand p s).ntf = s.ntf ∧ (clearMuteCommand p s).psr = s.psr := by
  unfold clearMuteCommand
  (repeat' split) <;> simp
@[simp] theorem clearMuteCommand_pending (p : List Byte) (s : State) : (clearMuteCommand p s).pending = s.pending := (clearMuteCommand_keeps p s).1
@[simp] theorem clearMuteCommand_inReset (p : List Byte) (s : State) : (clearMuteCommand p s).inReset = s.inReset := (clearMuteCommand_keeps p s).2.1
@[simp] theorem clearMuteCommand_scr (p : List Byte) (s : State) : (clearMuteCommand p s).scr = s.scr := (clearMuteCommand_keeps p s).2.2.1
@[simp] theorem clearMuteCommand_pins (p : List Byte) (s : State) : (clearMuteCommand p s).pins = s.pins := (clearMuteCommand_keeps p s).2.2.2.1
@[simp] theorem clearMuteCommand_dir (p : List Byte) (s : State) : (clearMuteCommand p s).dir = s.dir := (clearMuteCommand_keeps p s).2.2.2.2.1
@[simp] theorem clearMuteCommand_degrees (p : List Byte) (s : State) : (clearMuteCommand p s).degrees = s.degrees := (clearMuteCommand_keeps p s).2.2.2.2.2.1
@[simp] theorem clearMuteCommand_spm (p : List Byte) (s : State) : (clearMuteCommand p s).spm = s.spm := (clearMuteCommand_keeps p s).2.2.2.2.2.2.1
@[simp] theorem clearMuteCommand_org (p : List Byte) (s : State) : (clearMuteCommand p s).org = s.org := (clearMuteCommand_keeps p s).2.2.2.2.2.2.2.1
@[simp] theorem clearMuteCommand_tdb (p : List Byte) (s : State) : (clearMuteCommand p s).tdb = s.tdb := (clearMuteCommand_keeps p s).2.2.2.2.2.2.2.2.1
@[simp] theorem clearMuteCommand_slots (p : List Byte) (s : State) : (clearMuteCommand p s).slots = s.slots := (clearMuteCommand_keeps p s).2.2.2.2.2.2.2.2.2.1
@[simp] theorem clearMuteCommand_reqQueue (p : List Byte) (s : State) : (clearMuteCommand p s).reqQueue = s.reqQueue := (clearMuteCommand_keeps p s).2.2.2.2.2.2.2.2.2.2.1
@[simp] theorem clearMuteCommand_pen (p : List Byte) (s : State) : (clearMuteCommand p s).pen = s.pen := (clearMuteCommand_keeps p s).2.2.2.2.2.2.2.2.2.2.2.1
@[simp] theorem clearMuteCommand_ntf (p : List Byte) (s : State) : (clearMuteCommand p s).ntf = s.ntf := (clearMuteCommand_keeps p s).2.2.2.2.2.2.2.2.2.2.2.2.1
@[simp] theorem clearMuteCommand_psr (p : List Byte) (s : State) : (clearMuteCommand p s).psr = s.psr := (clearMuteCommand_keeps p s).2.2.2.2.2.2.2.2.2.2.2.2.2

theorem setEnables_keeps (p : List Byte) (s : State) :
    (setEnables p s).pending = s.pending ∧ (setEnables p s).inReset = s.inReset ∧ (setEnables p s).scr = s.scr ∧ (setEnables p s).sct = s.sct ∧ (setEnables p s).pins = s.pins ∧ (setEnables p s).dir = s.dir ∧ (setEnables p s).degrees = s.degrees ∧ (setEnables p s).spm = s.spm ∧ (setEnables p s).org = s.org ∧ (setEnables p s).tdb = s.tdb ∧ (setEnables p s).slots = s.slots ∧ (setEnables p s).reqQueue = s.reqQueue ∧ (setEnables p s).pen = s.pen ∧ (setEnables p s).psr = s.psr := by
  unfold setEnables
  try dsimp only
  repeat' apply And.intro
  all_goals (repeat' split) <;> simp [setNtf]
@[simp] theorem setEnables_pending (p : List Byte) (s : State) : (setEnables p s).pending = s.pending := (setEnables_keeps p s).1
@[simp] theorem setEnables_inReset (p : List Byte) (s : State) : (setEnables p s).inReset = s.inReset := (setEnables_keeps p s).2.1
@[simp] theorem setEnables_scr (p : List Byte) (s : State) : (setEnables p s).scr = s.scr := (setEnables_keeps p s).2.2.1
@[simp] theorem setEnables_sct (p : List Byte) (s : State) : (setEnables p s).sct = s.sct := (setEnables_keeps p s).2.2.2.1
@[simp] theorem setEnables_pins (p : List Byte) (s : State) : (setEnables p s).pins = s.pins := (setEnables_keeps p s).2.2.2.2.1
@[simp] theorem setEnables_dir (p : List Byte) (s : State) : (setEnables p s).dir = s.dir := (setEnables_keeps p s).2.2.2.2.2.1
@[simp] theorem setEnables_degrees (p : List Byte) (s : State) : (setEnables p s).degrees = s.degrees := (setEnables_keeps p s).2.2.2.2.2.2.1
@[simp] theorem setEnables_spm (p : List Byte) (s : State) : (setEnables p s).spm = s.spm := (setEnables_keeps p s).2.2.2.2.2.2.2.1
@[simp] theorem setEnables_org (p : List Byte) (s : State) : (setEnables p s).org = s.org := (setEnables_keeps p s).2.2.2.2.2.2.2.2.1
@[simp] theorem setEnables_tdb (p : List Byte) (s : State) : (setEnables p s).tdb = s.tdb := (setEnables_keeps p s).2.2.2.2.2.2.2.2.2.1
@[simp] theorem setEnables_slots (p : List Byte) (s : State) : (setEnables p s).slots = s.slots := (setEnables_keeps p s).2.2.2.2.2.2.2.2.2.2.1
@[simp] theorem setEnables_reqQueue (p : List Byte) (s : State) : (setEnables p s).reqQueue = s.reqQueue := (setEnables_keeps p s).2.2.2.2.2.2.2.2.2.2.2.1
@[simp] theorem setEnables_pen (p : List Byte) (s : State) : (setEnables p s).pen = s.pen := (setEnables_keeps p s).2.2.2.2.2.2.2.2.2.2.2.2.1
@[simp] theorem setEnables_psr (p : List Byte) (s : State) : (setEnables p s).psr = s.psr := (setEnables_keeps p s).2.2.2.2.2.2.2.2.2.2.2.2.2

theorem clearIndications_keeps (p : List Byte) (s : State) :
    (clearIndications p s).pending = s.pending ∧ (clearIndications p s).inReset = s.inReset ∧ (clearIndications p s).scr = s.scr ∧ (clearIndications p s).sct = s.sct ∧ (clearIndications p s).pins = s.pins ∧ (clearIndications p s).dir = s.dir ∧ (clearIndications p s).degrees = s.degrees ∧ (clearIndications p s).spm = s.spm ∧ (clearIndications p s).org = s.org ∧ (clearIndications p s).tdb = s.tdb ∧ (clearIndications p s).slots = s.slots ∧ (clearIndications p s).reqQueue = s.reqQueue ∧ (clearIndications p s).pen = s.pen ∧ (clearIndications p s).psr = s.psr := by
  unfold clearIndications
  try dsimp only
  repeat' apply And.intro
  all_goals (repeat' split) <;> simp [setNtf]
@[simp] theorem clearIndications_pending (p : List Byte) (s : State) : (clearIndications p s).pending = s.pending := (clearIndications_keeps p s).1
@[simp] theorem clearIndications_inReset (p : List Byte) (s : State) : (clearIndications p s).inReset = s.inReset := (clearIndications_keeps p s).2.1
@[simp] theorem clearIndications_scr (p : List Byte) (s : State) : (clearIndications p s).scr = s.scr := (clearIndications_keeps p s).2.2.1
@[simp] theorem clearIndications_sct (p : List Byte) (s : State) : (clearIndications p s).sct = s.sct := (clearIndications_keeps p s).2.2.2.1
@[simp] theorem clearIndications_pins (p : List Byte) (s : State) : (clearIndications p s).pins = s.pins := (clearIndications_keeps p s).2.2.2.2.1
@[simp] theorem clearIndications_dir (p : List Byte) (s : State) : (clearIndications p s).dir = s.dir := (clearIndications_keeps p s).2.2.2.2.2.1
@[simp] theorem clearIndications_degrees (p : List Byte) (s : State) : (clearIndications p s).degrees = s.degrees := (clearIndications_keeps p s).2.2.2.2.2.2.1
@[simp] theorem clearIndications_spm (p : List Byte) (s : State) : (clearIndications p s).spm = s.spm := (clearIndications_keeps p s).2.2.2.2.2.2.2.1
@[simp] theorem clearIndications_org (p : List Byte) (s : State) : (clearIndications p s).org = s.org := (clearIndications_keeps p s).2.2.2.2.2.2.2.2.1
@[simp] theorem clearIndications_tdb (p : List Byte) (s : State) : (clearIndications p s).tdb = s.tdb := (clearIndications_keeps p s).2.2.2.2.2.2.2.2.2.1
@[simp] theorem clearIndications_slots (p : List Byte) (s : State) : (clearIndications p s).slots = s.slots := (clearIndications_keeps p s).2.2.2.2.2.2.2.2.2.2.1
@[simp] theorem clearIndications_reqQueue (p : List Byte) (s : State) : (clearIndications p s).reqQueue = s.reqQueue := (clearIndications_keeps p s).2.2.2.2.2.2.2.2.2.2.2.1
@[simp] theorem clearIndications_pen (p : List Byte) (s : State) : (clearIndications p s).pen = s.pen := (clearIndications_keeps p s).2.2.2.2.2.2.2.2.2.2.2.2.1
@[simp] theorem clearIndications_psr (p : List Byte) (s : State) : (clearIndications p s).psr = s.psr := (clearIndications_keeps p s).2.2.2.2.2.2.2.2.2.2.2.2.2

theorem readStoreWord_keeps (p : List Byte) (s : State) :
    (readStoreWord p s).pending = s.pending ∧ (readStoreWord p s).inReset = s.inReset ∧ (readStoreWord p s).scr = s.scr ∧ (readStoreWord p s).sct = s.sct ∧ (readStoreWord p s).pins = s.pins ∧ (readStoreWord p s).dir = s.dir ∧ (readStoreWord p s).degrees = s.degrees ∧ (readStoreWord p s).spm = s.spm ∧ (readStoreWord p s).org = s.org ∧ (readStoreWord p s).tdb = s.tdb ∧ (readStoreWord p s).slots = s.slots ∧ (readStoreWord p s).reqQueue = s.reqQueue ∧ (readStoreWord p s).pen = s.pen ∧ (readStoreWord p s).ntf = s.ntf ∧ (readStoreWord p s).psr = s.psr := by
  unfold readStoreWord
  try dsimp only
  repeat' apply And.intro
  all_goals (repeat' split) <;> simp
@[simp] theorem readStoreWord_pending (p : List Byte) (s : State) : (readStoreWord p s).pending = s.pending := (readStoreWord_keeps p s).1
@[simp] theorem readStoreWord_inReset (p : List Byte) (s : State) : (readStoreWord p s).inReset = s.inReset := (readStoreWord_keeps p s).2.1
@[simp] theorem readStoreWord_scr (p : List Byte) (s : State) : (readStoreWord p s).scr = s.scr := (readStoreWord_keeps p s).2.2.1
@[simp] theorem readStoreWord_sct (p : List Byte) (s : State) : (readStoreWord p s).sct = s.sct := (readStoreWord_keeps p s).2.2.2.1
@[simp] theorem readStoreWord_pins (p : List Byte) (s : State) : (readStoreWord p s).pins = s.pins := (readStoreWord_keeps p s).2.2.2.2.1
@[simp] theorem readStoreWord_dir (p : List Byte) (s : State) : (readStoreWord p s).dir = s.dir := (readStoreWord_keeps p s).2.2.2.2.2.1
@[simp] theorem readStoreWord_degrees (p : List Byte) (s : State) : (readStoreWord p s).degrees = s.degrees := (readStoreWord_keeps p s).2.2.2.2.2.2.1
@[simp] theorem readStoreWord_spm (p : List Byte) (s : State) : (readStoreWord p s).spm = s.spm := (readStoreWord_keeps p s).2.2.2.2.2.2.2.1
@[simp] theorem readStoreWord_org (p : List Byte) (s : State) : (readStoreWord p s).org = s.org := (readStoreWord_keeps p s).2.2.2.2.2.2.2.2.1
@[simp] theorem readStoreWord_tdb (p : List Byte) (s : State) : (readStoreWord p s).tdb = s.tdb := (readStoreWord_keeps p s).2.2.2.2.2.2.2.2.2.1
@[simp] theorem readStoreWord_slots (p : List Byte) (s : State) : (readStoreWord p s).slots = s.slots := (readStoreWord_keeps p s).2.2.2.2.2.2.2.2.2.2.1
@[simp] theorem readStoreWord_reqQueue (p : List Byte) (s : State) : (readStoreWord p s).reqQueue = s.reqQueue := (readStoreWord_keeps p s).2.2.2.2.2.2.2.2.2.2.2.1
@[simp] theorem readStoreWord_pen (p : List Byte) (s : State) : (readStoreWord p s).pen = s.pen := (readStoreWord_keeps p s).2.2.2.2.2.2.2.2.2.2.2.2.1
@[simp] theorem readStoreWord_ntf (p : List Byte) (s : State) : (readStoreWord p s).ntf = s.ntf := (readStoreWord_keeps p s).2.2.2.2.2.2.2.2.2.2.2.2.2.1
@[simp] theorem readStoreWord_psr (p : List Byte) (s : State) : (readStoreWord p s).psr = s.psr := (readStoreWord_keeps p s).2.2.2.2.2.2.2.2.2.2.2.2.2.2

theorem writeStoreWord_keeps (p : List Byte) (s : State) :
    (writeStoreWord p s).pending = s.pending ∧ (writeStoreWord p s).inReset = s.inReset ∧ (writeStoreWord p s).scr = s.scr ∧ (writeStoreWord p s).sct = s.sct ∧ (writeStoreWord p s).pins = s.pins ∧ (writeStoreWord p s).dir = s.dir ∧ (writeStoreWord p s).degrees = s.degrees ∧ (writeStoreWord p s).spm = s.spm ∧ (writeStoreWord p s).org = s.org ∧ (writeStoreWord p s).tdb = s.tdb ∧ (writeStoreWord p s).slots = s.slots ∧ (writeStoreWord p s).reqQueue = s.reqQueue ∧ (writeStoreWord p s).pen = s.pen ∧ (writeStoreWord p s).ntf = s.ntf := by
  unfold writeStoreWord
  try dsimp only
  repeat' apply And.intro
  all_goals (repeat' split) <;> simp
@[simp] theorem writeStoreWord_pending (p : List Byte) (s : State) : (writeStoreWord p s).pending = s.pending := (writeStoreWord_keeps p s).1
@[simp] theorem writeStoreWord_inReset (p : List Byte) (s : State) : (writeStoreWord p s).inReset = s.inReset := (writeStoreWord_keeps p s).2.1
@[simp] theorem writeStoreWord_scr (p : List Byte) (s : State) : (writeStoreWord p s).scr = s.scr := (writeStoreWord_keeps p s).2.2.1
@[simp] theorem writeStoreWord_sct (p : List Byte) (s : State) : (writeStoreWord p s).sct = s.sct := (writeStoreWord_keeps p s).2.2.2.1
@[simp] theorem writeStoreWord_pins (p : List Byte) (s : State) : (writeStoreWord p s).pins = s.pins := (writeStoreWord_keeps p s).2.2.2.2.1
@[simp] theorem writeStoreWord_dir (p : List Byte) (s : State) : (writeStoreWord p s).dir = s.dir := (writeStoreWord_keeps p s).2.2.2.2.2.1
@[simp] theorem writeStoreWord_degrees (p : List Byte) (s : State) : (writeStoreWord p s).degrees = s.degrees := (writeStoreWord_keeps p s).2.2.2.2.2.2.1
@[simp] theorem writeStoreWord_spm (p : List Byte) (s : State) : (writeStoreWord p s).spm = s.spm := (writeStoreWord_keeps p s).2.2.2.2.2.2.2.1
@[simp] theorem writeStoreWord_org (p : List Byte) (s : State) : (writeStoreWord p s).org = s.org := (writeStoreWord_keeps p s).2.2.2.2.2.2.2.2.1
@[simp] theorem writeStoreWord_tdb (p : List Byte) (s : State) : (writeStoreWord p s).tdb = s.tdb := (writeStoreWord_keeps p s).2.2.2.2.2.2.2.2.2.1
@[simp] theorem writeStoreWord_slots (p : List Byte) (s : State) : (writeStoreWord p s).slots = s.slots := (writeStoreWord_keeps p s).2.2.2.2.2.2.2.2.2.2.1
@[simp] theorem writeStoreWord_reqQueue (p : List Byte) (s : State) : (writeStoreWord p s).reqQueue = s.reqQueue := (writeStoreWord_keeps p s).2.2.2.2.2.2.2.2.2.2.2.1
@[simp] theorem writeStoreWord_pen (p : List Byte) (s : State) : (writeStoreWord p s).pen = s.pen := (writeStoreWord_keeps p s).2.2.2.2.2.2.2.2.2.2.2.2.1
@[simp] theorem writeStoreWord_ntf (p : List Byte) (s : State) : (writeStoreWord p s).ntf = s.ntf := (writeStoreWord_keeps p s).2.2.2.2.2.2.2.2.2.2.2.2.2

theorem startStation_keeps (x : BitVec 3) (p : List Byte) (s : State) :
    (startStation x p s).pending = s.pending ∧ (startStation x p s).inReset = s.inReset ∧ (startStation x p s).scr = s.scr ∧ (startStation x p s).pins = s.pins ∧ (startStation x p s).degrees = s.degrees ∧ (startStation x p s).spm = s.spm ∧ (startStation x p s).org = s.org ∧ (startStation x p s).tdb = s.tdb ∧ (startStation x p s).slots = s.slots ∧ (startStation x p s).reqQueue = s.reqQueue ∧ (startStation x p s).pen = s.pen ∧ (startStation x p s).psr = s.psr := by
  unfold startStation
  (repeat' split) <;> simp
@[simp] theorem startStation_pending (x : BitVec 3) (p : List Byte) (s : State) : (startStation x p s).pending = s.pending := (startStation_keeps x p s).1
@[simp] theorem startStation_inReset (x : BitVec 3) (p : List Byte) (s : State) : (startStation x p s).inReset = s.inReset := (startStation_keeps x p s).2.1
@[simp] theorem startStation_scr (x : BitVec 3) (p : List Byte) (s : State) : (startStation x p s).scr = s.scr := (startStation_keeps x p s).2.2.1
@[simp] theorem startStation_pins (x : BitVec 3) (p : List Byte) (s : State) : (startStation x p s).pins = s.pins := (startStation_keeps x p s).2.2.2.1
@[simp] theorem startStation_degrees (x : BitVec 3) (p : List Byte) (s : State) : (startStation x p s).degrees = s.degrees := (startStation_keeps x p s).2.2.2.2.1
@[simp] theorem startStation_spm (x : BitVec 3) (p : List Byte) (s : State) : (startStation x p s).spm = s.spm := (startStation_keeps x p s).2.2.2.2.2.1
@[simp] theorem startStation_org (x : BitVec 3) (p : List Byte) (s : State) : (startStation x p s).org = s.org := (startStation_keeps x p s).2.2.2.2.2.2.1
@[simp] theorem startStation_tdb (x : BitVec 3) (p : List Byte) (s : State) : (startStation x p s).tdb = s.tdb := (startStation_keeps x p s).2.2.2.2.2.2.2.1
@[simp] theorem startStation_slots (x : BitVec 3) (p : List Byte) (s : State) : (startStation x p s).slots = s.slots := (startStation_keeps x p s).2.2.2.2.2.2.2.2.1
@[simp] theorem startStation_reqQueue (x : BitVec 3) (p : List Byte) (s : State) : (startStation x p s).reqQueue = s.reqQueue := (startStation_keeps x p s).2.2.2.2.2.2.2.2.2.1
@[simp] theorem startStation_pen (x : BitVec 3) (p : List Byte) (s : State) : (startStation x p s).pen = s.pen := (startStation_keeps x p s).2.2.2.2.2.2.2.2.2.2.1
@[simp] theorem startStation_psr (x : BitVec 3) (p : List Byte) (s : State) : (startStation x p s).psr = s.psr := (startStation_keeps x p s).2.2.2.2.2.2.2.2.2.2.2

theorem restart_keeps (p : List Byte) (s : State) :
    (restart p s).pending = s.pending ∧ (restart p s).inReset = s.inReset ∧ (restart p s).pins = s.pins ∧ (restart p s).spm = s.spm := by
  unfold restart
  try dsimp only
  repeat' apply And.intro
  all_goals (repeat' split) <;> simp [restartBlocks]
@[simp] theorem restart_pending (p : List Byte) (s : State) : (restart p s).pending = s.pending := (restart_keeps p s).1
@[simp] theorem restart_inReset (p : List Byte) (s : State) : (restart p s).inReset = s.inReset := (restart_keeps p s).2.1
@[simp] theorem restart_pins (p : List Byte) (s : State) : (restart p s).pins = s.pins := (restart_keeps p s).2.2.1
@[simp] theorem restart_spm (p : List Byte) (s : State) : (restart p s).spm = s.spm := (restart_keeps p s).2.2.2

end Sys2Proof.Machine
end

