-- ==== Sys2Proof/Laws/Ops.lean ====
section
/-! SUPPORT. For each shared operation, what it can do, said once. -/

namespace Sys2Proof.Machine

/-! ## Tables, timers, sums -/

/-- A place after a write to a place of the table. -/
theorem place_set_self {α : Type} (table : List (Option α)) (n : Nat) (x : Option α) (h : n < table.length) :
    place (table.set n x) n = x := by
  simp [place, h]

/-- A place after a write to another place. -/
theorem place_set_ne {α : Type} (table : List (Option α)) (m n : Nat) (x : Option α) (h : m ≠ n) :
    place (table.set m x) n = place table n := by
  simp [place, List.getElem?_set_ne h]

/-- A place that is held lies in the table. -/
theorem place_some {α : Type} (table : List (Option α)) (n : Nat) (x : α) : place table n = some x ↔ table[n]? = some (some x) := by
  unfold place
  cases h : table[n]? with
  | none => simp
  | some y => simp

/-- Clearing a place that is empty changes nothing. -/
theorem set_none_of_place_none {α : Type} (table : List (Option α)) (n : Nat) (h : place table n = none) : table.set n none = table := by
  apply List.ext_getElem?
  intro k
  by_cases hk : n = k
  · subst hk
    unfold place at h
    cases hx : table[n]? with
    | none => simpa using hx
    | some y =>
      rw [hx] at h
      have hl : n < table.length := (List.getElem?_eq_some_iff.mp hx).1
      simp only [Option.getD_some] at h
      simp [hl, h]
  · simp [List.getElem?_set_ne hk]

/-- The saturating sum is the lesser of the sum and the ceiling. -/
theorem satAdd_eq_min (ceiling a b : Nat) : satAdd ceiling a b = min (a + b) ceiling := by
  unfold satAdd; split <;> omega

/-- The saturating sum never passes its ceiling. -/
theorem satAdd_le (ceiling a b : Nat) : satAdd ceiling a b ≤ ceiling := by
  rw [satAdd_eq_min]; omega

/-- The clamp of R50 and R72 lies in its range. -/
theorem clamp_bounds (lo hi n : Nat) (h : lo ≤ hi) : lo ≤ clamp lo hi n ∧ clamp lo hi n ≤ hi := by
  unfold clamp; split <;> (try split) <;> omega

/-- The clamp keeps a value that lies in its range. -/
theorem clamp_id (lo hi n : Nat) (h₁ : lo ≤ n) (h₂ : n ≤ hi) : clamp lo hi n = n := by
  unfold clamp; split <;> (try split) <;> omega

/-- The last `n` elements are at most `n`. -/
theorem lastN_length {α : Type} (n : Nat) (l : List α) : (lastN n l).length ≤ n := by
  simp only [lastN, List.length_drop]; omega

/-- Removing the first element that passes a test, when the elements before it fail it. -/
theorem removeFirst_append {α : Type} (p : α → Bool) (a b : List α) (x : α) (hx : p x = true) (ha : a.any p = false) :
    removeFirst p (a ++ x :: b) = a ++ b := by
  induction a with
  | nil => simp [removeFirst, hx]
  | cons y ys ih =>
    simp only [List.any_cons, Bool.or_eq_false_iff] at ha
    simp [removeFirst, ha.1, ih ha.2]

/-- Replacing the first element that passes a test, when the elements before it fail it. -/
theorem replaceFirst_append {α : Type} (p : α → Bool) (y : α) (a b : List α) (x : α) (hx : p x = true) (ha : a.any p = false) :
    replaceFirst p y (a ++ x :: b) = a ++ y :: b := by
  induction a with
  | nil => simp [replaceFirst, hx]
  | cons z zs ih =>
    simp only [List.any_cons, Bool.or_eq_false_iff] at ha
    simp [replaceFirst, ha.1, ih ha.2]

/-! ## Indications -/

/-- Raising an indication sets its own position and no other (R170). -/
theorem raise_shows (i k : Indication) (s : State) : (raise i s).shows k ↔ k = i ∨ s.shows k := by
  unfold State.shows
  rw [raise_indications, BitVec.getLsbD_or]
  cases i <;> cases k <;> simp [Indication.mask, Indication.position]

/-- A conditional raise. -/
theorem raiseIf_shows (c : Bool) (i k : Indication) (s : State) : (raiseIf c i s).shows k ↔ c = true ∧ k = i ∨ s.shows k := by
  cases c <;> simp [raiseIf, raise_shows]

/-! ## The request port -/

/-- A row that acts outside device reset only. -/
theorem live_of_running (f : State → State) (s : State) (h : s.inReset = false) : live f s = f s := by simp [live, h]

/-- A row in device reset. -/
theorem live_of_reset (f : State → State) (s : State) (h : s.inReset = true) : live f s = s := by simp [live, h]

/-- A response after the zeros of its transaction. -/
theorem respond_clockZeros (c : Byte) (st : Status) (cl : Bool) (p : List Byte) (n : Nat) (s : State) :
    respond c st cl p (clockZeros n s) = s.answered n c st cl p := rfl

/-- A command of the right length that the port takes acts on its payload. -/
theorem takeCommand_taken (c : Byte) (agrees : List Byte → Bool) (len : Byte) (payload : List Byte) (act : List Byte → State → State)
    (s : State) (h : s.listens) (hl : payload.length = len.toNat) (ha : agrees payload = true) :
    takeCommand c agrees (len :: payload) act s = act payload (clockZeros (payload.length + 2) s) := by
  simp [takeCommand, endTransaction, clockZeros, State.beingTaken, h.1, h.2, hl, ha]

/-- A command whose length does not agree is refused (R161). -/
theorem takeCommand_badLength (c : Byte) (agrees : List Byte → Bool) (rest : List Byte) (act : List Byte → State → State)
    (s : State) (h : s.listens) (hb : ∀ len payload, rest = len :: payload → payload.length = len.toNat → agrees payload = false) :
    takeCommand c agrees rest act s = s.answered (rest.length + 1) c .badLength false [] := by
  cases rest with
  | nil => simp [takeCommand, endTransaction, clockZeros, State.beingTaken, h.1, h.2, refuse, respond, State.answered]
  | cons len payload =>
    have hb' := hb len payload rfl
    by_cases hl : payload.length = len.toNat
    · simp [takeCommand, endTransaction, clockZeros, State.beingTaken, h.1, h.2, hb' hl, refuse, respond, State.answered]
    · simp [takeCommand, endTransaction, clockZeros, State.beingTaken, h.1, h.2, hl, refuse, respond, State.answered]

/-- A command in device reset is not taken (R159). -/
theorem takeCommand_reset (c : Byte) (agrees : List Byte → Bool) (rest : List Byte) (act : List Byte → State → State) (s : State)
    (h : s.inReset = true) : takeCommand c agrees rest act s = clockZeros (rest.length + 1) s := by
  simp [takeCommand, endTransaction, clockZeros, h]

/-- A command that ends while another is being taken is ignored (R160). -/
theorem takeCommand_ignored (c : Byte) (agrees : List Byte → Bool) (rest : List Byte) (act : List Byte → State → State) (s : State)
    (hr : s.inReset = false) (h : s.beingTaken = true) :
    takeCommand c agrees rest act s = ignore (clockZeros (rest.length + 1) s) := by
  have h' : (clockZeros (rest.length + 1) s).beingTaken = true := h
  simp [takeCommand, endTransaction, h', hr]

/-- A command leaves every block but the port that its action leaves (R161: a refusal changes nothing else). -/
theorem takeCommand_agree (c : Byte) (agrees : List Byte → Bool) (rest : List Byte) (act : List Byte → State → State) (s : State) (b : Block)
    (hb : b ≠ .lrp) (ha : ∀ p u, State.agree u (act p u) b) : s.agree (takeCommand c agrees rest act s) b := by
  have hz : s.agree (clockZeros (rest.length + 1) s) b := by cases b <;> first | rfl | contradiction
  have hr : ∀ st, s.agree (refuse c st (clockZeros (rest.length + 1) s)) b := by intro st; cases b <;> first | rfl | contradiction
  have ht : ∀ p, s.agree (act p (clockZeros (rest.length + 1) s)) b := by
    intro p
    have h := ha p (clockZeros (rest.length + 1) s)
    cases b <;> exact h.trans hz
  have hi : s.agree (ignore (clockZeros (rest.length + 1) s)) b := by cases b <;> first | rfl | contradiction
  unfold takeCommand endTransaction
  dsimp only
  split
  · exact hz
  · split
    · exact hi
    · split
      · exact hr _
      · split
        · exact ht _
        · exact hr _

/-- What the bytes of a payload's fields are. -/
theorem field_one (b : Byte) (bs : List Byte) : field (b :: bs) 0 1 = b.toNat := by simp [field, slice, ofBytes]

/-- A field past the first byte. -/
theorem field_cons (b : Byte) (bs : List Byte) (i n : Nat) : field (b :: bs) (i + 1) n = field bs i n := by simp [field, slice]

/-- Two bytes, most significant first. -/
theorem field_two (a b : Byte) (bs : List Byte) : field (a :: b :: bs) 0 2 = 256 * a.toNat + b.toNat := by
  simp [field, slice, ofBytes, Nat.mul_comm]

/-! ## The transmit queue -/

/-- Removing a frame that is there shortens the queue by one. -/
theorem removeFirst_length {α : Type} (p : α → Bool) (l : List α) (h : l.any p = true) : (removeFirst p l).length + 1 = l.length := by
  induction l with
  | nil => simp at h
  | cons y ys ih =>
    unfold removeFirst
    by_cases hy : p y = true
    · simp [hy]
    · simp only [List.any_cons, hy, Bool.false_or] at h
      simp [hy, ih h]

/-- Replacing a frame keeps the length of the queue. -/
theorem replaceFirst_length {α : Type} (p : α → Bool) (y : α) (l : List α) : (replaceFirst p y l).length = l.length := by
  induction l with
  | nil => rfl
  | cons z zs ih => unfold replaceFirst; split <;> simp [ih]

/-- A frame that enters without replacing another keeps the queue within its eight places (R9). -/
theorem enqueueNew_length (q : List Body) (f : Body) (h : q.length ≤ 8) : (enqueueNew q f).1.length ≤ 8 := by
  unfold enqueueNew
  split
  · rename_i hq
    simp only [List.length_append, List.length_singleton]
    exact hq
  · split
    · exact h
    · split
      · rename_i hr
        have := removeFirst_length _ q hr
        simp only [List.length_append, List.length_singleton]
        omega
      · exact h

/-- A hand-over keeps the queue within its eight places (R9). -/
theorem enqueue_length (q : List Body) (f : Body) (h : q.length ≤ 8) : (enqueue q f).1.length ≤ 8 := by
  have hn := enqueueNew_length q f h
  cases f <;> unfold enqueue <;> dsimp only <;> split <;> first
    | exact hn
    | (rename_i hr; rw [replaceFirst_length]; exact h)
    | (rename_i hr
       have := removeFirst_length _ q hr
       simp only [List.length_append, List.length_singleton]
       omega)

/-- Outside JOINING and MEMBER nothing is handed over (R9). -/
theorem handOverPlain_idle (f : Body) (s : State) (h : s.transmits = false) : handOverPlain f s = s := by simp [handOverPlain, h]

/-- A hand-over leaves the frame in service and the mute flag. -/
theorem handOverPlain_service (f : Body) (s : State) :
    (handOverPlain f s).sct.service = s.sct.service ∧ (handOverPlain f s).sct.mute = s.sct.mute := by
  unfold handOverPlain raiseIf
  (repeat' split) <;> simp

/-! ## The own report -/

/-- Outside MEMBER neither a request nor a change signal has any effect (R70). -/
theorem orgRequest_outside (s : State) (h : s.dir.station ≠ .member) : orgRequest s = s := by simp [orgRequest, h]

/-- Outside MEMBER a change signal has no effect (R70). -/
theorem orgChange_outside (s : State) (h : s.dir.station ≠ .member) : orgChange s = s := by simp [orgChange, h]

/-- Outside MEMBER a conditional change signal has no effect (R70). -/
theorem orgChangeIf_outside (c : Bool) (s : State) (h : s.dir.station ≠ .member) : orgChangeIf c s = s := by
  cases c <;> simp [orgChangeIf, orgChange_outside s h]

/-- Equal content is equality up to the sequence number and the missed list (R64). -/
theorem content_eq_iff (a b : Report) : a.content = b.content ↔ a = { b with seq := a.seq, missed := a.missed } := by
  cases a; cases b; simp [Report.content]

/-- All a change signal can do in MEMBER (R64, R65, R66). -/
theorem orgChange_judged (s : State) (h : s.dir.station = .member) : s.judgedTo (orgChange s) := by
  refine ⟨?_, fun hn => ?_⟩
  · rintro ⟨x, hx, he⟩
    simp [orgChange, State.reportChanged, reportUnder, hx, (content_eq_iff _ _).2 he]
  · have hc : s.reportChanged = true := by
      unfold State.reportChanged reportUnder
      cases hp : place s.tdb.staging s.ownNumber with
      | none => rfl
      | some x => simpa using fun e => hn x hp ((content_eq_iff _ _).1 e)
    refine ⟨fun hh => ?_, fun hh => ?_⟩ <;>
      simp [orgChange, h, hc, originateHeldDown, hh, originate, stageReport, Org.originated, Config.holdDownMs]

/-! ## The frontier -/

/-- Component-wise comparison is irreflexive (R133). -/
theorem better_irrefl (k : List Nat) : better k k = false := by
  induction k with
  | nil => rfl
  | cons a as ih => simp [better, ih]

/-- Component-wise comparison is transitive (R133). -/
theorem better_trans (x y z : List Nat) (hxy : better x y = true) (hyz : better y z = true) : better x z = true := by
  induction x generalizing y z with
  | nil =>
    cases z with
    | nil => cases y <;> simp [better] at hxy hyz
    | cons c cs => rfl
  | cons a as ih =>
    cases y with
    | nil => simp [better] at hxy
    | cons b bs =>
      cases z with
      | nil => simp [better] at hyz
      | cons c cs =>
        unfold better at hxy hyz ⊢
        by_cases hab : a < b
        · by_cases hbc : b < c
          · simp [show a < c by omega]
          · by_cases hcb : c < b
            · simp [hbc, hcb] at hyz
            · have : b = c := by omega
              subst this; simp [hab]
        · by_cases hba : b < a
          · simp [hab, hba] at hxy
          · have hab' : a = b := by omega
            subst hab'
            by_cases hac : a < c
            · simp [hac]
            · by_cases hca : c < a
              · simp [hac, hca] at hyz
              · simp only [Nat.lt_irrefl, if_false] at hxy
                simp only [hac, hca, if_false] at hyz ⊢
                exact ih bs cs hxy hyz

/-- A reference placed by its key adds one to the frontier (R131). -/
theorem insert_length (env : SearchEnv) (x : Reached) (l : List Reached) : (env.insert x l).length = l.length + 1 := by
  induction l with
  | nil => rfl
  | cons y ys ih =>
    unfold SearchEnv.insert
    split <;> simp [ih]

/-- The members after a placement are the new reference and those before. -/
theorem mem_insert (env : SearchEnv) (x z : Reached) (l : List Reached) : z ∈ env.insert x l ↔ z = x ∨ z ∈ l := by
  induction l with
  | nil => simp [SearchEnv.insert]
  | cons y ys ih =>
    unfold SearchEnv.insert
    split
    · simp
    · simp only [List.mem_cons, ih]; tauto

end Sys2Proof.Machine
end

