-- ==== Sys2Proof/Tests/Slice0.lean ====
section
/-! SUPPORT. Own tests: ill-formed rows, byte and frame layouts, worked examples of the spec, and for each statement with hypotheses a
concrete state and operands that meet them. -/

namespace Sys2Proof.Tests

open Sys2Proof
open Sys2Proof.Machine

/-! ## WellFormed refuses what names nothing -/

theorem test_wellFormed_refuses_station_48 : (Instr.peerLifetimeExpiry 48).wellFormed = false := by decide
theorem test_wellFormed_refuses_degree_8_send : (Instr.traceWordSend 8).wellFormed = false := by decide
theorem test_wellFormed_refuses_degree_8_match : (Instr.traceSyncMatch { degree := 8, levels := [] }).wellFormed = false := by decide
theorem test_wellFormed_refuses_degree_8_judgement : (Instr.traceWordJudgement 8 []).wellFormed = false := by decide
theorem test_wellFormed_refuses_degree_8_hunt : (Instr.huntTimerExpiry 8).wellFormed = false := by decide
theorem test_wellFormed_refuses_degree_8_qualifier : (Instr.qualifierTimerExpiry 8).wellFormed = false := by decide
theorem test_wellFormed_refuses_place_32 : (Instr.peerIntentLifetimeExpiry 32).wellFormed = false := by decide
theorem test_wellFormed_refuses_slot_8_window : (Instr.windowTimerExpiry 8).wellFormed = false := by decide
theorem test_wellFormed_refuses_slot_8_refresh : (Instr.intentRefreshExpiry 8).wellFormed = false := by decide
theorem test_wellFormed_refuses_named_byte_as_unknown : (Instr.unknownCommand 67 []).wellFormed = false := by decide
theorem test_wellFormed_refuses_ignored_read : (Instr.ignoredTransaction (bitsOf [1, 0])).wellFormed = false := by decide
theorem test_wellFormed_takes_unnamed_byte : (Instr.unknownCommand 7 []).wellFormed = true := by decide

/-! ## Bytes of the port and of the lines -/

/-- The command bytes of R188, one of each family. -/
theorem test_decode_status : decodeTransaction 0 (bitsOf [0x02, 0x00]) = .readStatus [0x00] := by decide
theorem test_decode_node_report : decodeTransaction 0 (bitsOf [0x10, 0x70]) = .writeNodeReport [0x70] := by decide
theorem test_decode_span_report : decodeTransaction 0 (bitsOf [0x11, 4, 1, 0, 2, 3]) = .writeSpanReport [4, 1, 0, 2, 3] := by decide
theorem test_decode_submit : decodeTransaction 0 (bitsOf [0x20, 8]) = .submit [8] := by decide
theorem test_decode_commit : decodeTransaction 0 (bitsOf [0x30, 1, 3]) = .commitIntent [1, 3] := by decide
theorem test_decode_force_epoch : decodeTransaction 0 (bitsOf [0x40, 0]) = .forceEpoch [0] := by decide
theorem test_decode_start_reads_strap : decodeTransaction 5 (bitsOf [0x41, 0]) = .start [0] 5 := by decide
theorem test_decode_indications : decodeTransaction 0 (bitsOf [0x51, 2, 0x40, 1]) = .clearIndications [2, 0x40, 1] := by decide
theorem test_decode_store : decodeTransaction 0 (bitsOf [0x61, 5, 2, 0, 0, 0, 1]) = .writeStoreWord [5, 2, 0, 0, 0, 1] := by decide
theorem test_decode_unknown : decodeTransaction 0 (bitsOf [0xFF, 1]) = .unknownCommand 0xFF [1] := by decide
theorem test_decode_empty_transaction : decodeTransaction 0 [] = .ignoredTransaction [] := by decide
theorem test_table_gives_no_bits : decodeTableWord 8 2 = none := rfl

/-- R3 example: the nine characters 1 to 9 have the frame CRC 29B1. -/
theorem test_crc16_check_value : crc16 [0x31, 0x32, 0x33, 0x34, 0x35, 0x36, 0x37, 0x38, 0x39] = 0x29B1 := by decide +kernel

/-- 00 Conventions: a sequence number is newer up to 32,767 ahead, across the wrap. -/
theorem test_newer_across_wrap : newerSeq 65535 0 = true := by decide
theorem test_older_by_half : newerSeq 0 32768 = false := by decide

/-- R1, R34: a 1 falls at mid-bit, a 0 rises; R4: a bit period without a transition ends what is decoded. -/
theorem test_manchester_levels : manchester [true, false] = [true, false, false, true] := by decide
theorem test_manchester_violation : manchesterBits [true, false, true, true, false, true] = [true] := by decide
/-- R159: bits come most significant bit first, and a partial byte is discarded. -/
theorem test_partial_byte_is_discarded :
    decodePins 0 (spiLevels [false, false, false, false, false, false, true, false, true, true]) = .readStatus [] := by decide
/-- R159, SPI mode 0: data-out carries the first bit before the first rising edge and moves on at the falling edges. -/
theorem test_data_out_moves_at_falling_edges :
    dataOutLevels false [true, false] (spiLevels [false, false]) = [true, true, false, false] := by decide

/-- R37: HUNT finds the sync pattern at any bit position, and not across a code violation. -/
theorem test_hunt_finds_the_pattern_at_any_position :
    matchesSync (manchester ([true, false, false] ++ bitsMsb (0x1F35 : BitVec 16))) = true := by decide +kernel
theorem test_hunt_run_begins_again_after_a_violation :
    matchesSync (manchester [false, false, false] ++ [true, true] ++ manchester ((bitsMsb (0x1F35 : BitVec 16)).drop 3)) = false := by
  decide +kernel

/-! ## Small states -/

/-- What a row leaves; the state itself where it answers no next state. -/
def after (c : Instr) (s : State) : State :=
  match exec c s with
  | .next t => t
  | _ => s

/-- A part held in device reset. -/
def heldPart : State := State.heldInReset deliveredStore []

/-- A part in STANDBY, its first load over. -/
def standby : State :=
  { State.reset with
    dir := { Dir.deviceReset with station := .standby }
    tdb := { Tdb.deviceReset with epochTimer := some 500 }
    psr := { State.reset.psr with loadTimer := none } }

/-- A part in FAULTED. -/
def faulted : State := { standby with dir := { Dir.deviceReset with station := .faulted } }

/-- A part in JOINING with candidate 5, its first round running. -/
def joining : State := { standby with dir := { Dir.deviceReset with station := .joining, candidate := some 5, roundTimer := some 40 } }

/-- A part in MEMBER with number 5 and its hold-down running. -/
def member : State :=
  { standby with
    dir := { Dir.deviceReset with
      station := .member, candidate := some 5, rounds := 3, entries := (List.replicate 48 none).set 5 (some (.own factoryUid)) }
    org := { Org.deviceReset with seq := 2, holdDown := some 300, refresh := some 9000 } }

/-- A part in NO_NUMBER. -/
def noNumber : State := { standby with dir := { Dir.deviceReset with station := .noNumber, noNumberTimer := some 40000 } }

/-- A state with a frame in service in a phase. -/
def serving (f : Body) (attempts : Nat) (phase : Phase) (s : State) : State :=
  { s with sct := { s.sct with service := some {
      body := f, bytes := delimiter :: encodeFrame (s.fillFrame f), attempts := attempts, backoff := 0, phase := phase } } }

/-- A state with a peer in its directory. -/
def knowing (n : Nat) (u : Uid) (s : State) : State :=
  { s with dir := { s.dir with entries := s.dir.entries.set n (some (.peer u 40000)) } }

/-- A state with one frame in its receive queue. -/
def hearing (f : Frame) (s : State) : State := { s with scr := { s.scr with rxQueue := [f] } }

/-- A state that decodes an episode. -/
def decoding (ch : Channel) (good : Nat) (s : State) : State :=
  { s with scr := { s.scr with channel := ch, goodRun := good, carrier := true, decoding := true, darkTimer := some 5000 } }

/-- A state with degree 0 in a trace state. -/
def tracing (x : Trace) (r : Receiver) (s : State) : State :=
  { s with degrees := s.degrees.set 0 { trace := x, receiver := r, txWord := none } }

/-- A state with degree 0's monitor in a state, at a load. -/
def monitoring (m : Monitor) (n : Nat) (s : State) : State :=
  { s with spm := { s.spm with degrees := s.spm.degrees.set 0 { SpmDegree.deviceReset with noise := n, monitor := m } } }

/-- A state with a record and an intent in slot `i`. -/
def slotting (i : Nat) (st : SlotState) (x : Intent) (s : State) : State :=
  { s with slots := s.slots.set i { state := st, intent := x } }

/-- A request from station 1 to station 2. -/
def request : Request :=
  { source := 1, destination := 2, cls := 0, policy := .leastCost, allowDegraded := false, allowRegen := false, avoidImpaired := false,
    priority := 3, hint := none, exclusions := [], diverse := none }

/-- The job of a request. -/
def job (tag : Nat) : Job := { tag := tag, request := request, refTag := none }

/-- A report with a sequence number. -/
def reportOf (seq : BitVec 16) (links : List Link) : Report :=
  { seq := seq, domain := 0, impaired := false, passNoise := 0, regens := 1, capability := BitVec.allOnes 64,
    missed := [255, 255, 255, 255], links := links }

/-- A link entry. -/
def linkTo (d : Nat) (u : Uid) (e : Nat) : Link :=
  { degree := d, nbrUid := u, nbrDegree := e, noise := 10, latency := 5, cost := 7, degraded := false, confirmed := true, lit := 0 }

/-- Stations 1 and 2 (unique IDs 11 and 22), whose degrees 0 face each other, known and active. -/
def twoStations (s : State) : State :=
  let t := knowing 1 11 (knowing 2 22 s)
  { t with tdb := { t.tdb with
      active := (t.tdb.active.set 1 (some { uid := 11, report := reportOf 1 [linkTo 0 22 0] })).set 2
        (some { uid := 22, report := reportOf 1 [linkTo 0 11 0] })
      spans := [{ low := { station := 1, degree := 0 }, high := { station := 2, degree := 0 }, noise := 10, latency := 5, cost := 7,
                  degraded := false, lit := 0 }] } }

/-- The one hop of a path over the span of `twoStations`. -/
def oneHop : Hop := { src := 1, degree := 0, dst := 2, channel := 4, regen := false }

/-- A result over that hop. -/
def oneHopResult : PathResult :=
  { hops := [oneHop], segments := [{ noise := 10, passes := 0, margin := 31613 }], cost := 7, latency := 5, regens := 0, pruned := false }

/-- The pair of that hop. -/
def onePair : Pair := { station := 1, degree := 0, channel := 4 }

/-- A staged intent of a peer. -/
def stagedIntent (u : Uid) (id : Nat) : StagedIntent := { entry := { uid := u, id := id, priority := 0, pairs := [onePair] }, left := 9000 }

/-- A state with a staged peer intent in a place. -/
def staging (p : Nat) (x : StagedIntent) (s : State) : State :=
  { s with tdb := { s.tdb with stagingIntents := s.tdb.stagingIntents.set p (some x) } }

/-- A state whose indication and enable sets are all set. -/
def indicating (s : State) : State := { s with ntf := { indications := 0x7FFF, enables := 0x7FFF } }

/-! ## Worked examples of the spec -/

/-- The queue of the example of section 1.5. -/
def fullQueue : List Body :=
  [.claim 5 2, .intent 0 1 [], .intent 1 1 [], .intent 2 1 [], .intent 3 1 [], .intent 4 1 [], .intent 5 1 [], .report (reportOf 1 [])]

/-- Section 1.5, a full queue: REPORT, check 2. -/
theorem test_full_queue_report : enqueue fullQueue (.report (reportOf 2 [])) = (fullQueue.dropLast ++ [.report (reportOf 2 [])], .queued) := by
  decide
/-- Section 1.5: INTENT of id 3, check 3. -/
theorem test_full_queue_intent_replaces : ((enqueue fullQueue (.intent 3 7 [])).1)[4]? = some (.intent 3 7 []) := by decide
/-- Section 1.5: RELEASE of id 6, check 7; then INTENT of id 7, check 8; then RELEASE of id 2, check 4. -/
theorem test_full_queue_release_displaces_report : enqueue fullQueue (.release 6) = (fullQueue.dropLast ++ [.release 6], .queued) := by decide
theorem test_full_queue_intent_abandoned :
    enqueue (fullQueue.dropLast ++ [.release 6]) (.intent 7 1 []) = (fullQueue.dropLast ++ [.release 6], .abandoned) := by decide
theorem test_full_queue_release_removes_intent :
    enqueue (fullQueue.dropLast ++ [.release 6]) (.release 2)
      = ([.claim 5 2, .intent 0 1 [], .intent 1 1 [], .intent 3 1 [], .intent 4 1 [], .intent 5 1 [], .release 6, .release 2], .queued) := by
  decide

/-- The monitor parameters of the example of section 4.3. -/
def exampleMonitor : MonitorParams := { threshold := 20000, hysteresis := 2000, qualifier := 2, latch := true }

/-- Section 4.3, a degradation under latch, at 200, 400, 1,100, 1,400, 1,700 and 1,800 ms. -/
theorem test_monitor_qualifies : Monitor.clear.report exampleMonitor 21000 = .pending 500 false := by decide
theorem test_monitor_cancels : (Monitor.pending 300 false).report exampleMonitor 19500 = .clear := by decide
theorem test_monitor_expires : (Monitor.pending 0 false).expire exampleMonitor 23000 = .degraded true := by decide
theorem test_monitor_latch_holds : (Monitor.degraded true).report exampleMonitor 17500 = .degraded true := by decide
theorem test_monitor_latch_cleared : (Monitor.degraded true).clearLatch exampleMonitor 18500 = .degraded false := by decide
theorem test_monitor_released : (Monitor.degraded false).report exampleMonitor 18000 = .clear := by decide

/-- Section 4.2, a node report with clamps: degree 1. -/
theorem test_node_report_clamps :
    (SpmDegree.deviceReset.nodeWrite 0b111000 1 { lit := 0x210, cost := 0, latency := 70000 })
      = { SpmDegree.deviceReset with lit := 0x210, cost := 1, latency := 65535 } := by decide
/-- Section 4.2: degree 2's lit mask is not enabled. -/
theorem test_node_report_leaves_disabled :
    (SpmDegree.deviceReset.nodeWrite 0b111000 2 { lit := 0x20000, cost := 0, latency := 0 }) = SpmDegree.deviceReset := by decide

/-- Section 5.4, the missed list overflows: gaps from 5, 9, 5, 14, 20, 31. -/
theorem test_missed_list_overflows :
    ([5, 9, 5, 14, 20, 31].foldl (fun s n => recordGap n s) member).org.missed = [9, 14, 20, 31] := by decide +kernel

/-- Section 2.4, joining: base number 4, strap 1, peers at 3, 5 and 6. -/
def beforeJoining : State :=
  let s := knowing 3 13 (knowing 5 15 (knowing 6 16 standby))
  { s with psr := { s.psr with working := { s.psr.working with base := 4 } } }

/-- Section 2.4 at 0.0: 7 is chosen and claimed. -/
theorem test_start_chooses_seven : (after (.start [0] 1) beforeJoining).dir.candidate = some 7
    ∧ (after (.start [0] 1) beforeJoining).sct.queue = [.claim 7 1] := by decide +kernel
/-- Section 2.4 at 60.0: a lower rival takes 7, the part yields it and chooses 8. -/
theorem test_rival_makes_the_part_yield :
    let s := hearing { uid := 9, number := 255, lifetime := 40, body := .claim 7 1 } (after (.start [0] 1) beforeJoining)
    let t := after (.takeReceivedFrame 1) s
    t.dir.candidate = some 8 ∧ t.dir.yielded = [7] ∧ t.entry 7 = some (.peer 9 40000) := by decide +kernel

/-- Section 12.4: a check bit inverted is CORRECTED, two data bits inverted are UNCORRECTABLE. -/
theorem test_one_check_bit_corrected : (readWord { freshWord 2000 with check := (freshWord 2000).check ^^^ 4 }) = (.corrected, 2000) := by
  decide +kernel
theorem test_two_data_bits_uncorrectable : (readWord { freshWord 0 with data := 3 }).1 = .uncorrectable := by decide +kernel

/-- R175, R178: the delivered store spells the defaults of degree 7 and of class 0. -/
theorem test_delivered_degree_default : loadMonitor deliveredStore 7 = defaultMonitor := by decide +kernel
theorem test_delivered_class_default : loadClass deliveredStore 0 = defaultClass 0 := by decide +kernel

/-- R17: the fourth equal sample is accepted, and mute follows. -/
theorem test_fourth_sample_mutes :
    (after (.pinSample true 0) { standby with pins := { standby.pins with mute := { accepted := some false, run := some (true, 3) } } }).sct.mute
      = true := by decide +kernel
/-- R36: a trace word begins on an equipped degree. -/
theorem test_trace_word_is_sent : ((after (.traceWordSend 0) (tracing .dark .idle standby)).degrees[0]?).any (fun x => x.txWord.isSome) = true := by
  decide +kernel
/-- R91, R92: two agreeing ends make one span, named by its lower station. -/
theorem test_two_ends_make_a_span : resolveSpans (twoStations standby) = (twoStations standby).tdb.spans := by decide +kernel
/-- R124, R134, R141: a search over one span settles the source, then the destination. -/
theorem test_search_over_one_span :
    let s := after (.submit [8, 1, 1, 2, 0, 1, 0, 3, 0]) (twoStations standby)
    ((after .settlement (after .settlement s)).slotState 0).bind SlotState.hops = some [{ oneHop with channel := 0 }] := by
  decide +kernel
/-- R160, R162: a refusal carries no payload and counts the response. -/
theorem test_refusal_counts : (after (.cancel [1, 9]) standby).lrp.response = [33, 1, 4, 0, 0] := by decide +kernel
/-- R163: a read of more bytes than the buffer holds sends it again. -/
theorem test_read_repeats : (after (.readResponse 6) standby).lrp.dataOut = [0, 255, 0, 0, 0, 0, 255] := by decide +kernel

/-- R183: NOTIFY is low while asserted. -/
theorem test_notify_is_low_while_asserted : (indicating standby).notifyPin = false ∧ standby.notifyPin = true := by decide
/-- R160: a transaction that is ignored while FORCE EPOCH waits empties the command buffer, and the command goes on. -/
theorem test_ignored_transaction_empties_buffer :
    let s := after (.forceEpoch [0]) { standby with tdb := { standby.tdb with dirty := true } }
    let t := after (.cancel [1, 0]) s
    s.lrp.commandBuffer = [64, 0] ∧ t.lrp.commandBuffer = [] ∧ t.lrp.taking = true
      ∧ (after .epochTransferEnd t).lrp.response = [64, 1, 0, 0, 2, 0, 1] := by decide +kernel

/-! ## Witnesses: for each statement with hypotheses, states and operands that meet them, clause by clause -/

/-- A part whose load finds a store of one word: clean, or with two data bits inverted (12.4). -/
def loadingOf (w : StoreWord) : State := { State.reset with psr := { State.reset.psr with store := [w] } }
/-- A store word with two data bits inverted. -/
def faultyWord : StoreWord := { freshWord 0 with data := 3 }
/-- A store write of word 69 in progress. -/
def writing (s : State) : State := { s with psr := { s.psr with busy := some { word := 69, data := 1, left := 10 } } }
/-- A part whose degree 0 has its LOL pin accepted asserted. -/
def darkened (s : State) : State := { s with pins := { s.pins with lol := s.pins.lol.set 0 { accepted := some true, run := none } } }
/-- A part whose MUTE pin is accepted deasserted. -/
def unmutedPin (s : State) : State := { s with pins := { s.pins with mute := { accepted := some false, run := none } } }
/-- A part with the mute flag set. -/
def muted (s : State) : State := { s with sct := { s.sct with mute := true } }
/-- A peer's CLAIM for number `n`. -/
def claimFrame (u : Uid) (n m : Nat) : Frame := { uid := u, number := 255, lifetime := 40, body := .claim n m }
/-- A full receive queue. -/
def fullRx (s : State) : State := { s with scr := { s.scr with rxQueue := List.replicate 8 (claimFrame 9 1 1) } }
/-- A queue in the transmitter. -/
def queued (q : List Body) (s : State) : State := { s with sct := { s.sct with queue := q } }
/-- A directory in which every number is held. -/
def crowded (s : State) : State :=
  { s with dir := { s.dir with entries := (List.range 48).map fun n => some (.peer (BitVec.ofNat 64 (100 + n)) 40000) } }
/-- A state with a staged report under number 1. -/
def reported (q : BitVec 16) (s : State) : State :=
  { s with tdb := { s.tdb with staging := s.tdb.staging.set 1 (some { uid := 11, report := reportOf q [] }) } }
/-- A state with the dirty flag set. -/
def dirtied (s : State) : State := { s with tdb := { s.tdb with dirty := true } }
/-- A state in which a transfer runs. -/
def transferring (s : State) : State := { s with tdb := { s.tdb with transferring := true } }
/-- A state in which FORCE EPOCH is being taken. -/
def taking (s : State) : State := { s with lrp := { s.lrp with commandBuffer := [64, 0], taking := true } }
/-- A frame of the peer 11 at number 1. -/
def peerFrame (b : Body) : Frame := { uid := 11, number := 1, lifetime := 40, body := b }
/-- A search of slot 0 with a frontier. -/
def searching (front : List Reached) (s : State) : State :=
  { slotting 0 (.running (job 1) 3) .none s with
    pen := { Pen.deviceReset with searching := some 0, frontier := front } }
/-- The source label alone. -/
def atSource : Reached := { state := { station := 1, channel := 64 }, label := sourceLabel }
/-- A label at the destination. -/
def atDestination : Reached :=
  { state := { station := 2, channel := 4 },
    label := { sourceLabel with hops := 1, first := some 4, pred := some { station := 1, channel := 64, degree := some 0 } } }
/-- A settlement that offers nothing: the source of a part without spans. -/
def stranded : State := searching [atSource] standby

theorem witness_DeviceResetThenReleaseBeginsLoad : heldPart.inReset = true := rfl

theorem witness_HeldInResetNothingMoves :
    heldPart.inReset = true ∧ Instr.frameStart ≠ .deviceReset ∧ Instr.frameStart ≠ .resetRelease := by decide

theorem witness_LoadEndBuildsParameters_standby :
    (loadingOf (freshWord 7)).loading ∧ ∀ w ∈ (loadingOf (freshWord 7)).psr.store, (readWord w).1 ≠ .uncorrectable :=
  ⟨⟨rfl, rfl, rfl⟩, by decide +kernel⟩

theorem witness_LoadEndBuildsParameters_faulted :
    (loadingOf faultyWord).loading ∧ ∃ w ∈ (loadingOf faultyWord).psr.store, (readWord w).1 = .uncorrectable :=
  ⟨⟨rfl, rfl, rfl⟩, by decide +kernel⟩

theorem witness_EquippedSetTakesEffect :
    State.reset.loading ∧ State.reset.degrees[0]? = some Degree.deviceReset ∧ State.reset.degrees[7]? = some Degree.deviceReset
      ∧ (loadParams State.reset.psr.store).equipped.getLsbD 0 = true ∧ (loadParams State.reset.psr.store).equipped.getLsbD 7 = false
      ∧ State.reset.lolLevel 0 ≠ some true :=
  ⟨⟨rfl, rfl, rfl⟩, by decide +kernel⟩

theorem witness_EquippedSetTakesEffect_dark_and_kept :
    (darkened State.reset).loading ∧ (darkened State.reset).lolLevel 0 = some true
      ∧ (tracing (.searching none) (.hunt 3) State.reset).loading
      ∧ (tracing (.searching none) (.hunt 3) State.reset).degrees[0]? = some { trace := .searching none, receiver := .hunt 3, txWord := none } :=
  ⟨⟨rfl, rfl, rfl⟩, rfl, ⟨rfl, rfl, rfl⟩, rfl⟩

theorem witness_RestartReturnsEveryBlockToLoading :
    standby.listens ∧ standby.dir.station ≠ .loading ∧ standby.dir.station ≠ .faulted ∧ standby.psr.busy = none
      ∧ faulted.listens ∧ faulted.dir.station = .faulted ∧ faulted.psr.busy = none
      ∧ State.reset.listens ∧ State.reset.dir.station = .loading
      ∧ (writing standby).listens ∧ (writing standby).dir.station ≠ .loading ∧ (writing standby).psr.busy.isSome = true :=
  ⟨⟨rfl, rfl⟩, by decide, by decide, rfl, ⟨rfl, rfl⟩, rfl, rfl, ⟨rfl, rfl⟩, rfl, ⟨rfl, rfl⟩, by decide, rfl⟩

theorem witness_StoreWordsAreWrittenAndRead :
    State.reset.loading ∧ State.reset.psr.store[State.reset.psr.loadIndex]?.isSome = true
      ∧ standby.listens ∧ 70 ≤ (70 : Byte).toNat ∧ (1 : Byte).toNat < 2 ∧ 2 ≤ (2 : Byte).toNat ∧ (69 : Byte).toNat < 70
      ∧ standby.dir.station = .standby ∧ (writing standby).listens ∧ (writing standby).psr.busy.isSome = true
      ∧ member.listens ∧ member.dir.station ≠ .standby ∧ member.dir.station ≠ .faulted
      ∧ standby.psr.store[(69 : Byte).toNat]?.isSome = true ∧ standby.psr.outcomes[(69 : Byte).toNat]? = some .clean
      ∧ standby.psr.store[(70 : Byte).toNat]? = none :=
  ⟨⟨rfl, rfl, rfl⟩, by decide +kernel, ⟨rfl, rfl⟩, by decide, by decide, by decide, by decide, rfl, ⟨rfl, rfl⟩, rfl, ⟨rfl, rfl⟩,
    by decide, by decide, by decide +kernel, by decide +kernel, by decide +kernel⟩

theorem witness_PinSampleFiltersAndDelivers :
    standby.inReset = false ∧ standby.pins.lol.length = 8
      ∧ PinTurns { accepted := some false, run := some (true, 3) } { accepted := some true, run := none } true
      ∧ ((darkened (tracing .dark .idle standby)).pins.lol[0]? = some { accepted := some true, run := none })
      ∧ ((tracing .dark .idle standby).degrees[0]?.isSome = true) ∧ standby.dir.station ≠ .faulted ∧ faulted.dir.station = .faulted
      ∧ (tracing (.searching none) (.hunt 3) standby).degrees[0]?.any (fun x => x.trace.hears) = true :=
  ⟨rfl, rfl, ⟨by decide, rfl⟩, rfl, rfl, by decide, rfl, rfl⟩

theorem witness_MuteCommandsSetAndClearTheFlag :
    (muted standby).listens ∧ (muted standby).sct.mute = true ∧ standby.listens ∧ standby.sct.mute = false ∧ standby.sct.service = none
      ∧ (serving (.release 3) 0 (.wait (some 1)) member).listens ∧ (serving (.release 3) 0 (.echo 1) member).listens
      ∧ (serving (.release 3) 0 (.send none) member).listens ∧ standby.pins.mute.accepted ≠ some false
      ∧ (unmutedPin standby).pins.mute.accepted = some false ∧ (unmutedPin (muted standby)).pins.mute.accepted = some false
      ∧ (unmutedPin (muted standby)).sct.mute = true :=
  ⟨⟨rfl, rfl⟩, rfl, ⟨rfl, rfl⟩, rfl, rfl, ⟨rfl, rfl⟩, ⟨rfl, rfl⟩, ⟨rfl, rfl⟩, by decide, rfl, rfl, rfl⟩

theorem witness_CarrierAndDarkTimerMoveTheChannel :
    standby.inReset = false ∧ standby.dir.station ≠ .faulted ∧ (decoding .aligned 8 standby).scr.carrier = true
      ∧ (decoding .aligned 8 standby).scr.darkTimer.isSome = true ∧ (decoding .aligned 8 standby).scr.channel ≠ .dark :=
  ⟨rfl, by decide, rfl, rfl, by decide⟩

theorem witness_FrameSentIsFrameHeard :
    (claimFrame 9 7 1).fits ∧ (decoding .seeking 0 standby).decodes ∧ (decoding .seeking 0 standby).active = true
      ∧ (claimFrame 9 7 1).uid ≠ (decoding .seeking 0 standby).ownUid ∧ (decoding .seeking 0 standby).scr.rxQueue.length < 8
      ∧ (fullRx (decoding .seeking 0 standby)).decodes ∧ 8 ≤ (fullRx (decoding .seeking 0 standby)).scr.rxQueue.length :=
  ⟨⟨by decide, by decide, by decide, by decide⟩, ⟨rfl, rfl, by decide⟩, rfl, by decide +kernel, by decide, ⟨rfl, rfl, by decide⟩, by decide⟩

theorem witness_EpisodeOutcomesMoveTheChannel :
    (decoding .dark 0 standby).decodes ∧ (decoding .seeking 6 standby).decodes ∧ (decoding .seeking 7 standby).decodes
      ∧ (decoding .aligned 8 standby).decodes ∧ classifyLine [] = .invalid ∧ classifyLine (claimFrame 9 7 1).onLine ≠ .invalid :=
  ⟨⟨rfl, rfl, by decide⟩, ⟨rfl, rfl, by decide⟩, ⟨rfl, rfl, by decide⟩, ⟨rfl, rfl, by decide⟩, by decide, by decide +kernel⟩

theorem witness_HandOverFollowsTheOrderedChecks :
    (Body.claim 1 1).isClaim = true ∧ ([Body.release 1].any Body.isClaim) = false ∧ (Body.intent 2 0 []).isIntentOf 2 = true
      ∧ [Body.release 1].length < 8 ∧ 8 ≤ (fullQueue.dropLast ++ [Body.release 6]).length
      ∧ (fullQueue.dropLast ++ [Body.release 6]).any Body.isReport = false ∧ fullQueue.any Body.isReport = true := by decide

theorem witness_FirstFrameInClassOrderEntersService :
    member.inReset = false ∧ member.dir.station = .member ∧ (queued fullQueue member).sct.service = none
      ∧ (queued fullQueue member).sct.mute = false ∧ (queued fullQueue member).sct.queue ≠ [] :=
  ⟨rfl, rfl, rfl, rfl, by decide⟩

theorem witness_QuietGapThenSendThenEcho :
    (serving (.release 3) 0 (.wait (some 0)) member).inReset = false
      ∧ (serving (.release 3) 0 (.wait (some 0)) member).sct.service.any (fun v => v.phase = .wait (some 0)) = true
      ∧ (serving (.release 3) 0 (.wait (some 0)) member).scr.carrier = false ∧ (serving (.release 3) 0 (.wait (some 0)) member).sct.mute = false
      ∧ (serving (.release 3) 0 (.send none) member).sct.service.any (fun v => v.phase = .send none) = true := by
  refine ⟨rfl, rfl, rfl, rfl, rfl⟩

theorem witness_FailedAttemptBacksOffOrIsAbandoned :
    (serving (.release 3) 6 (.echo 0) member).inReset = false
      ∧ (serving (.release 3) 6 (.echo 0) member).sct.service.any (fun v => decide (v.attempts < 7)) = true
      ∧ (serving (.release 3) 7 (.echo 0) member).sct.service.any (fun v => decide (7 ≤ v.attempts)) = true
      ∧ (serving (.claim 5 1) 7 (.echo 0) joining).dir.station = .joining ∧ (serving (.claim 5 1) 7 (.echo 0) joining).dir.candidate = some 5
      ∧ (serving (.intent 0 3 [onePair]) 7 (.echo 0)
          (slotting 0 (.found (job 1) 3 oneHopResult) (.claiming 3 [onePair] none 9000) member)).standsIn 0
          { state := .found (job 1) 3 oneHopResult, intent := .claiming 3 [onePair] none 9000 } :=
  ⟨rfl, rfl, rfl, rfl, rfl, ⟨rfl, rfl⟩⟩

/-- The part's own CLAIM in service, and the frame its echo is. -/
def ownClaim (s : State) : Frame := s.fillFrame (.claim 5 1)

theorem witness_EchoCompletesTheFrameInService :
    (serving (.claim 5 1) 0 (.echo 1) (decoding .seeking 3 joining)).decodes
      ∧ (ownClaim joining).fits ∧ (ownClaim joining).uid = joining.ownUid
      ∧ (serving (.claim 5 1) 0 (.echo 1) (decoding .seeking 3 joining)).sct.service.any
          (fun v => v.bytes = delimiter :: encodeFrame (ownClaim joining)) = true
      ∧ (serving (.claim 5 1) 0 (.send none) (decoding .seeking 3 joining)).decodes
      ∧ (serving (.intent 0 3 [onePair]) 0 (.echo 1)
          (slotting 0 (.found (job 1) 3 oneHopResult) (.claiming 3 [onePair] none 9000) (decoding .aligned 8 member))).decodes :=
  ⟨⟨rfl, rfl, by decide⟩, ⟨by decide, by decide +kernel, by decide, by decide⟩, rfl, by decide +kernel, ⟨rfl, rfl, by decide⟩,
    ⟨rfl, rfl, by decide⟩⟩

/-- Every table of the small states has its size. -/
theorem small_states_sized : standby.sized ∧ joining.sized ∧ member.sized := by
  refine ⟨?_, ?_, ?_⟩ <;> exact ⟨rfl, rfl, rfl, rfl, rfl, rfl, rfl, rfl, rfl, by decide +kernel, rfl, rfl, rfl⟩

theorem witness_FramesAreAcceptedByNumberAndUid_claims :
    (hearing (claimFrame 9 47 1) standby).offers (claimFrame 9 47 1) [] ∧ (hearing (claimFrame 9 47 1) standby).sized
      ∧ standby.entry 47 = none ∧ standby.numberOf 9 = none ∧ 48 ≤ (claimFrame 9 48 1).number? ∧ standby.active = true
      ∧ standby.dir.station ≠ .joining
      ∧ (knowing 47 9 standby).entry 47 = some (.peer 9 40000) ∧ (8 : Uid) < 9 ∧ (9 : Uid) ≤ 9
      ∧ (knowing 3 8 (knowing 47 9 standby)).numberOf 8 = some 3 :=
  ⟨⟨rfl, rfl⟩, ⟨rfl, rfl, rfl, rfl, rfl, rfl, rfl, rfl, rfl, by decide +kernel, rfl, rfl, rfl⟩, rfl, by decide +kernel, by decide, rfl,
    by decide, rfl, by decide, by decide, by decide +kernel⟩

/-- A frame of a lower and of a higher sender that uses number 5. -/
def lowRival : Frame := { uid := 9, number := 5, lifetime := 40, body := .release 1 }
def highRival : Frame := { uid := 0x8000000000000001, number := 5, lifetime := 40, body := .release 1 }

theorem witness_JoiningYieldsMemberDefendsOrRenumbers :
    (hearing lowRival joining).offers lowRival [] ∧ (hearing lowRival joining).sized ∧ lowRival.number? = 5 ∧ lowRival.modeKnown
      ∧ joining.dir.candidate = some 5 ∧ lowRival.isClaimMode 1 = false ∧ lowRival.uid ≠ joining.ownUid
      ∧ (claimFrame 0x8000000000000001 5 1).isClaimMode 1 = true ∧ joining.ownUid < (claimFrame 0x8000000000000001 5 1).uid
      ∧ (claimFrame 0x8000000000000001 5 1).modeKnown
      ∧ (hearing highRival member).offers highRival [] ∧ member.entry 5 = some (.own factoryUid) ∧ member.ownUid < highRival.uid
      ∧ member.org.holdDown.isSome = true ∧ { member.org with holdDown := none }.holdDown = none ∧ lowRival.uid < member.ownUid
      ∧ (slotting 0 (.found (job 1) 3 oneHopResult) (.held 3 [onePair] 9000) member).standsIn 0
          { state := .found (job 1) 3 oneHopResult, intent := .held 3 [onePair] 9000 } :=
  ⟨⟨rfl, rfl⟩, ⟨rfl, rfl, rfl, rfl, rfl, rfl, rfl, rfl, rfl, by decide +kernel, rfl, rfl, rfl⟩, rfl, trivial, rfl, rfl, by decide +kernel, rfl,
    by decide +kernel, Or.inl rfl, ⟨rfl, rfl⟩, rfl, by decide +kernel, rfl, rfl, by decide +kernel, ⟨rfl, rfl⟩⟩

theorem witness_ReportsAreStoredBySequence :
    (hearing (peerFrame (.report (reportOf 7 []))) (knowing 1 11 standby)).offers (peerFrame (.report (reportOf 7 []))) []
      ∧ (knowing 1 11 standby).sized ∧ (knowing 1 11 standby).active = true ∧ (knowing 1 11 standby).dir.station ≠ .joining
      ∧ (knowing 1 11 standby).ownNumber ≠ 1 ∧ (knowing 1 11 member).org.holdDown.isSome = true ∧ (knowing 1 11 standby).entry 1 = some (.peer 11 40000) ∧ (reportOf 7 []).wellFormed = true
      ∧ (reportOf 7 [linkTo 9 22 0]).wellFormed = false ∧ place (knowing 1 11 standby).tdb.staging 1 = none
      ∧ place (reported 6 (knowing 1 11 standby)).tdb.staging 1 = some { uid := 11, report := reportOf 6 [] }
      ∧ ((7 : BitVec 16) - 6).toNat = 1 ∧ ((7 : BitVec 16) - 5).toNat = 2 ∧ ((32774 : BitVec 16) - 7).toNat = 32767
      ∧ ((32775 : BitVec 16) - 7).toNat = 32768 :=
  ⟨⟨rfl, rfl⟩, ⟨rfl, rfl, rfl, rfl, rfl, rfl, rfl, rfl, rfl, by decide +kernel, rfl, rfl, rfl⟩, rfl, by decide, by decide, rfl, rfl,
    by decide, by decide, rfl, rfl, by decide, by decide, by decide, by decide⟩

theorem witness_LifetimesEndInPurge :
    (knowing 47 9 standby).inReset = false ∧ (knowing 47 9 standby).entry 47 = some (.peer 9 40000)
      ∧ (staging 31 (stagedIntent 9 1) standby).tdb.stagingIntents[31]? = some (some (stagedIntent 9 1)) := ⟨rfl, rfl, rfl⟩

theorem witness_ThirdRoundMakesMember :
    joining.inReset = false ∧ joining.dir.station = .joining ∧ joining.dir.candidate = some 5 ∧ joining.dir.roundTimer = some 40
      ∧ joining.dir.rounds < 2 ∧ joining.sized ∧ 2 ≤ ({ joining.dir with rounds := 2 } : Dir).rounds :=
  ⟨rfl, rfl, rfl, rfl, by decide, small_states_sized.2.1, by decide⟩

theorem witness_JoiningClaimsTheFirstFreeNumber :
    standby.inReset = false ∧ (∀ j, j < 0 → standby.entry ((standby.psr.working.base + (7 : BitVec 3).toNat + j) % 48) ≠ none)
      ∧ standby.entry ((standby.psr.working.base + (7 : BitVec 3).toNat + 0) % 48) = none ∧ standby.lrp.taking = false
      ∧ noNumber.dir.station = .noNumber ∧ noNumber.dir.noNumberTimer = some 40000 ∧ (∀ k, k < 48 → (crowded standby).entry k ≠ none)
      ∧ (crowded standby).dir.station = .standby ∧ member.dir.station ≠ .standby ∧ member.lrp.taking = false := by
  refine ⟨rfl, fun j h => absurd h (Nat.not_lt_zero j), by decide +kernel, rfl, rfl, rfl, by decide +kernel, rfl, by decide, rfl⟩

theorem witness_TraceWordSentIsTraceWordJudged :
    standby.inReset = false ∧ standby.active = true ∧ (tracing .dark .idle standby).degrees[0]?.any (fun x => x.trace ≠ .unequipped) = true
      ∧ 255 < 256 ∧ 7 < 8 ∧ (9 : Uid) ≠ standby.ownUid := ⟨rfl, rfl, rfl, by decide, by decide, by decide +kernel⟩

/-- A candidate counted once, and one counted twice. -/
def onceGood : Candidate := { id := { uid := 9, degree := 1 }, good := 1 }
def twiceGood : Candidate := { id := { uid := 9, degree := 1 }, good := 2 }

theorem witness_JudgementsMoveTheTraceState :
    (tracing (.searching none) (.hunt 3) standby).hears 0 { trace := .searching none, receiver := .hunt 3, txWord := none }
      ∧ (tracing (.searching (some twiceGood)) .found standby).hears 0 { trace := .searching (some twiceGood), receiver := .found, txWord := none }
      ∧ (tracing (.traced { uid := 9, degree := 1 } 3 false none 3) .locked standby).hears 0
          { trace := .traced { uid := 9, degree := 1 } 3 false none 3, receiver := .locked, txWord := none }
      ∧ wordSync (encodeTraceWord 9 3 1 false) = 0x1F35 ∧ wordSync 0 ≠ 0x1F35
      ∧ judgeWord standby.ownUid (encodeTraceWord 9 3 1 false) = .valid { uid := 9, degree := 1 } 3 false ∧ judgeWord standby.ownUid 0 = .invalid
      ∧ onceGood.good < 2 ∧ 2 ≤ twiceGood.good ∧ onceGood.id = twiceGood.id ∧ onceGood.id ≠ { uid := 10, degree := 1 } :=
  ⟨⟨rfl, rfl, rfl, by decide⟩, ⟨rfl, rfl, rfl, by decide⟩, ⟨rfl, rfl, rfl, by decide⟩, by decide +kernel, by decide +kernel, by decide +kernel, by decide +kernel,
    by decide, by decide, rfl, by decide⟩

theorem witness_NodeReportReplacesEnabledFields :
    standby.listens ∧ (List.replicate 112 (0 : Byte)).length = 112 ∧ standby.spm.degrees.length = 8 ∧ State.reset.listens
      ∧ State.reset.dir.station = .loading ∧ standby.dir.station ≠ .loading
      ∧ (decodeNodeReport ((0x04 : Byte) :: List.replicate 111 0)).enable.getLsbD 26 = true
      ∧ (∀ k, 26 ≤ k → (decodeNodeReport (List.replicate 112 0)).enable.getLsbD k = false) := by
  refine ⟨⟨rfl, rfl⟩, by decide, rfl, ⟨rfl, rfl⟩, rfl, by decide, by decide +kernel, fun k _ => ?_⟩
  have : (decodeNodeReport (List.replicate 112 0)).enable = 0 := by decide +kernel
  rw [this]; exact BitVec.getLsbD_zero

theorem witness_SpanReportMovesTheMonitor :
    standby.listens ∧ standby.dir.station ≠ .loading ∧ standby.spm.degrees[(7 : Byte).toNat]? = some SpmDegree.deviceReset
      ∧ standby.psr.working.degrees[(7 : Byte).toNat]? = some defaultMonitor ∧ SpmDegree.deviceReset.monitor = .clear
      ∧ min (65536 * (0 : Byte).toNat + 256 * (78 : Byte).toNat + (32 : Byte).toNat) 1000000 ≤ defaultMonitor.threshold
      ∧ defaultMonitor.threshold < min (65536 * (255 : Byte).toNat + 256 * (0 : Byte).toNat + (0 : Byte).toNat) 1000000
      ∧ 1 ≤ defaultMonitor.qualifier ∧ ({ defaultMonitor with qualifier := 0 } : MonitorParams).qualifier = 0
      ∧ (monitoring (.pending 3 false) 21000 standby).listens ∧ (monitoring (.degraded true) 21000 standby).listens
      ∧ State.reset.listens ∧ State.reset.dir.station = .loading ∧ standby.spm.degrees[(8 : Byte).toNat]? = none :=
  ⟨⟨rfl, rfl⟩, by decide, rfl, rfl, rfl, by decide, by decide, by decide, rfl, ⟨rfl, rfl⟩, ⟨rfl, rfl⟩, ⟨rfl, rfl⟩, rfl, rfl⟩

theorem witness_QualifierAndLatchDecideOnTheLatestLoad :
    (monitoring (.pending 0 false) 21000 standby).spm.degrees[(0 : Byte).toNat]?
        = some { SpmDegree.deviceReset with noise := 21000, monitor := .pending 0 false }
      ∧ standby.psr.working.degrees[(0 : Byte).toNat]? = some defaultMonitor ∧ (monitoring (.pending 0 false) 21000 standby).inReset = false
      ∧ (monitoring (.pending 0 false) 21000 State.reset).dir.station = .loading ∧ standby.dir.station ≠ .loading
      ∧ defaultMonitor.threshold < 21000 ∧ 20000 ≤ defaultMonitor.threshold
      ∧ (monitoring (.degraded true) 18000 standby).listens := ⟨rfl, rfl, rfl, rfl, by decide, by decide, by decide, ⟨rfl, rfl⟩⟩

theorem witness_OwnReportIsOriginated :
    member.inReset = false ∧ { member.org with pendingChange := true }.holdDown = some 300 ∧ member.org.refresh = some 9000
      ∧ member.dir.station = .member ∧ standby.dir.station ≠ .member ∧ member.org.missed.length ≤ 4 :=
  ⟨rfl, rfl, rfl, rfl, by decide, by decide⟩

theorem witness_EpochExpiryTransfersOrDefers :
    standby.inReset = false ∧ standby.tdb.epochTimer = some 500 ∧ (transferring standby).tdb.transferring = true
      ∧ standby.tdb.transferring = false ∧ standby.tdb.dirty = false ∧ (dirtied standby).tdb.dirty = true
      ∧ (dirtied (searching [atSource] standby)).anyRunning = true ∧ (dirtied standby).anyRunning = false :=
  ⟨rfl, rfl, rfl, rfl, rfl, rfl, rfl, rfl⟩

theorem witness_ForceEpochAnswersWhenTheTransferEnds :
    State.reset.listens ∧ State.reset.dir.station = .loading ∧ State.reset.tdb.transferring = false ∧ (dirtied standby).listens
      ∧ standby.dir.station ≠ .loading ∧ standby.dir.station ≠ .faulted ∧ (dirtied standby).tdb.dirty = true
      ∧ (dirtied standby).anyRunning = false ∧ (dirtied (searching [atSource] standby)).anyRunning = true ∧ standby.tdb.dirty = false
      ∧ (transferring standby).inReset = false ∧ (transferring standby).tdb.transferring = true ∧ (transferring standby).tdb.held = [] :=
  ⟨⟨rfl, rfl⟩, rfl, rfl, ⟨rfl, rfl⟩, by decide, by decide, rfl, rfl, rfl, rfl, rfl, rfl, rfl⟩

theorem witness_ReleaseRemovesOneIntentOfOneSender :
    (hearing (peerFrame (.release 7)) (knowing 1 11 standby)).offers (peerFrame (.release 7)) []
      ∧ (knowing 1 11 standby).entry 1 = some (.peer 11 40000) ∧ (knowing 1 11 standby).active = true
      ∧ (staging 0 (stagedIntent 11 7) (knowing 1 11 standby)).tdb.stagingIntents[0]? = some (some (stagedIntent 11 7))
      ∧ (∀ (q : Nat) (e : StagedIntent), q < 0 → (staging 0 (stagedIntent 11 7) (knowing 1 11 standby)).tdb.stagingIntents[q]? = some (some e) →
          e.entry.uid ≠ 11 ∨ e.entry.id ≠ 7)
      ∧ (∀ (q : Nat) (e : StagedIntent), standby.tdb.stagingIntents[q]? = some (some e) → e.entry.uid ≠ 11 ∨ e.entry.id ≠ 7) :=
  ⟨⟨rfl, rfl⟩, rfl, rfl, rfl, fun q _ h => absurd h (Nat.not_lt_zero q), fun q e h => by
    have hm := List.mem_of_getElem? h
    have : standby.tdb.stagingIntents = List.replicate 32 none := rfl
    rw [this] at hm
    exact absurd (List.mem_replicate.mp hm).2 (by simp)⟩

theorem witness_SpansNeedTwoAgreeingEnds : resolveSpans (twoStations standby) ≠ [] := by decide +kernel

theorem witness_SubmitChecksRefuseInOrder :
    State.reset.listens ∧ State.reset.dir.station = .loading ∧ standby.listens ∧ (standby.classOf 7).budget = 0 ∧ (standby.classOf 0).budget ≠ 0
      ∧ (slotting 0 (.queued (job 1)) .none standby).slots.any (fun x => x.state.tag == some 1) = true
      ∧ 4 ≤ (slotting 0 (.queued (job 1)) .none (slotting 1 (.queued (job 2)) .none (slotting 2 (.queued (job 3)) .none
          (slotting 3 (.queued (job 4)) .none standby)))).slots.countP (fun x => x.state.isQueued)
      ∧ ({ standby with slots := List.replicate 8 { state := .failed (job 9) 0 .noPath false, intent := .none } } : State).slots.all
          (fun x => !x.state.isFree) = true :=
  ⟨⟨rfl, rfl⟩, rfl, ⟨rfl, rfl⟩, by decide +kernel, by decide +kernel, by decide +kernel, by decide +kernel, by decide +kernel⟩

theorem witness_SubmitTakesTheLowestFreeSlot :
    standby.listens ∧ (1 : Byte) ≠ 0 ∧ (47 : Byte).toNat < 48 ∧ (1 : Byte) ≠ 47 ∧ (standby.classOf (0 : Byte).toNat).budget ≠ 0
      ∧ (∀ y ∈ standby.slots, y.state.tag ≠ some (1 : Byte).toNat) ∧ standby.slot 0 = some { state := .free, intent := .none }
      ∧ (∀ k, k < 0 → standby.slotState k ≠ some .free) ∧ standby.slots.countP (fun y => y.state.isQueued) < 4
      ∧ (slotting 7 (.running (job 9) 3) .none standby).anyRunning = true ∧ standby.anyRunning = false ∧ standby.tdb.pendingEpoch = false
      ∧ standby.reqQueue = [] ∧ (reportUnder (twoStations standby).tdb.active 1).isSome = true
      ∧ (reportUnder (twoStations standby).tdb.active 2).isSome = true ∧ reportUnder standby.tdb.active 47 = none :=
  ⟨⟨rfl, rfl⟩, by decide, by decide, by decide, by decide +kernel, by decide +kernel, rfl, fun k h => absurd h (Nat.not_lt_zero k),
    by decide +kernel, rfl, rfl, rfl, rfl, rfl, rfl, rfl⟩

theorem witness_CancelAndReleaseFreeASlot :
    standby.listens ∧ (slotting 7 (.queued (job 1)) .none standby).slot (7 : Byte).toNat = some { state := .queued (job 1), intent := .none }
      ∧ (slotting 7 (.running (job 1) 3) .none standby).slot (7 : Byte).toNat = some { state := .running (job 1) 3, intent := .none }
      ∧ (slotting 7 (.running (job 1) 3) .none standby).tdb.pendingEpoch = false
      ∧ (slotting 7 (.found (job 1) 3 oneHopResult) (.held 3 [onePair] 9000) member).slot 7
          = some { state := .found (job 1) 3 oneHopResult, intent := .held 3 [onePair] 9000 }
      ∧ standby.slot (0 : Byte).toNat = some { state := .free, intent := .none } ∧ standby.slot (8 : Byte).toNat = none :=
  ⟨⟨rfl, rfl⟩, rfl, rfl, rfl, rfl, rfl, rfl⟩

theorem witness_SettlementEndsOrWorksFromTheBestLabel :
    (searching [] standby).inReset = false ∧ (searching [] standby).pen.searching = some 0
      ∧ (searching [] standby).slot 0 = some { state := .running (job 1) 3, intent := .none } ∧ (searching [] standby).reqQueue = []
      ∧ (searching [] standby).tdb.pendingEpoch = false ∧ (searching [] standby).pen.frontier = []
      ∧ (searching [atDestination] standby).pen.frontier = [atDestination] ∧ atDestination.state.station = (job 1).request.destination
      ∧ atSource.state.station ≠ (job 1).request.destination
      ∧ ((stranded.searchEnv (job 1)).work atSource { stranded.pen with settled := [atSource], frontier := [], settlements := 1 }).frontier = []
      ∧ (((searching [atSource] (twoStations standby)).searchEnv (job 1)).work atSource
          { stranded.pen with settled := [atSource], frontier := [], settlements := 1 }).frontier ≠ [] :=
  ⟨rfl, rfl, rfl, rfl, rfl, rfl, rfl, rfl, by decide, by decide +kernel, by decide +kernel⟩

theorem witness_SearchKeepsTheFrontier_limits : sourceLabel.withinLimits (defaultClass 0) ∧ ∀ x ∈ ([] : List Reached), x.label.withinLimits (defaultClass 0) :=
  ⟨⟨by decide, by decide, Or.inl rfl, by decide, by decide⟩, fun _ h => absurd h List.not_mem_nil⟩

theorem witness_SearchKeepsTheFrontier_order :
    (stranded.searchEnv (job 1)).ordered [atDestination, atSource] ∧ [atDestination, atSource].length ≤ 256
      ∧ ([atDestination, atSource].map fun x => x.state).Nodup :=
  ⟨by unfold SearchEnv.ordered; decide +kernel, by decide, by decide⟩

theorem witness_CommitIntentClaimsThePath :
    standby.listens ∧ standby.slot 7 = some { state := .free, intent := .none } ∧ standby.dir.station ≠ .member ∧ member.listens
      ∧ (slotting 7 (.found (job 1) 3 oneHopResult) (.held 3 [onePair] 9000) member).standsIn 7
          { state := .found (job 1) 3 oneHopResult, intent := .held 3 [onePair] 9000 }
      ∧ (slotting 0 (.found (job 2) 3 oneHopResult) .none (twoStations member)).slot 0
          = some { state := .found (job 2) 3 oneHopResult, intent := .none }
      ∧ onePair ∈ oneHopResult.hops.filterMap (fun h => (hopSpan (twoStations member).tdb h).map fun sp =>
          { station := sp.low.station, degree := sp.low.degree, channel := h.channel })
      ∧ (∀ x ∈ (slotting 0 (.found (job 2) 3 oneHopResult) .none (twoStations member)).slots, x.intent.stands = false) :=
  ⟨⟨rfl, rfl⟩, rfl, by decide, ⟨rfl, rfl⟩, ⟨rfl, rfl⟩, rfl, by decide +kernel, by decide +kernel⟩

theorem witness_IntentTimersAndWithdraw :
    (slotting 7 (.found (job 1) 3 oneHopResult) (.claiming 3 [onePair] (some 0) 9000) member).slot (7 : Byte).toNat
        = some { state := .found (job 1) 3 oneHopResult, intent := .claiming 3 [onePair] (some 0) 9000 }
      ∧ (slotting 7 (.found (job 1) 3 oneHopResult) (.held 3 [onePair] 0) member).slot (7 : Byte).toNat
        = some { state := .found (job 1) 3 oneHopResult, intent := .held 3 [onePair] 0 }
      ∧ member.inReset = false ∧ member.listens ∧ (Intent.held 3 [onePair] 0).stands = true ∧ Intent.none.stands = false :=
  ⟨rfl, rfl, rfl, ⟨rfl, rfl⟩, rfl, rfl⟩

theorem witness_PeerIntentsAreStoredAndCompared_outranked :
    (hearing (peerFrame (.intent 7 4 [onePair]))
        (knowing 1 11 (slotting 0 (.found (job 1) 3 oneHopResult) (.claiming 3 [onePair] none 9000) member))).offers
        (peerFrame (.intent 7 4 [onePair])) []
      ∧ (knowing 1 11 member).entry 1 = some (.peer 11 40000)
      ∧ (slotting 0 (.found (job 1) 3 oneHopResult) (.claiming 3 [onePair] none 9000) member).standsIn 0
          { state := .found (job 1) 3 oneHopResult, intent := .claiming 3 [onePair] none 9000 }
      ∧ [onePair].Nodup ∧ (∀ y ∈ [onePair], y.station < 48 ∧ y.degree < 8 ∧ y.channel < 64) ∧ 3 < 4 ∧ (11 : Uid) < member.ownUid
      ∧ (11 : Uid) ≠ 22 :=
  ⟨⟨rfl, rfl⟩, rfl, ⟨rfl, rfl⟩, by decide, by decide, by decide, by decide +kernel, by decide⟩

theorem witness_TransactionsReadIgnoreAndRefuse :
    standby.inReset = false ∧ (taking standby).inReset = false ∧ (taking standby).lrp.taking = true
      ∧ [true, true, true, true, true, true, true].length < 8 ∧ (bytesOf (bitsOf [2, 0])).head? ≠ some 1 ∧ (bytesOf []).head? ≠ some 1
      ∧ fixedLength (.cancel [1, 0]) = some (33, 1, [1, 0]) ∧ standby.listens ∧ (255 : Byte) ∉ namedBytes :=
  ⟨rfl, rfl, rfl, by decide, by decide, by decide, rfl, ⟨rfl, rfl⟩, by decide⟩

theorem witness_ReadCommandsAnswerAndChangeNothing :
    standby.listens ∧ standby.degrees[(7 : Byte).toNat]? = some Degree.deviceReset
      ∧ standby.spm.degrees[(7 : Byte).toNat]? = some SpmDegree.deviceReset ∧ (47 : Byte).toNat < 48 ∧ (31 : Byte).toNat < 32
      ∧ standby.slot (7 : Byte).toNat = some { state := .free, intent := .none } ∧ standby.degrees[(8 : Byte).toNat]? = none
      ∧ 2 ≤ (2 : Byte).toNat ∧ 48 ≤ (48 : Byte).toNat ∧ 32 ≤ (32 : Byte).toNat :=
  ⟨⟨rfl, rfl⟩, rfl, rfl, by decide, by decide, rfl, rfl, by decide, by decide, by decide⟩

theorem witness_SetEnablesAndClearIndications :
    (indicating standby).listens ∧ (0x80 : Byte).getLsbD 7 = true ∧ (0x7F : Byte).getLsbD 7 = false
      ∧ ∀ x y : Byte, ([] : List Byte) ≠ [2, x, y] := ⟨⟨rfl, rfl⟩, by decide, by decide, fun _ _ => by simp⟩

theorem witness_RefusalsChangeOnlyThePort_lengths :
    standby.listens ∧ fixedLength (.cancel [2, 1, 1]) = some (33, 1, [2, 1, 1]) ∧ (2 : Byte).toNat ≠ 1
      ∧ ([0, 1, 1, 2, 0, 0, 0, 0, 1] : List Byte)[8]? = some 1
      ∧ ([1, 1, 2, 0, 0, 0, 0, 1] : List Byte).length ≠ 8 + ((1 : Byte).getLsbD 0).toNat + ((1 : Byte).getLsbD 1).toNat + 2 * ((1 : Byte).toNat / 16) :=
  ⟨⟨rfl, rfl⟩, rfl, by decide, rfl, by decide⟩

theorem witness_RefusalsChangeOnlyThePort :
    isCommand (.cancel [1, 9]) = true ∧ exec (.cancel [1, 9]) standby = .next (after (.cancel [1, 9]) standby)
      ∧ (after (.cancel [1, 9]) standby).lrp.number ≠ standby.lrp.number ∧ (after (.cancel [1, 9]) standby).lrp.status ≠ .ok
      ∧ (after (.cancel [1, 9]) standby).lrp.status ≠ .deferred := ⟨rfl, rfl, by decide, by decide, by decide⟩

theorem witness_PinsCarryTheirCommand :
    (Instr.start [0] 5).wellFormed = true ∧ encodeTransaction (.start [0] 5) = some [0x41, 0]
      ∧ [true, true, true, true, true, true, true].length < 8 := by decide

theorem witness_RowsWriteOnlyTheirBlocks :
    exec .frameStart standby = .next (after .frameStart standby) ∧ Block.dir ∉ rowWrites .frameStart := ⟨rfl, by decide⟩

theorem witness_StoreAndActiveViewStandStill_store :
    exec .storeBusyExpiry (writing standby) = .next (after .storeBusyExpiry (writing standby)) ∧ (writing standby).psr.busy.isSome = true
      ∧ exec .frameStart standby = .next (after .frameStart standby) ∧ Instr.frameStart ≠ .storeBusyExpiry := ⟨rfl, rfl, rfl, by decide⟩

theorem witness_StoreAndActiveViewStandStill_view :
    exec .frameStart stranded = .next (after .frameStart stranded) ∧ stranded.sized
      ∧ stranded.slotState 0 = some (.running (job 1) 3) ∧ (after .frameStart stranded).slotState 0 = some (.running (job 1) 3) :=
  ⟨rfl, ⟨rfl, rfl, rfl, rfl, rfl, rfl, rfl, rfl, rfl, by decide +kernel, rfl, rfl, rfl⟩, rfl, rfl⟩

/-! ## Witnesses of the step laws: a part at work, far from the state right after reset -/

/-- Stations 1, 2 and 5 (the part): a held path in slot 0, a search in slot 1, a request in slot 2 behind it, staged and active intents of
peers, an epoch pending, a frame on the line and one waiting, a degree that is traced. -/
def working : State :=
  let s := serving (.release 3) 0 (.send none) (slotting 0 (.found (job 1) 3 oneHopResult) (.held 3 [onePair] 9000) (twoStations member))
  let s := slotting 2 (.queued (job 3)) .none (slotting 1 (.running (job 2) 3) .none s)
  let s := staging 0 (stagedIntent 11 7) (staging 31 (stagedIntent 22 7) (hearing (peerFrame (.release 7)) s))
  { s with
    reqQueue := [2]
    pen := { searching := some 1, settled := [atSource], frontier := [atDestination], pruned := false, settlements := 1, diverse := [],
             ownPairs := [onePair] }
    tdb := { s.tdb with staging := s.tdb.active, activeIntents := s.tdb.activeIntents.set 0 (some (stagedIntent 11 7).entry), dirty := true,
                        pendingEpoch := true }
    degrees := s.degrees.set 0 { trace := .traced { uid := 22, degree := 0 } 2 false none 0, receiver := .locked,
                                 txWord := some (encodeTraceWord s.ownUid 5 0 false) } }

/-- What holds at each index of a list holds wherever the list is read. -/
theorem forall_of_fin {α : Type} {l : List α} {P : Nat → α → Prop} (h : ∀ i : Fin l.length, P i l[i]) :
    ∀ (n : Nat) (a : α), l[n]? = some a → P n a := by
  intro n a e
  obtain ⟨hn, rfl⟩ := List.getElem?_eq_some_iff.mp e
  exact h ⟨n, hn⟩

/-- What holds of each filled place of a table holds wherever the table is read. -/
theorem forall_place_of_fin {α : Type} {l : List (Option α)} {P : Nat → α → Prop} (h : ∀ i : Fin l.length, ∀ a ∈ l[i], P i a) :
    ∀ (n : Nat) (a : α), place l n = some a → P n a := by
  intro n a e
  unfold place at e
  rcases hn : l[n]? with _ | o
  · rw [hn] at e; cases e
  · rw [hn] at e
    exact forall_of_fin (P := fun n o => ∀ a ∈ o, P n a) (fun i => h i) n o hn a e

theorem witness_StepKeepsTablesAndQueues :
    working.sized ∧ working.bounded ∧ step { working with pending := [.settlement] } = .next (after .settlement working) := by
  refine ⟨⟨rfl, rfl, rfl, rfl, rfl, rfl, rfl, rfl, rfl, by decide +kernel, rfl, rfl, rfl⟩, ?_, rfl⟩
  exact ⟨by decide, by decide, by decide, by decide, by decide, by decide, by decide, by decide, by decide⟩

theorem witness_StepKeepsTablesAndQueues_tdbLaw : working.tdbLaw := by
  refine ⟨fun p q a b ha hb => ?_, fun p q a b ha hb => ?_, fun _ => rfl⟩
  · exact forall_place_of_fin (P := fun p a => ∀ q b, place working.tdb.stagingIntents q = some b → a.entry.uid = b.entry.uid →
      a.entry.id = b.entry.id → p = q) (fun i a ha => forall_place_of_fin (by revert i a ha; decide +kernel)) p a ha q b hb
  · exact forall_place_of_fin (P := fun p a => ∀ q b, place working.tdb.activeIntents q = some b → a.uid = b.uid → a.id = b.id → p = q)
      (fun i a ha => forall_place_of_fin (by revert i a ha; decide +kernel)) p a ha q b hb

theorem witness_StepKeepsTheDirectoryLaw :
    working.directoryLaw ∧ step { working with pending := [.takeReceivedFrame 0] } = .next (after (.takeReceivedFrame 0) working) := by
  refine ⟨⟨fun n m e f he hf => ?_, ?_, ?_, by decide +kernel, by decide +kernel, fun _ h => by cases (show (none : Option StoreWrite) = some _ from h)⟩, rfl⟩
  · exact forall_place_of_fin (P := fun n e => ∀ m f, place working.dir.entries m = some f → e.uid = f.uid → n = m)
      (fun i a ha => forall_place_of_fin (by revert i a ha; decide +kernel)) n e he m f hf
  · have h := forall_place_of_fin (l := working.dir.entries)
      (P := fun n e => ∀ u, e = .own u → u = working.ownUid ∧ working.dir.station = .member ∧ working.dir.candidate = some n)
      (by
        have : ∀ i : Fin working.dir.entries.length, ∀ a ∈ working.dir.entries[i], a = .own a.uid →
          a.uid = working.ownUid ∧ working.dir.station = .member ∧ working.dir.candidate = some i.val := by decide +kernel
        intro i a ha u hu
        subst hu
        exact this i _ ha rfl)
    exact fun n u e => h n _ e u rfl
  · have h := forall_place_of_fin (l := working.dir.entries) (P := fun _ e => ∀ u l, e = .peer u l → u ≠ working.ownUid)
      (by
        have : ∀ i : Fin working.dir.entries.length, ∀ a ∈ working.dir.entries[i], (∀ v, a ≠ .own v) → a.uid ≠ working.ownUid := by
          have : ∀ i : Fin working.dir.entries.length, ∀ a ∈ working.dir.entries[i], a = .own a.uid ∨ a.uid ≠ working.ownUid := by
            decide +kernel
          intro i a ha hv
          exact (this i a ha).resolve_left (hv _)
        intro i a ha u l e
        subst e
        exact this i _ ha (fun v => by simp))
    exact fun n u l e => h n _ e u l rfl

theorem working_slots : working.slots = [{ state := .found (job 1) 3 oneHopResult, intent := .held 3 [onePair] 9000 },
    { state := .running (job 2) 3, intent := .none }, { state := .queued (job 3), intent := .none }] ++ List.replicate 5 Slot.deviceReset := rfl

/-- The slots of `working`, case by case. -/
theorem working_slot {i : Nat} {x : Slot} (h : working.slot i = some x) :
    (i = 0 ∧ x = { state := .found (job 1) 3 oneHopResult, intent := .held 3 [onePair] 9000 })
      ∨ (i = 1 ∧ x = { state := .running (job 2) 3, intent := .none }) ∨ (i = 2 ∧ x = { state := .queued (job 3), intent := .none })
      ∨ (2 < i ∧ x = { state := .free, intent := .none }) :=
  forall_of_fin (l := working.slots) (P := fun i x => (i = 0 ∧ x = { state := .found (job 1) 3 oneHopResult, intent := .held 3 [onePair] 9000 })
      ∨ (i = 1 ∧ x = { state := .running (job 2) 3, intent := .none }) ∨ (i = 2 ∧ x = { state := .queued (job 3), intent := .none })
      ∨ (2 < i ∧ x = { state := .free, intent := .none })) (by decide +kernel) i x h

theorem working_slotState {i : Nat} {x : SlotState} (h : working.slotState i = some x) : ∃ y, working.slot i = some y ∧ y.state = x := by
  unfold State.slotState at h
  split at h
  · rename_i y hy; exact ⟨y, hy, Option.some.inj h⟩
  · cases h

theorem witness_StepKeepsTheSlotLaw :
    working.slotLaw ∧ step { working with pending := [.cancel [1, 2]] } = .next (after (.cancel [1, 2]) working) := by
  refine ⟨⟨fun i k a b tag ha hb hta htb => ?_, by decide, fun i => ⟨fun h => ?_, fun ⟨j, h⟩ => ?_⟩, by decide,
    fun i => ⟨fun h => ?_, fun ⟨j, e, h⟩ => ?_⟩⟩, rfl⟩
  · obtain ⟨x, hx, rfl⟩ := working_slotState ha
    obtain ⟨y, hy, rfl⟩ := working_slotState hb
    rcases working_slot hx with ⟨rfl, rfl⟩ | ⟨rfl, rfl⟩ | ⟨rfl, rfl⟩ | ⟨_, rfl⟩ <;>
      rcases working_slot hy with ⟨rfl, rfl⟩ | ⟨rfl, rfl⟩ | ⟨rfl, rfl⟩ | ⟨_, rfl⟩ <;>
      first | rfl | cases hta <;> cases htb
  · have : i = 2 := by simpa [working] using h
    subst this
    exact ⟨job 3, rfl⟩
  · obtain ⟨y, hy, hs⟩ := working_slotState h
    rcases working_slot hy with ⟨rfl, rfl⟩ | ⟨rfl, rfl⟩ | ⟨rfl, rfl⟩ | ⟨_, rfl⟩ <;> first | exact List.mem_singleton.mpr rfl | cases hs
  · have : (1 : Nat) = i := Option.some.inj h
    subst this
    exact ⟨job 2, 3, rfl⟩
  · obtain ⟨y, hy, hs⟩ := working_slotState h
    rcases working_slot hy with ⟨rfl, rfl⟩ | ⟨rfl, rfl⟩ | ⟨rfl, rfl⟩ | ⟨_, rfl⟩ <;> first | rfl | cases hs

theorem oneHopResult_lawful (tag : Nat) : oneHopResult.lawful (job tag).request :=
  ⟨by decide, by decide, ⟨rfl, rfl⟩, by simp [oneHopResult, oneHop, job, request], by decide,
    fun h e => by simp [oneHopResult] at e; subst e; rfl, by decide, by decide, rfl⟩

theorem witness_StepKeepsThePathLaw :
    working.pathLaw ∧ step { working with pending := [.settlement] } = .next (after .settlement working)
      ∧ (after .settlement working).slotState 1 ≠ working.slotState 1 := by
  refine ⟨⟨fun i j e r h => ?_, fun i j e hp h => ?_, fun i j h => ?_⟩, rfl, by decide +kernel⟩
  · have : ∃ y, working.slot i = some y ∧ (y.state = .found j e r ∨ ∃ why, y.state = .invalid j e r why) := by
      rcases h with h | ⟨w, h⟩
      · obtain ⟨y, hy, hs⟩ := working_slotState h; exact ⟨y, hy, .inl hs⟩
      · obtain ⟨y, hy, hs⟩ := working_slotState h; exact ⟨y, hy, .inr ⟨w, hs⟩⟩
    obtain ⟨y, hy, hs⟩ := this
    rcases working_slot hy with ⟨rfl, rfl⟩ | ⟨rfl, rfl⟩ | ⟨rfl, rfl⟩ | ⟨_, rfl⟩ <;> simp at hs
    obtain ⟨rfl, -, rfl⟩ := hs
    exact oneHopResult_lawful 1
  · obtain ⟨y, hy, hs⟩ := working_slotState h
    rcases working_slot hy with ⟨rfl, rfl⟩ | ⟨rfl, rfl⟩ | ⟨rfl, rfl⟩ | ⟨_, rfl⟩ <;> simp at hs
    obtain ⟨rfl, -⟩ := hs
    refine ⟨⟨trivial, rfl, by decide, rfl, rfl, rfl⟩, fun x hx => ?_, by decide +kernel⟩
    have : x = atDestination := List.mem_singleton.mp hx
    subst this
    exact ⟨by decide +kernel, atSource, rfl, by decide, by decide, rfl, by decide, rfl, by decide +kernel⟩
  · have : ∃ y, working.slot i = some y ∧ (y.state = .queued j ∨ ∃ e, y.state = .running j e) := by
      rcases h with h | ⟨w, h⟩
      · obtain ⟨y, hy, hs⟩ := working_slotState h; exact ⟨y, hy, .inl hs⟩
      · obtain ⟨y, hy, hs⟩ := working_slotState h; exact ⟨y, hy, .inr ⟨w, hs⟩⟩
    obtain ⟨y, hy, hs⟩ := this
    rcases working_slot hy with ⟨rfl, rfl⟩ | ⟨rfl, rfl⟩ | ⟨rfl, rfl⟩ | ⟨_, rfl⟩ <;> simp at hs
    · obtain ⟨rfl, -⟩ := hs; decide
    · subst hs; decide

theorem witness_StepKeepsTheIntentLaw :
    working.intentLaw ∧ step { working with pending := [.withdraw [1, 0]] } = .next (after (.withdraw [1, 0]) working) := by
  refine ⟨⟨rfl, fun i x hx h => ?_, fun i x h => rfl, fun i k x y hne ⟨hx, sx⟩ ⟨hy, sy⟩ => ?_⟩, rfl⟩
  · rcases working_slot hx with ⟨rfl, rfl⟩ | ⟨rfl, rfl⟩ | ⟨rfl, rfl⟩ | ⟨_, rfl⟩ <;> simp at h
    rfl
  · rcases working_slot hx with ⟨rfl, rfl⟩ | ⟨rfl, rfl⟩ | ⟨rfl, rfl⟩ | ⟨_, rfl⟩ <;>
      rcases working_slot hy with ⟨rfl, rfl⟩ | ⟨rfl, rfl⟩ | ⟨rfl, rfl⟩ | ⟨_, rfl⟩ <;>
      first | exact absurd rfl hne | exact absurd sx (by decide) | exact absurd sy (by decide)

theorem witness_StepKeepsTheLineLaw :
    working.lineLaw ∧ working.scTx ≠ none ∧ (working.degrees.any fun x => x.txWord.isSome) = true
      ∧ step { working with pending := [.mute [0]] } = .next (after (.mute [0]) working) :=
  ⟨⟨fun _ => rfl, fun _ => rfl, fun _ => rfl, by decide +kernel⟩, by simp [working, State.scTx, serving, hearing, staging, slotting], by decide +kernel, rfl⟩

theorem witness_StepKeepsValuesInRange :
    working.valuesInRange ∧ working.totalsBelowCeilings ∧ working.psr.working.inRange
      ∧ step { working with pending := [.settlement] } = .next (after .settlement working) := by
  refine ⟨⟨by decide, by decide, by decide, by decide +kernel, ?_, ?_, by decide +kernel⟩, ⟨?_, ?_, fun i x hx => ?_⟩, ?_, rfl⟩
  · exact forall_place_of_fin (by unfold Report.inRange Link.inRange; decide +kernel)
  · exact forall_place_of_fin (by unfold Report.inRange Link.inRange; decide +kernel)
  · unfold Label.belowCeilings; decide +kernel
  · unfold Label.belowCeilings; decide +kernel
  · rcases working_slot hx with ⟨rfl, rfl⟩ | ⟨rfl, rfl⟩ | ⟨rfl, rfl⟩ | ⟨_, rfl⟩ <;> trivial
  · unfold Params.inRange; decide +kernel

/-! ## More witnesses, clause by clause -/

/-- A slot that is FOUND, with a standing intent. -/
def heldSlot : Slot := { state := .found (job 1) 3 oneHopResult, intent := .held 3 [onePair] 9000 }
/-- A member whose slot 7 holds it. -/
def holding : State := slotting 7 heldSlot.state heldSlot.intent (twoStations member)
/-- A traced state. -/
def tracedTo9 : Trace := .traced { uid := 9, degree := 1 } 3 false (some onceGood) 2
/-- A part in FAULTED whose LOL pin of degree 0 is accepted asserted. -/
def faultedDark : State := darkened faulted

theorem witness_IdleStepPassesOneMillisecond :
    standby.pending = [] ∧ standby.inReset = false ∧ heldPart.pending = [] ∧ heldPart.inReset = true
      ∧ (tracing (.searching none) (.hunt 0) standby).degrees[0]? = some { trace := .searching none, receiver := .hunt 0, txWord := none }
      ∧ (Trace.searching none).hears = true ∧ standby.dir.station ≠ .faulted ∧ Trace.dark.hears = false
      ∧ faulted.pending = [] ∧ faulted.dir.station = .faulted := ⟨rfl, rfl, rfl, rfl, rfl, rfl, by decide, rfl, rfl, rfl⟩

theorem witness_RestartReturnsEveryBlockToLoading_degrees :
    (tracing .dark .idle faulted).listens ∧ (tracing .dark .idle faulted).dir.station = .faulted ∧ (tracing .dark .idle faulted).psr.busy = none
      ∧ (tracing .dark .idle faulted).degrees[0]? = some { trace := .dark, receiver := .idle, txWord := none }
      ∧ faulted.lolLevel 0 ≠ some true ∧ faultedDark.lolLevel 0 = some true ∧ faultedDark.dir.station = .faulted
      ∧ (tracing (.searching none) (.hunt 3) faultedDark).degrees[0]? = some { trace := .searching none, receiver := .hunt 3, txWord := none }
      ∧ tracedTo9.hears = true ∧ faulted.degrees[7]? = some Degree.deviceReset ∧ Degree.deviceReset.trace = .unequipped :=
  ⟨⟨rfl, rfl⟩, rfl, rfl, rfl, by decide, rfl, rfl, rfl, rfl, rfl, rfl⟩

theorem witness_MuteCommandsSetAndClearTheFlag_cut_off :
    (serving (.claim 5 1) 0 (.send none) joining).listens ∧ joining.sct.mute = false ∧ joining.dir.station = .joining
      ∧ joining.dir.candidate = some 5
      ∧ (serving (.claim 5 1) 0 (.send none) joining).sct.service.any (fun v => decide (v.body = .claim 5 1 ∧ v.phase = .send none)) = true
      ∧ (serving (.intent 7 3 [onePair]) 0 (.send none) holding).listens
      ∧ (serving (.intent 7 3 [onePair]) 0 (.send none) holding).standsIn 7 heldSlot
      ∧ (serving (.intent 7 3 [onePair]) 0 (.send none) holding).sct.service.any
          (fun v => decide (v.body = .intent 7 heldSlot.intent.priority heldSlot.intent.pairs ∧ v.phase = .send none)) = true
      ∧ (Body.report (reportOf 1 [])).isReport = true :=
  ⟨⟨rfl, rfl⟩, rfl, rfl, rfl, rfl, ⟨rfl, rfl⟩, ⟨rfl, rfl⟩, rfl, rfl⟩

theorem witness_CarrierAndDarkTimer_onset :
    standby.scr.carrier = false ∧ (decoding .seeking 0 standby).scr.carrier = true ∧ faulted.scr.carrier = false ∧ faulted.inReset = false
      ∧ faulted.dir.station = .faulted := ⟨rfl, rfl, rfl, rfl, rfl⟩

/-- A frame that uses number 48. -/
def frame48 (b : Body) : Frame := { uid := 9, number := 48, lifetime := 40, body := b }

theorem witness_FramesAreAcceptedByNumberAndUid_discarded :
    (hearing (frame48 (.release 1)) standby).offers (frame48 (.release 1)) [] ∧ standby.active = true
      ∧ 48 ≤ (frame48 (.report (reportOf 1 []))).number ∧ 48 ≤ (frame48 (.intent 1 1 [])).number
      ∧ (claimFrame 9 47 3).body = .claim 47 3 ∧ (3 : Nat) ≠ 1 ∧ (claimFrame 9 48 2).body = .claim 48 2 :=
  ⟨⟨rfl, rfl⟩, rfl, by decide, by decide, rfl, by decide, rfl⟩

/-- A part in JOINING and one in MEMBER that hold a peer under every number but 5. -/
def crowdedBut5 (e : Option DirEntry) (s : State) : State := { s with dir := { s.dir with entries := (crowded s).dir.entries.set 5 e } }

theorem witness_JoiningYieldsMemberDefendsOrRenumbers_next :
    (∀ u, (hearing lowRival joining).entry 5 ≠ some (.own u)) ∧ (joining.sct.queue.length < 8) ∧ joining.sct.queue.countP Body.isClaim ≤ 1
      ∧ (after (.takeReceivedFrame 0) (hearing lowRival joining)).dir.candidate = some 0
      ∧ (after (.takeReceivedFrame 0) (hearing lowRival (crowdedBut5 none joining))).dir.station = .noNumber
      ∧ (after (.takeReceivedFrame 0) (hearing lowRival member)).sct.queue = [.claim 0 1]
      ∧ (after (.takeReceivedFrame 0) (hearing lowRival (crowdedBut5 (some (.own factoryUid)) member))).dir.station = .noNumber := by
  refine ⟨fun u h => ?_, by decide, by decide, by decide +kernel, by decide +kernel, by decide +kernel, by decide +kernel⟩
  cases (show (none : Option DirEntry) = some (.own u) from h)

theorem witness_ThirdRoundMakesMember_mute :
    joining.sct.mute = false ∧ (muted joining).sct.mute = true ∧ (muted joining).dir.roundTimer = some 40 := ⟨rfl, rfl, rfl⟩

/-- A member whose own staging report is what it would report now, and one whose span monitor has changed since. -/
def reporting : State :=
  { member with tdb := { member.tdb with staging := member.tdb.staging.set 5 (some { uid := factoryUid, report := { member.ownReport with seq := 1 } }) } }

theorem witness_OwnReportIsOriginated_signals :
    (decoding .aligned 8 reporting).inReset = false ∧ reporting.dir.station = .member ∧ (decoding .aligned 8 reporting).scr.darkTimer.isSome = true
      ∧ (decoding .aligned 8 reporting).scr.channel = .aligned ∧ (decoding .seeking 0 reporting).scr.channel = .seeking
      ∧ (tracing (.traced { uid := 9, degree := 1 } 3 false none 3) (.hunt 0) reporting).hears 0
          { trace := .traced { uid := 9, degree := 1 } 3 false none 3, receiver := .hunt 0, txWord := none }
      ∧ reporting.listens ∧ reporting.spm.degrees[(7 : Byte).toNat]? = some SpmDegree.deviceReset
      ∧ min (65536 * (0 : Byte).toNat + 256 * (0 : Byte).toNat + (9 : Byte).toNat) 1000000 ≤ (reporting.monitorParams 7).threshold
      ∧ SpmDegree.deviceReset.noise = 0
      ∧ place reporting.tdb.staging reporting.ownNumber = some { uid := factoryUid, report := { member.ownReport with seq := 1 } }
      ∧ reporting.ownReport = { { member.ownReport with seq := 1 } with seq := reporting.ownReport.seq, missed := reporting.ownReport.missed }
      ∧ place member.tdb.staging member.ownNumber = none ∧ reporting.org.holdDown.isSome = true :=
  ⟨rfl, rfl, rfl, rfl, rfl, ⟨rfl, rfl, rfl, by decide⟩, ⟨rfl, rfl⟩, rfl, by decide +kernel, rfl, rfl, rfl, rfl, rfl⟩

theorem witness_OwnReportIsOriginated_changed :
    (∀ h, place (decoding .aligned 8 member).tdb.staging member.ownNumber = some h → False)
      ∧ ({ member.org with holdDown := none } : Org).holdDown = none := ⟨(fun _ e => nomatch e), rfl⟩

theorem witness_HandOverFollowsTheOrderedChecks_lost :
    (queued (fullQueue.dropLast ++ [.release 6]) holding).standsIn 7 heldSlot ∧ holding.dir.station = .member
      ∧ 8 ≤ (fullQueue.dropLast ++ [Body.release 6]).length ∧ (fullQueue.dropLast ++ [Body.release 6]).any (Body.isIntentOf 7) = false :=
  ⟨⟨rfl, rfl⟩, rfl, by decide, by decide⟩

theorem witness_QuietGapThenSendThenEcho_decided :
    (serving (.claim 5 1) 0 (.send (some true)) joining).inReset = false
      ∧ (serving (.claim 5 1) 0 (.send (some true)) joining).sct.service.any (fun v => decide (v.body = .claim 5 1 ∧ v.phase = .send (some true)))
      ∧ (serving (.release 3) 0 (.send (some false)) member).sct.service.any (fun v => decide (v.phase = .send (some false)))
      ∧ (slotting 7 heldSlot.state (.claiming 3 [onePair] none 9000) member).slot 7
          = some { state := heldSlot.state, intent := .claiming 3 [onePair] none 9000 } := ⟨rfl, rfl, rfl, rfl⟩

/-- A frame that carries the part's own unique ID and is not the one in service. -/
def wrongEcho : Frame := { uid := joining.ownUid, number := 255, lifetime := 40, body := .claim 6 1 }

theorem witness_EchoCompletesTheFrameInService_decides :
    classifyLine [] = .invalid
      ∧ classifyLine wrongEcho.onLine = .valid (encodeFrame wrongEcho) wrongEcho ∧ wrongEcho.uid = joining.ownUid
      ∧ (serving (.claim 5 1) 7 (.echo 1) (decoding .seeking 3 joining)).sct.service.any
          (fun v => decide (v.bytes ≠ delimiter :: encodeFrame wrongEcho ∧ 7 ≤ v.attempts)) = true
      ∧ classifyLine (claimFrame 9 7 1).onLine = .valid (encodeFrame (claimFrame 9 7 1)) (claimFrame 9 7 1)
      ∧ (claimFrame 9 7 1).uid ≠ joining.ownUid :=
  ⟨by decide, by decide +kernel, rfl, by decide +kernel, by decide +kernel, by decide +kernel⟩

/-- A peer's frame at number 47. -/
def frame47 (u : Uid) (b : Body) : Frame := { uid := u, number := 47, lifetime := 40, body := b }

theorem witness_FramesAreAcceptedByNumberAndUid_unknown_and_displacing :
    (hearing (frame47 8 (.report (reportOf 7 []))) (knowing 47 9 standby)).offers (frame47 8 (.report (reportOf 7 []))) []
      ∧ (frame47 8 (.report (reportOf 7 []))).number? = 47 ∧ (frame47 8 (.report (reportOf 7 []))).modeKnown
      ∧ (knowing 47 9 standby).sized ∧ (knowing 47 9 standby).active = true ∧ (knowing 47 9 standby).dir.station ≠ .joining
      ∧ (knowing 47 9 standby).entry 47 = some (.peer 9 40000) ∧ (8 : Uid) ≤ 9 ∧ (9 : Uid) < 10 ∧ standby.entry 47 = none
      ∧ (knowing 3 8 (knowing 47 9 standby)).numberOf 8 = some 3 ∧ (knowing 3 8 (knowing 47 9 standby)).entry 3 = some (.peer 8 40000)
      ∧ (reportOf 7 []).wellFormed = true ∧ (47 : Nat) ≠ standby.ownNumber ∧ (∀ l, standby.entry 47 ≠ some (.peer 8 l))
      ∧ (staging 31 (stagedIntent 8 1) standby).tdb.stagingIntents[31]? = some (some (stagedIntent 8 1))
      ∧ intentWellFormed 7 7 [onePair] = true ∧ standby.tdb.stagingIntents[0]? = some none :=
  ⟨⟨rfl, rfl⟩, rfl, trivial, ⟨rfl, rfl, rfl, rfl, rfl, rfl, rfl, rfl, rfl, by decide +kernel, rfl, rfl, rfl⟩, rfl, by decide, rfl, by decide,
    by decide, rfl, by decide +kernel, rfl, by decide, by decide, fun l h => (by cases (show (none : Option DirEntry) = some (.peer 8 l) from h)), rfl, by decide, rfl⟩

theorem witness_TraceWordSent_line :
    ∃ levels, ({ trace := .dark, receiver := .idle, txWord := some (encodeTraceWord 9 255 7 true) } : Degree).trTx = some levels
      ∧ heardWord levels = some (encodeTraceWord 9 255 7 true) := ⟨_, rfl, by decide +kernel⟩

theorem witness_JudgementsMoveTheTraceState_line :
    heardWord (manchester (bitsMsb (encodeTraceWord 9 3 1 false))) = some (encodeTraceWord 9 3 1 false)
      ∧ heardWord (manchester (bitsMsb (0 : TraceWord))) = some 0 ∧ heardWord [true, true] = none
      ∧ heardWord (manchester (bitsMsb (0x1F35 : BitVec 16)) ++ (manchester (bitsMsb (encodeTraceWord 9 3 1 false))).drop 32)
          = some (encodeTraceWord 9 3 1 false)
      ∧ heardWord (manchester (bitsMsb (0x1F35 : BitVec 16)) ++ [true, true]) = none :=
  ⟨by decide +kernel, by decide +kernel, by decide, by decide +kernel, by decide +kernel⟩

theorem witness_JudgementsMoveTheTraceState_hunt :
    (manchester (bitsMsb (0x1F35 : BitVec 16))).length = 2 * 16 ∧ syncAt (manchester (bitsMsb (0x1F35 : BitVec 16))) 16
      ∧ (∀ m, m < 16 → ¬ syncAt (manchester (bitsMsb (0x1F35 : BitVec 16))) m) ∧ ([] : List Bool).length = 2 * 0 ∧ ¬ syncAt [] 0 :=
  ⟨by decide, ⟨by decide, by decide +kernel⟩, fun m h hs => absurd hs.1 (Nat.not_le.mpr h), rfl, fun h => absurd h.1 (by decide)⟩

theorem witness_QualifierAndLatchDecideOnTheLatestLoad_held :
    (monitoring (.pending 0 true) 21000 State.reset).loading
      ∧ (monitoring (.pending 0 true) 21000 State.reset).spm.degrees[0]?
          = some { SpmDegree.deviceReset with noise := 21000, monitor := .pending 0 true }
      ∧ (loadParams (monitoring (.pending 0 true) 21000 State.reset).psr.store).degrees[0]? = some defaultMonitor
      ∧ defaultMonitor.threshold < 21000 ∧ State.reset.spm.degrees[7]? = some SpmDegree.deviceReset :=
  ⟨⟨rfl, rfl, rfl⟩, rfl, by decide +kernel, by decide, rfl⟩

/-! ### The result watch -/

/-- A FOUND slot 0 over the span of two stations, with a change staged, and what the next transfer makes the tables of. -/
def watched (x : Intent) (r : PathResult) (staged : State → List (Option StationReport)) : State :=
  let s := slotting 0 (.found (job 1) 3 r) x (dirtied (twoStations standby))
  { s with tdb := { s.tdb with staging := staged s } }
/-- The reports that stand, and those with the link entry of station 1 replaced. -/
def sameReports (s : State) : List (Option StationReport) := s.tdb.active
def relinked (f : Link → Link) (s : State) : List (Option StationReport) :=
  s.tdb.active.set 1 (some { uid := 11, report := reportOf 1 [f (linkTo 0 22 0)] })
/-- The span after a transfer of the reports that stand. -/
def oneSpan : Span :=
  { low := { station := 1, degree := 0 }, high := { station := 2, degree := 0 }, noise := 10, latency := 5, cost := 7, degraded := false, lit := 0 }
/-- The part after the transfer. -/
def transferred (s : State) : State := after .epochTimerExpiry s

theorem witness_ResultWatchJudgesFoundSlots :
    (watched .none oneHopResult sameReports).inReset = false ∧ (watched .none oneHopResult sameReports).tdb.epochTimer = some 500
      ∧ (watched .none oneHopResult sameReports).tdb.transferring = false ∧ (watched .none oneHopResult sameReports).tdb.dirty = true
      ∧ (watched .none oneHopResult sameReports).anyRunning = false ∧ (watched .none oneHopResult sameReports).reqQueue = []
      ∧ (watched .none oneHopResult sameReports).slot 0 = some { state := .found (job 1) 3 oneHopResult, intent := .none }
      ∧ (watched .none oneHopResult sameReports).slot 7 = some { state := .free, intent := .none } := ⟨rfl, rfl, rfl, rfl, rfl, rfl, rfl, rfl⟩

/-- A hop whose span is gone, one whose span is degraded, one whose channel the equipment lights. -/
theorem witness_ResultWatch_first_failing_hop :
    (transferred (watched .none oneHopResult fun _ => List.replicate 48 none)).hopFails 0 { state := .found (job 1) 3 oneHopResult, intent := .none }
        request oneHop .spanGone
      ∧ (transferred (watched .none oneHopResult (relinked fun l => { l with degraded := true }))).hopFails 0
        { state := .found (job 1) 3 oneHopResult, intent := .none } request oneHop .spanDegraded
      ∧ (transferred (watched .none oneHopResult (relinked fun l => { l with lit := 16 }))).hopFails 0
        { state := .found (job 1) 3 oneHopResult, intent := .none } request oneHop .channelTaken := by
  refine ⟨?_, ⟨{ oneSpan with degraded := true }, by decide +kernel, rfl, rfl⟩,
    ⟨{ oneSpan with lit := 16 }, by decide +kernel, .inl rfl, fun h => ?_⟩⟩
  · show hopSpan _ oneHop = none
    decide +kernel
  · rcases h.2.2.2.1 with h | h
    · exact absurd h (by decide)
    · exact absurd h (by decide)

/-- A hop over a span that stands, is not degraded and has the channel free fails no check. -/
theorem no_hop_fails {t : State} {i : Nat} {x : Slot} {sp : Span} (hs : hopSpan t.tdb oneHop = some sp) (hd : sp.degraded = false)
    (hf : t.freeFor i x request sp 4) : ∀ h ∈ [oneHop], ∀ w, ¬ t.hopFails i x request h w := by
  intro h hh w hw
  obtain rfl := List.mem_singleton.mp hh
  cases w <;> simp only [State.hopFails, hs] at hw
  · cases hw
  · obtain ⟨_, e, h1, _⟩ := hw; cases e; rw [hd] at h1; cases h1
  · obtain ⟨_, e, _, h1⟩ := hw; cases e; exact h1 hf

/-- The judgement after a transfer that finds every hop standing, as the second clause of the result watch writes it. -/
def watchedSegments (t : State) : List (Nat × Nat) :=
  sumSegments t.tdb (t.classOf 0) ([oneHop].filterMap (fun h => (hopSpan t.tdb h).map fun sp => ({ hop := h, span := sp } : Crossing)))

theorem witness_ResultWatch_totals :
    (transferred (watched .none oneHopResult sameReports)).freeFor 0 { state := .found (job 1) 3 oneHopResult, intent := .none } request oneSpan 4
      ∧ hopSpan (transferred (watched .none oneHopResult sameReports)).tdb oneHop = some oneSpan
      ∧ (∀ g ∈ watchedSegments (transferred (watched .none oneHopResult sameReports)),
          g.1 ≤ (standby.classOf 0).budget ∧ g.2 ≤ (standby.classOf 0).maxPasses) ∧ (standby.classOf 0).maxLatency = 0
      ∧ (∃ g ∈ watchedSegments (transferred (watched .none oneHopResult (relinked fun l => { l with noise := 40000 }))),
          (standby.classOf 0).budget < g.1)
      ∧ (∀ h ∈ oneHopResult.hops, h.regen = false)
      ∧ reportUnder (transferred (watched .none oneHopResult sameReports)).tdb.active oneHop.src = some (reportOf 1 [linkTo 0 22 0])
      ∧ (reportOf 1 [linkTo 0 22 0]).regens = 1 := by
  refine ⟨⟨⟨reportOf 1 [linkTo 0 22 0], by decide +kernel, by decide +kernel⟩, ⟨reportOf 1 [linkTo 0 11 0], by decide +kernel, by decide +kernel⟩,
    by decide +kernel, .inr (by decide), fun p e he => ?_, fun m y _ hy => ?_⟩, by decide +kernel, by decide +kernel, by decide +kernel,
    by decide +kernel, by decide, by decide +kernel, rfl⟩
  · have : ∀ p e, place (transferred (watched .none oneHopResult sameReports)).tdb.activeIntents p = some e → False :=
      forall_place_of_fin (by decide +kernel)
    exact (this p e he).elim
  · have : ∀ (m : Nat) (y : Slot), (transferred (watched .none oneHopResult sameReports)).slots[m]? = some y → y.intent.stands = false :=
      forall_of_fin (by decide +kernel)
    exact absurd hy.2 (by rw [this m y hy.1]; decide)

/-- A class with a latency limit below the path's, and a regeneration station that reports no regenerator. -/
def latencyBound (s : State) : State :=
  { s with psr := { s.psr with working := { s.psr.working with classes := s.psr.working.classes.set 0 { defaultClass 0 with maxLatency := 4 } } } }
def regenHop : Hop := { oneHop with regen := true }

theorem witness_ResultWatch_latency_and_regenerators :
    let t := transferred (latencyBound (watched .none oneHopResult sameReports))
    let u := transferred (watched .none oneHopResult fun s =>
      s.tdb.active.set 1 (some { uid := 11, report := { reportOf 1 [linkTo 0 22 0] with regens := 0 } }))
    (t.classOf 0).maxLatency ≠ 0 ∧ (t.classOf 0).maxLatency < sumLatency [{ hop := oneHop, span := oneSpan }]
      ∧ hopSpan u.tdb regenHop = some oneSpan ∧ regenHop.regen = true ∧ (reportUnder u.tdb.active regenHop.src).map (fun p => p.regens) = some 0 := by
  decide +kernel

/-! ### The epoch and its asks -/

/-- A state in which a transfer runs and asks wait. -/
def asking (asks : List EpochAsk) (s : State) : State := { s with tdb := { s.tdb with transferring := true, held := asks } }

theorem witness_ForceEpoch_waiting_asks :
    (asking [.expiry] standby).inReset = false ∧ (asking [.expiry] standby).tdb.held = [.expiry] ∧ (asking [.expiry] standby).beingTaken = false
      ∧ (asking [.expiry] standby).tdb.dirty = false ∧ (asking [.expiry] (dirtied (searching [atSource] standby))).tdb.dirty = true
      ∧ (asking [.expiry] (dirtied (searching [atSource] standby))).anyRunning = true
      ∧ (asking [.expiry, .force] (taking (dirtied standby))).tdb.held = .expiry :: [.force]
      ∧ (asking [.force] (taking (dirtied standby))).anyRunning = false ∧ (asking [.force] (taking standby)).dir.station ≠ .loading
      ∧ (asking [.force] (taking standby)).dir.station ≠ .faulted := ⟨rfl, rfl, rfl, rfl, rfl, rfl, rfl, rfl, by decide, by decide⟩

/-! ### SUBMIT in every form -/

/-- A SUBMIT with a hint, a diverse-from slot and four exclusions. -/
def fullForm (u v : Byte) : SubmitForm :=
  { tag := 9, src := 1, dst := 2, cls := 0, policy := 1, flags := 7, prio := 7, spare := 3, hint := some 63, diverse := some 7,
    items := [(u, 255), (v, 7), (4, 0), (47, 255)] }
/-- A slot 7 that holds a path, which it may refer to. -/
def referable : State := slotting 7 (.found (job 1) 3 oneHopResult) .none (twoStations standby)

theorem witness_SubmitChecksRefuseInOrder_forms :
    (fullForm 3 47).items.length < 16 ∧ (fullForm 3 47).outOfRange = false ∧ (fullForm 48 3).outOfRange = true ∧ (fullForm 3 48).outOfRange = true
      ∧ (fullForm 1 3).excludesEndpoint = true ∧ (fullForm 3 1).excludesEndpoint = false ∧ standby.badRef (fullForm 3 4) = true
      ∧ referable.badRef (fullForm 3 4) = false ∧ ({ fullForm 3 4 with hint := some 64 } : SubmitForm).outOfRange = true
      ∧ ({ fullForm 3 4 with diverse := some 8 } : SubmitForm).outOfRange = true
      ∧ ({ fullForm 3 4 with src := 2 } : SubmitForm).src = (fullForm 3 4).dst := by
  refine ⟨by decide, by decide, by decide, by decide, by decide, by decide, by decide +kernel, by decide +kernel, by decide, by decide, rfl⟩

/-- The row of that form spells the layout of R188: presence byte 4F, then hint, diverse-from index and items. -/
theorem test_submit_form_spells_the_layout :
    (fullForm 3 4).row = .submit [18, 9, 1, 2, 0, 1, 7, 7, 0x4F, 63, 7, 3, 255, 4, 7, 4, 0, 47, 255] := by decide +kernel

theorem witness_SubmitTakesTheLowestFreeSlot_forms :
    referable.listens ∧ referable.dir.station ≠ .loading ∧ referable.dir.station ≠ .faulted ∧ (fullForm 3 4).outOfRange = false
      ∧ (fullForm 3 4).src ≠ (fullForm 3 4).dst ∧ (fullForm 3 4).excludesEndpoint = false
      ∧ (referable.classOf (fullForm 3 4).cls.toNat).budget ≠ 0 ∧ (∀ y ∈ referable.slots, y.state.tag ≠ some (fullForm 3 4).tag.toNat)
      ∧ referable.badRef (fullForm 3 4) = false ∧ referable.slot 0 = some { state := .free, intent := .none }
      ∧ referable.slots.countP (fun y => y.state.isQueued) < 4
      ∧ (reportUnder referable.tdb.active (fullForm 3 4).src.toNat).isSome = true
      ∧ (reportUnder referable.tdb.active (fullForm 3 4).dst.toNat).isSome = true
      ∧ referable.endsOf (fullForm 3 4) = [{ station := 1, degree := 0 }] :=
  ⟨⟨rfl, rfl⟩, by decide, by decide, by decide, by decide, by decide, by decide +kernel, by decide +kernel, by decide +kernel, rfl,
    by decide +kernel, rfl, rfl, by decide +kernel⟩

/-! ### A slot that leaves RUNNING -/

theorem witness_LeftRunning :
    working.listens ∧ working.slot (1 : Byte).toNat = some { state := .running (job 2) 3, intent := .none } ∧ working.tdb.pendingEpoch = true
      ∧ working.reqQueue = 2 :: [] ∧ working.slotState 2 = some (.queued (job 3)) ∧ (job 3).request.diverse = none
      ∧ (∀ m y, m ≠ 1 → working.slot m = some y → y.state.isRunning = false)
      ∧ (reportUnder (after (.cancel [1, 1]) working).tdb.active (job 3).request.source).isSome = true
      ∧ (reportUnder (after (.cancel [1, 1]) working).tdb.active (job 3).request.destination).isSome = true := by
  refine ⟨⟨rfl, rfl⟩, rfl, rfl, rfl, rfl, rfl, fun m y hm hy => ?_, by decide +kernel, by decide +kernel⟩
  rcases working_slot hy with ⟨rfl, rfl⟩ | ⟨rfl, rfl⟩ | ⟨rfl, rfl⟩ | ⟨_, rfl⟩ <;> first | rfl | exact absurd rfl hm

theorem witness_LeftRunning_settlement :
    working.inReset = false ∧ working.pen.searching = some 1 ∧ working.slot 1 = some { state := .running (job 2) 3, intent := .none }
      ∧ working.pen.frontier = atDestination :: [] ∧ atDestination.state.station = (job 2).request.destination
      ∧ ({ working.pen with frontier := [] } : Pen).frontier = []
      ∧ (reportUnder (after .settlement working).tdb.active (job 3).request.source).isSome = true
      ∧ (reportUnder (after .settlement working).tdb.active (job 3).request.destination).isSome = true :=
  ⟨rfl, rfl, rfl, rfl, rfl, rfl, by decide +kernel, by decide +kernel⟩

/-! ### Peer intents -/

theorem witness_PeerIntentsAreStoredAndCompared_held :
    (hearing (peerFrame (.intent 7 2 [onePair])) holding).offers (peerFrame (.intent 7 2 [onePair])) [] ∧ holding.dir.station = .member
      ∧ holding.entry 1 = some (.peer 11 40000) ∧ holding.slot 7 = some { state := heldSlot.state, intent := .held 3 [onePair] 9000 }
      ∧ 2 < 3 ∧ onePair ∈ [onePair] ∧ holding.sct.queue = [] ∧ factoryUid ≤ 0x8000000000000001 :=
  ⟨⟨rfl, rfl⟩, rfl, rfl, rfl, by decide, by decide, rfl, by decide +kernel⟩

theorem witness_PeerIntentsAreStoredAndCompared_places :
    (hearing (peerFrame (.intent 7 7 [onePair])) (knowing 1 11 standby)).offers (peerFrame (.intent 7 7 [onePair])) []
      ∧ (knowing 1 11 standby).active = true ∧ (knowing 1 11 standby).dir.station ≠ .joining
      ∧ (knowing 1 11 standby).entry 1 = some (.peer 11 40000) ∧ intentWellFormed 7 7 [onePair] = true
      ∧ (staging 31 (stagedIntent 11 7) standby).tdb.stagingIntents[31]? = some (some (stagedIntent 11 7))
      ∧ (stagedIntent 11 7).entry.uid = 11 ∧ (stagedIntent 11 7).entry.id = 7 ∧ standby.tdb.stagingIntents[0]? = some none
      ∧ (∀ (q : Nat) (o : StagedIntent), standby.tdb.stagingIntents[q]? = some (some o) → o.entry.uid ≠ 11 ∨ o.entry.id ≠ 7)
      ∧ (∀ q : Nat, ({ standby.tdb with stagingIntents := List.replicate 32 (some (stagedIntent 22 1)) } : Tdb).stagingIntents[q]? ≠ some none)
      ∧ ¬ [onePair, onePair].Nodup ∧ 8 ≤ 8 ∧ (∃ y ∈ [{ onePair with channel := 64 }], 48 ≤ y.station ∨ 8 ≤ y.degree ∨ 64 ≤ y.channel) := by
  refine ⟨⟨rfl, rfl⟩, rfl, by decide, rfl, by decide, rfl, rfl, rfl, rfl, fun q o h => ?_, fun q h => ?_, by decide, by decide, by decide⟩
  · have := forall_of_fin (l := standby.tdb.stagingIntents) (P := fun _ o => o = none) (by decide +kernel) q _ h
    cases this
  · have := forall_of_fin (l := List.replicate 32 (some (stagedIntent 22 1))) (P := fun _ o => o ≠ none) (by decide +kernel) q _ h
    exact this rfl

/-! ### READ SLOT -/

theorem witness_ReadSlot_shows_every_state :
    working.shownIn { state := .queued (job 3), intent := .none } (job 3) 1 0 0 0 noResult
      ∧ working.shownIn { state := .running (job 2) 3, intent := .none } (job 2) 2 3 0 1 noResult
      ∧ working.shownIn heldSlot (job 1) 3 3 0 0 oneHopResult
      ∧ working.shownIn { heldSlot with state := .invalid (job 1) 3 oneHopResult .regenGone } (job 1) 4 3 9 0 oneHopResult
      ∧ working.shownIn { state := .failed (job 1) 3 .refLost true, intent := .none } (job 1) 5 3 3 0 { noResult with pruned := true }
      ∧ holding.listens ∧ holding.slot (7 : Byte).toNat = some heldSlot :=
  ⟨⟨rfl, rfl, rfl, rfl, rfl, rfl⟩, ⟨rfl, rfl, rfl, rfl, rfl, rfl⟩, ⟨rfl, rfl, rfl, rfl, rfl, rfl⟩, ⟨rfl, rfl, rfl, rfl, rfl, rfl⟩,
    ⟨rfl, rfl, rfl, rfl, rfl, rfl⟩, ⟨rfl, rfl⟩, rfl⟩

end Sys2Proof.Tests
end

section
/-! # The laws that every step keeps: tables, queues, topology database, lines -/

namespace Sys2Proof.Machine

/-! ## The parts of the laws, block by block -/

/-- The sizes of the four tables of the topology database (R77). -/
def Tdb.Sized (t : Tdb) : Prop :=
  t.staging.length = 48 ∧ t.active.length = 48 ∧ t.stagingIntents.length = 32 ∧ t.activeIntents.length = 32

/-- The law of the topology database, read from the block alone (R77, R86). -/
def Tdb.Law (t : Tdb) : Prop :=
  (∀ p q a b, place t.stagingIntents p = some a → place t.stagingIntents q = some b →
      a.entry.uid = b.entry.uid → a.entry.id = b.entry.id → p = q)
    ∧ (∀ p q a b, place t.activeIntents p = some a → place t.activeIntents q = some b → a.uid = b.uid → a.id = b.id → p = q)
    ∧ (t.pendingEpoch = true → t.dirty = true)

/-- A new database keeps the sizes and the law of the old one. -/
structure Tdb.Keeps (a b : Tdb) : Prop where
  sized : a.Sized → b.Sized
  law : a.Law → b.Law

/-- The bounds of the receiver: receive queue, history, good run (R6, R7). -/
def Scr.Within (x : Scr) : Prop := x.rxQueue.length ≤ 8 ∧ x.history.length ≤ 16 ∧ x.goodRun ≤ 8

/-- The law of the transmit queue (R9): at most eight frames, one CLAIM and one REPORT. -/
def QueueLaw (q : List Body) : Prop := q.length ≤ 8 ∧ q.countP Body.isClaim ≤ 1 ∧ q.countP Body.isReport ≤ 1

/-- The law of the missed list (R74). -/
def MissedLaw (l : List Nat) : Prop := l.length ≤ 4 ∧ l.Nodup

theorem tdbLaw_iff (s : State) : s.tdbLaw ↔ s.tdb.Law := Iff.rfl

theorem bounded_iff (s : State) :
    s.bounded ↔ s.scr.Within ∧ QueueLaw s.sct.queue ∧ MissedLaw s.org.missed ∧ s.pen.frontier.length ≤ 256 := by
  simp only [State.bounded, Scr.Within, QueueLaw, MissedLaw, and_assoc]

theorem scTx_ne_none_iff (s : State) : s.scTx ≠ none ↔ ∃ v d, s.sct.service = some v ∧ v.phase = .send d := by
  unfold State.scTx
  cases hs : s.sct.service with
  | none => simp
  | some v => cases hp : v.phase <;> simp [hp]

/-- The states in which the transmitter sends are among those in which the part is active (R14, R20). -/
theorem active_of_transmits (s : State) (h : s.transmits = true) : s.active = true := by
  simp only [State.transmits, State.active, decide_eq_true_eq] at h ⊢
  tauto

/-! ## Keeping the laws -/

/-- The passage from `s` to `t` keeps the sizes of the tables, the bounds of the queues, the law of the topology database, and the
silence of the lines. -/
structure KeepsLaws (s t : State) : Prop where
  sized : s.sized → t.sized
  bounded : s.bounded → t.bounded
  database : s.tdbLaw → t.tdbLaw
  lines : s.lineLaw → t.lineLaw

namespace KeepsLaws

variable {s t u : State}

theorem refl (s : State) : KeepsLaws s s := ⟨id, id, id, id⟩

theorem trans (h : KeepsLaws s t) (k : KeepsLaws t u) : KeepsLaws s u :=
  ⟨k.sized ∘ h.sized, k.bounded ∘ h.bounded, k.database ∘ h.database, k.lines ∘ h.lines⟩

/-- Transitivity with the second passage first, whose end the goal names. -/
theorem after (k : KeepsLaws t u) (h : KeepsLaws s t) : KeepsLaws s u := h.trans k

/-- A fold keeps the laws when each of its steps does. -/
theorem foldl {α : Type} (f : State → α → State) (h : ∀ s a, KeepsLaws s (f s a)) (l : List α) (s : State) :
    KeepsLaws s (l.foldl f s) := by
  induction l generalizing s with
  | nil => exact refl s
  | cons a l ih => exact (h s a).trans (ih _)

/-! ### One lemma for each block that is replaced -/

theorem withPending (s : State) (x : List Instr) : KeepsLaws s { s with pending := x } := ⟨id, id, id, id⟩
theorem withInReset (s : State) (x : Bool) : KeepsLaws s { s with inReset := x } := ⟨id, id, id, id⟩
theorem withLrp (s : State) (x : Lrp) : KeepsLaws s { s with lrp := x } := ⟨id, id, id, id⟩
theorem withNtf (s : State) (x : Ntf) : KeepsLaws s { s with ntf := x } := ⟨id, id, id, id⟩
theorem withReqQueue (s : State) (x : List Nat) : KeepsLaws s { s with reqQueue := x } := ⟨id, id, id, id⟩

theorem withScr (s : State) (x : Scr) (h : s.scr.Within → x.Within) : KeepsLaws s { s with scr := x } :=
  ⟨id, fun b => (bounded_iff _).2 (((bounded_iff s).1 b).imp_left h), id, id⟩

theorem withOrg (s : State) (x : Org) (h : MissedLaw s.org.missed → MissedLaw x.missed) : KeepsLaws s { s with org := x } :=
  ⟨id, fun b => (bounded_iff _).2 (((bounded_iff s).1 b).imp_right fun c => c.imp_right fun d => d.imp_left h), id, id⟩

theorem withPen (s : State) (x : Pen) (h : s.pen.frontier.length ≤ 256 → x.frontier.length ≤ 256) :
    KeepsLaws s { s with pen := x } :=
  ⟨id, fun b => (bounded_iff _).2 (((bounded_iff s).1 b).imp_right fun c => c.imp_right fun d => d.imp_right h), id, id⟩

theorem withTdb (s : State) (x : Tdb) (h : s.tdb.Keeps x) : KeepsLaws s { s with tdb := x } where
  sized := fun ⟨he, hs, ha, hi, hj, rest⟩ =>
    have ⟨hs', ha', hi', hj'⟩ := h.sized ⟨hs, ha, hi, hj⟩
    ⟨he, hs', ha', hi', hj', rest⟩
  bounded := id
  database := h.law
  lines := id

theorem withSlots (s : State) (x : List Slot) (h : x.length = s.slots.length) : KeepsLaws s { s with slots := x } :=
  ⟨by simp only [State.sized, h, imp_self], id, id, id⟩

theorem withSpm (s : State) (x : Spm) (h : x.degrees.length = s.spm.degrees.length) : KeepsLaws s { s with spm := x } :=
  ⟨by simp only [State.sized, h, imp_self], id, id, id⟩

theorem withPins (s : State) (x : Pins) (h : x.lol.length = s.pins.lol.length) : KeepsLaws s { s with pins := x } :=
  ⟨by simp only [State.sized, h, imp_self], id, id, id⟩

theorem withPsr (s : State) (x : Psr) (hs : x.store.length = s.psr.store.length)
    (ho : s.psr.store.length = 70 → s.psr.outcomes.length = 70 → x.outcomes.length = 70)
    (hd : s.psr.working.degrees.length = 8 → x.working.degrees.length = 8)
    (hc : s.psr.working.classes.length = 8 → x.working.classes.length = 8) : KeepsLaws s { s with psr := x } where
  sized := fun ⟨he, h1, h2, h3, h4, h5, h6, h7, h8, h9, h10, h11, h12⟩ =>
    ⟨he, h1, h2, h3, h4, h5, h6, h7, h8, hs.trans h9, ho h9 h10, hd h11, hc h12⟩
  bounded := id
  database := id
  lines := id

/-- A directory of the same size, in a station state that sends and transmits where the old one did. -/
theorem withDir (s : State) (x : Dir) (hl : x.entries.length = s.dir.entries.length)
    (ht : s.transmits = true → State.transmits { s with dir := x } = true)
    (ha : s.active = true → State.active { s with dir := x } = true) : KeepsLaws s { s with dir := x } where
  sized := by simp only [State.sized, hl, imp_self]
  bounded := id
  database := id
  lines := fun ⟨hq, hv, hm, hd⟩ => ⟨ht ∘ hq, ht ∘ hv, hm, fun y hy hw => (hd y hy hw).imp_left ha⟩

/-- A transmitter that gains frames in JOINING and MEMBER alone and sends only where the mute flag is clear. -/
theorem withSct (s : State) (x : Sct) (hq : QueueLaw s.sct.queue → QueueLaw x.queue)
    (hn : x.queue ≠ [] → s.sct.queue ≠ [] ∨ s.transmits = true)
    (hv : x.service ≠ none → s.sct.service ≠ none ∨ s.transmits = true)
    (hm : ∀ v d, x.service = some v → v.phase = .send d → s.scTx ≠ none ∧ x.mute = s.sct.mute ∨ x.mute = false) :
    KeepsLaws s { s with sct := x } where
  sized := id
  bounded := fun b => (bounded_iff _).2 (((bounded_iff s).1 b).imp_right fun c => c.imp_left hq)
  database := id
  lines := fun ⟨lq, lv, lm, ld⟩ =>
    ⟨fun h => (hn h).elim lq id, fun h => (hv h).elim lv id, fun h => by
      obtain ⟨v, d, hs, hp⟩ := (scTx_ne_none_iff _).1 h
      rcases hm v d hs hp with ⟨ht, he⟩ | he
      · exact he.trans (lm ht)
      · exact he, ld⟩

/-- Degrees of the same number, each quiet unless the part may send words. -/
theorem withDegrees (s : State) (x : List Degree) (hl : x.length = s.degrees.length)
    (hw : (∀ y ∈ s.degrees, y.txWord ≠ none → s.active = true ∧ y.trace.equipped = true) →
      ∀ y ∈ x, y.txWord ≠ none → s.active = true ∧ y.trace.equipped = true) : KeepsLaws s { s with degrees := x } where
  sized := by simp only [State.sized, hl, imp_self]
  bounded := id
  database := id
  lines := fun ⟨hq, hv, hm, hd⟩ => ⟨hq, hv, hm, hw hd⟩

end KeepsLaws

/-! ## Indications and the request port -/

theorem raise_keepsLaws (i : Indication) (s : State) : KeepsLaws s (raise i s) := .withNtf s _

theorem raiseIf_keepsLaws (c : Bool) (i : Indication) (s : State) : KeepsLaws s (raiseIf c i s) := by
  cases c
  · exact .refl s
  · exact raise_keepsLaws i s

theorem respond_keepsLaws (c : Byte) (st : Status) (cl : Bool) (p : List Byte) (s : State) : KeepsLaws s (respond c st cl p s) :=
  .withLrp s _

theorem respondOk_keepsLaws (c : Byte) (p : List Byte) (s : State) : KeepsLaws s (respondOk c p s) := .withLrp s _

theorem refuse_keepsLaws (c : Byte) (st : Status) (s : State) : KeepsLaws s (refuse c st s) := .withLrp s _

theorem clockZeros_keepsLaws (n : Nat) (s : State) : KeepsLaws s (clockZeros n s) := .withLrp s _

theorem ignore_keepsLaws (s : State) : KeepsLaws s (ignore s) := .withLrp s _

theorem live_keepsLaws (f : State → State) (s : State) (h : KeepsLaws s (f s)) : KeepsLaws s (live f s) := by
  unfold live
  split
  · exact .refl s
  · exact h

theorem endTransaction_keepsLaws (n : Nat) (act : State → State) (s : State) (h : ∀ u, KeepsLaws u (act u)) :
    KeepsLaws s (endTransaction n act s) := by
  have hz := clockZeros_keepsLaws n s
  unfold endTransaction
  dsimp only
  split
  · exact hz
  · split
    · exact hz.trans (ignore_keepsLaws _)
    · exact hz.trans (h _)

/-- A command transaction keeps the laws when what the command does with its payload keeps them (R161). -/
theorem takeCommand_keepsLaws (c : Byte) (agrees : List Byte → Bool) (rest : List Byte) (act : List Byte → State → State) (s : State)
    (h : ∀ p u, KeepsLaws u (act p u)) : KeepsLaws s (takeCommand c agrees rest act s) := by
  refine endTransaction_keepsLaws _ _ s fun u => ?_
  split
  · exact refuse_keepsLaws c _ u
  · split
    · exact h _ u
    · exact refuse_keepsLaws c _ u

/-! ## The transmit queue -/

theorem removeFirst_sublist {α : Type} (p : α → Bool) (l : List α) : (removeFirst p l).Sublist l := by
  induction l with
  | nil => exact .refl _
  | cons x xs ih =>
    unfold removeFirst
    split
    · exact List.sublist_cons_self x xs
    · exact ih.cons_cons x

/-- A replacement adds no element of a kind that the replaced ones are not of. -/
theorem countP_replaceFirst_le {α : Type} (p q : α → Bool) (y : α) (h : q y = true → ∀ x, p x = true → q x = true) (l : List α) :
    (replaceFirst p y l).countP q ≤ l.countP q := by
  induction l with
  | nil => exact Nat.le_refl _
  | cons x xs ih =>
    unfold replaceFirst
    split
    · rename_i hx
      cases hy : q y with
      | false => simp [List.countP_cons, hy]
      | true => simp [hy, h hy x hx]
    · simpa [List.countP_cons] using ih

theorem queueLaw_nil : QueueLaw [] := by simp [QueueLaw]

theorem queueLaw_of_sublist {a b : List Body} (h : a.Sublist b) (hb : QueueLaw b) : QueueLaw a :=
  ⟨h.length_le.trans hb.1, (h.countP_le).trans hb.2.1, (h.countP_le).trans hb.2.2⟩

/-- A frame that joins the queue at its end, with no other of its kind queued where the kind is CLAIM or REPORT. -/
theorem countP_append_le_one (k : Body → Bool) (q : List Body) (f : Body) (hq : q.countP k ≤ 1) (hf : k f = true → q.countP k = 0) :
    (q ++ [f]).countP k ≤ 1 := by
  cases hk : k f with
  | false => simpa [List.countP_append, hk] using hq
  | true => simp [List.countP_append, hk, hf hk]

theorem countP_zero_of_any_false {k : Body → Bool} {q : List Body} (h : q.any k = false) : q.countP k = 0 := by
  rw [List.countP_eq_zero]
  exact fun x hx hk => by simp [List.any_eq_false] at h; exact absurd hk (by simp [h x hx])

theorem enqueueNew_queueLaw (q : List Body) (f : Body) (hq : QueueLaw q) (hc : f.isClaim = true → q.countP Body.isClaim = 0)
    (hr : f.isReport = true → q.countP Body.isReport = 0) : QueueLaw (enqueueNew q f).1 := by
  refine ⟨enqueueNew_length q f hq.1, ?_, ?_⟩ <;> unfold enqueueNew
  · split
    · exact countP_append_le_one _ q f hq.2.1 hc
    · split
      · exact hq.2.1
      · split
        · have hs := (removeFirst_sublist Body.isReport q).countP_le (p := Body.isClaim)
          exact countP_append_le_one _ _ f (hs.trans hq.2.1) fun h => Nat.le_zero.1 (hs.trans (hc h).le)
        · exact hq.2.1
  · split
    · exact countP_append_le_one _ q f hq.2.2 hr
    · split
      · exact hq.2.2
      · split
        · have hs := (removeFirst_sublist Body.isReport q).countP_le (p := Body.isReport)
          exact countP_append_le_one _ _ f (hs.trans hq.2.2) fun h => Nat.le_zero.1 (hs.trans (hr h).le)
        · exact hq.2.2

/-- A hand-over keeps the law of the transmit queue (R9). -/
theorem enqueue_queueLaw (q : List Body) (f : Body) (hq : QueueLaw q) : QueueLaw (enqueue q f).1 := by
  have replaced : ∀ p : Body → Bool, (f.isClaim = true → ∀ x, p x = true → x.isClaim = true) →
      (f.isReport = true → ∀ x, p x = true → x.isReport = true) → QueueLaw (replaceFirst p f q) := fun p hc hr =>
    ⟨(replaceFirst_length p f q).trans_le hq.1, (countP_replaceFirst_le p _ f hc q).trans hq.2.1,
      (countP_replaceFirst_le p _ f hr q).trans hq.2.2⟩
  cases f with
  | claim r m =>
    unfold enqueue
    dsimp only
    split
    · exact replaced _ (fun _ _ h => h) (fun h => by cases h)
    · exact enqueueNew_queueLaw q _ hq (fun _ => countP_zero_of_any_false (Bool.eq_false_iff.2 ‹_›)) (fun h => by cases h)
  | report r =>
    unfold enqueue
    dsimp only
    split
    · exact replaced _ (fun h => by cases h) (fun _ _ h => h)
    · exact enqueueNew_queueLaw q _ hq (fun h => by cases h) (fun _ => countP_zero_of_any_false (Bool.eq_false_iff.2 ‹_›))
  | intent i p ps =>
    unfold enqueue
    dsimp only
    split
    · exact replaced _ (fun h => by cases h) (fun h => by cases h)
    · exact enqueueNew_queueLaw q _ hq (fun h => by cases h) (fun h => by cases h)
  | release i =>
    have hl := enqueue_length q (.release i) hq.1
    unfold enqueue at hl ⊢
    dsimp only at hl ⊢
    split
    · rename_i ha
      rw [if_pos ha] at hl
      have hs := removeFirst_sublist (Body.isIntentOf i) q
      exact ⟨hl, countP_append_le_one _ _ _ (hs.countP_le.trans hq.2.1) (fun h => by cases h),
        countP_append_le_one _ _ _ (hs.countP_le.trans hq.2.2) (fun h => by cases h)⟩
    · exact enqueueNew_queueLaw q _ hq (fun h => by cases h) (fun h => by cases h)

/-! ## Steady passages -/

/-- The passage from `s` to `t` keeps the laws, the station state, the frame in service, the mute flag and every indication that is
set, and hands frames over only where the part transmits (R9, R14). -/
structure Steady (s t : State) : Prop extends KeepsLaws s t where
  station : t.dir.station = s.dir.station
  service : t.sct.service = s.sct.service
  mute : t.sct.mute = s.sct.mute
  idle : s.transmits = false → t.sct.queue = s.sct.queue
  shown : ∀ k, s.shows k → t.shows k

/-- Transmission depends on the station state alone (R14). -/
theorem transmits_congr {s t : State} (h : t.dir.station = s.dir.station) : t.transmits = s.transmits := by
  simp only [State.transmits, h]

/-- Whether the part is active depends on the station state alone (R20). -/
theorem active_congr {s t : State} (h : t.dir.station = s.dir.station) : t.active = s.active := by
  simp only [State.active, h]

namespace Steady

variable {s t u : State}

theorem refl (s : State) : Steady s s := ⟨.refl s, rfl, rfl, rfl, fun _ => rfl, fun _ => id⟩

theorem trans (h : Steady s t) (k : Steady t u) : Steady s u where
  toKeepsLaws := h.toKeepsLaws.trans k.toKeepsLaws
  station := k.station.trans h.station
  service := k.service.trans h.service
  mute := k.mute.trans h.mute
  idle := fun i => (k.idle ((transmits_congr h.station).trans i)).trans (h.idle i)
  shown := fun x => k.shown x ∘ h.shown x

/-- A fold is steady when each of its steps is. -/
theorem foldl {α : Type} (f : State → α → State) (h : ∀ s a, Steady s (f s a)) (l : List α) (s : State) : Steady s (l.foldl f s) := by
  induction l generalizing s with
  | nil => exact refl s
  | cons a l ih => exact (h s a).trans (ih _)

/-- A passage that keeps the laws and leaves transmitter, station state and indications alone is steady. -/
theorem of_same (h : KeepsLaws s t) (hd : t.dir.station = s.dir.station) (hs : t.sct = s.sct) (hn : t.ntf = s.ntf) : Steady s t :=
  ⟨h, hd, by rw [hs], by rw [hs], fun _ => by rw [hs], fun k hk => by rw [State.shows, hn]; exact hk⟩

/-- One that leaves transmitter and station state alone and adds an indication at most. -/
theorem of_raised (h : KeepsLaws s t) (hd : t.dir.station = s.dir.station) (hs : t.sct = s.sct) (hn : ∀ k, s.shows k → t.shows k) :
    Steady s t :=
  ⟨h, hd, by rw [hs], by rw [hs], fun _ => by rw [hs], hn⟩

end Steady

theorem raise_steady (i : Indication) (s : State) : Steady s (raise i s) :=
  .of_raised (raise_keepsLaws i s) rfl rfl fun k h => (raise_shows i k s).2 (.inr h)

theorem raiseIf_steady (c : Bool) (i : Indication) (s : State) : Steady s (raiseIf c i s) := by
  cases c
  · exact .refl s
  · exact raise_steady i s

/-! ## Hand-overs and intents -/

/-- A queue replaced in JOINING or MEMBER. -/
theorem setTxQueue_steady (q : List Body) (s : State) (ht : s.transmits = true) (hq : QueueLaw s.sct.queue → QueueLaw q) :
    Steady s (setTxQueue q s) where
  toKeepsLaws := .withSct s _ hq (fun _ => .inr ht) .inl fun v d hs hp => .inl ⟨(scTx_ne_none_iff s).2 ⟨v, d, hs, hp⟩, rfl⟩
  station := rfl
  service := rfl
  mute := rfl
  idle := fun h => by simp [ht] at h
  shown := fun _ => id

theorem handOverPlain_steady (f : Body) (s : State) : Steady s (handOverPlain f s) := by
  unfold handOverPlain
  split
  · exact (setTxQueue_steady _ s ‹_› (enqueue_queueLaw _ f)).trans (raiseIf_steady _ _ _)
  · exact .refl s

theorem announceRelease_steady (i : Nat) (s : State) : Steady s (announceRelease i s) := handOverPlain_steady _ s

theorem setIntent_steady (i : Nat) (t : Intent) (s : State) : Steady s (setIntent i t s) :=
  .of_same (.withSlots s _ (List.length_modify ..)) rfl rfl rfl

theorem loseIntent_steady (i : Nat) (w : LostReason) (s : State) : Steady s (loseIntent i w s) := by
  unfold loseIntent
  split
  · split
    · exact (setIntent_steady i _ s).trans (raise_steady _ _)
    · exact .refl s
  · exact .refl s

theorem notSent_steady (i p : Nat) (ps : List Pair) (s : State) : Steady s (notSent i p ps s) := by
  unfold notSent
  split
  · exact (loseIntent_steady i _ s).trans (handOverPlain_steady _ _)
  · exact .refl s

theorem handOver_steady (f : Body) (s : State) : Steady s (handOver f s) := by
  have hf := handOverPlain_steady f s
  unfold handOver
  dsimp only
  split
  · split
    · exact hf.trans (notSent_steady _ _ _ _)
    · exact hf
  · exact hf

theorem completionReport_steady (i p : Nat) (ps : List Pair) (s : State) : Steady s (completionReport i p ps s) := by
  unfold completionReport
  split
  · split
    · split
      · exact setIntent_steady i _ s
      · exact .refl s
    · exact .refl s
  · exact .refl s

theorem announce_steady (i : Nat) (s : State) : Steady s (announce i s) := by
  unfold announce
  split
  · split
    · exact handOver_steady _ s
    · exact .refl s
  · exact .refl s

theorem claimAbandoned_steady (s : State) : Steady s (claimAbandoned s) := by
  unfold claimAbandoned
  split
  · exact handOverPlain_steady _ s
  · exact .refl s

theorem reportNotSent_steady (f : Body) (s : State) : Steady s (reportNotSent f s) := by
  unfold reportNotSent
  split
  · exact notSent_steady _ _ _ s
  · exact claimAbandoned_steady s
  · exact .refl s

theorem endIntent_steady (i : Nat) (s : State) : Steady s (endIntent i s) := by
  unfold endIntent
  split
  · split
    · exact (setIntent_steady i _ s).trans (announceRelease_steady i _)
    · exact .refl s
  · exact .refl s

theorem windowExpired_steady (i : Nat) (s : State) : Steady s (windowExpired i s) := by
  unfold windowExpired
  split
  · split
    · exact (setIntent_steady i _ s).trans (raise_steady _ _)
    · exact .refl s
  · exact .refl s

theorem refreshIntent_steady (i : Nat) (s : State) : Steady s (refreshIntent i s) := by
  unfold refreshIntent
  split
  · split
    · exact (setIntent_steady i _ s).trans (announce_steady i _)
    · exact .refl s
  · exact .refl s

theorem compareIntent_steady (u : Uid) (p : Nat) (ps : List Pair) (s : State) (i : Nat) : Steady s (compareIntent u p ps s i) := by
  unfold compareIntent
  split
  · split
    · split
      · exact (loseIntent_steady i _ s).trans (announceRelease_steady i _)
      · split
        · exact announce_steady i s
        · exact .refl s
    · exact .refl s
  · exact .refl s

theorem compareIntents_steady (u : Uid) (p : Nat) (ps : List Pair) (s : State) : Steady s (compareIntents u p ps s) :=
  .foldl _ (compareIntent_steady u p ps) _ s

theorem loseAllIntents_steady (s : State) : Steady s (loseAllIntents s) := .foldl _ (fun s i => loseIntent_steady i _ s) _ s

/-! ## The topology database -/

namespace Tdb.Keeps

variable {a b c : Tdb}

theorem refl (a : Tdb) : a.Keeps a := ⟨id, id⟩

theorem trans (h : a.Keeps b) (k : b.Keeps c) : a.Keeps c := ⟨k.sized ∘ h.sized, k.law ∘ h.law⟩

/-- A change that leaves the intent tables, and leaves dirty set where an epoch is pending. -/
theorem of_intents (hs : b.staging.length = a.staging.length) (ha : b.active.length = a.active.length)
    (hi : b.stagingIntents = a.stagingIntents) (hj : b.activeIntents = a.activeIntents)
    (hp : (a.pendingEpoch = true → a.dirty = true) → b.pendingEpoch = true → b.dirty = true) : a.Keeps b where
  sized := fun h => by simpa only [Tdb.Sized, hs, ha, hi, hj] using h
  law := fun ⟨h1, h2, h3⟩ => ⟨by rwa [hi], by rwa [hj], hp h3⟩

end Tdb.Keeps

/-- What a table holds after a write: what was written, or what another place held. -/
theorem place_set_eq_some {α : Type} {l : List (Option α)} {p q : Nat} {x : Option α} {e : α} (h : place (l.set p x) q = some e) :
    q = p ∧ x = some e ∨ q ≠ p ∧ place l q = some e := by
  by_cases hq : p = q
  · subst hq
    by_cases hl : p < l.length
    · exact .inl ⟨rfl, (place_set_self l p x hl).symm.trans h⟩
    · have hn := (place_some _ _ _).1 h
      rw [List.getElem?_eq_none (by simpa using hl)] at hn
      cases hn
  · exact .inr ⟨fun he => hq he.symm, (place_set_ne l p q x hq).symm.trans h⟩

/-- A map of the entries of a table acts on each place. -/
theorem place_map {α β : Type} (f : α → β) (l : List (Option α)) (p : Nat) : place (l.map fun x => x.map f) p = (place l p).map f := by
  unfold place
  rw [List.getElem?_map]
  cases l[p]? <;> rfl

/-- A filter of a table adds nothing to it. -/
theorem place_of_filtered {α : Type} {l : List (Option α)} {c : Option α → Bool} {p : Nat} {e : α}
    (h : place (l.map fun x => if c x then none else x) p = some e) : place l p = some e := by
  have hs := (place_some _ _ _).1 h
  rw [List.getElem?_map, Option.map_eq_some_iff] at hs
  obtain ⟨y, hy, he⟩ := hs
  split at he
  · cases he
  · subst he
    exact (place_some _ _ _).2 hy

/-- The place found for a unique ID and intent id holds an entry of theirs (R77, R81). -/
theorem intentPlace_holds {s : State} {u : Uid} {id p : Nat} (h : s.intentPlace u id = some p) :
    ∃ e, place s.tdb.stagingIntents p = some e ∧ e.entry.uid = u ∧ e.entry.id = id := by
  obtain ⟨hp, hx, -⟩ := List.findIdx?_eq_some_iff_getElem.1 h
  cases hy : s.tdb.stagingIntents[p] with
  | none => simp [hy, isIntent] at hx
  | some e =>
    refine ⟨e, (place_some _ _ _).2 (by rw [List.getElem?_eq_getElem hp, hy]), ?_⟩
    simpa [hy, isIntent] using hx

/-- Without such a place no entry has both (R77, R81). -/
theorem intentPlace_none {s : State} {u : Uid} {id q : Nat} {e : StagedIntent} (h : s.intentPlace u id = none)
    (hq : place s.tdb.stagingIntents q = some e) (hu : e.entry.uid = u) : e.entry.id ≠ id := by
  intro hi
  have hn := List.findIdx?_eq_none_iff.1 h (some e) (List.mem_of_getElem? ((place_some _ _ _).1 hq))
  simp [isIntent, hu, hi] at hn

/-- A place of the staging intent table is replaced by an entry that no other place names, or emptied; dirty stays set. -/
theorem setStagedIntent_steady (p : Nat) (x : Option StagedIntent) (d : Bool) (s : State)
    (hx : s.tdb.Law → ∀ q a b, x = some a → place s.tdb.stagingIntents q = some b → a.entry.uid = b.entry.uid → a.entry.id = b.entry.id → q = p)
    (hd : s.tdb.dirty = true → d = true) : Steady s (setStagedIntent p x d s) := by
  refine .of_same (.withTdb s _ ⟨?_, ?_⟩) rfl rfl rfl
  · simp only [Tdb.Sized, List.length_set, imp_self]
  · rintro hl
    have hl' := hl
    obtain ⟨hi, hj, hp⟩ := hl'
    refine ⟨fun q r a b hq hr hu he => ?_, hj, hd ∘ hp⟩
    rcases place_set_eq_some hq with ⟨rfl, hxa⟩ | ⟨hqp, hqa⟩ <;> rcases place_set_eq_some hr with ⟨rfl, hxb⟩ | ⟨hrp, hrb⟩
    · rfl
    · exact (hx hl r a b hxa hrb hu he).symm
    · exact hx hl q b a hxb hqa hu.symm he.symm
    · exact hi q r a b hqa hrb hu he

theorem storeIntent_steady (e : PeerIntent) (s : State) : Steady s (storeIntent e s) := by
  unfold storeIntent
  dsimp only
  split
  · rename_i p hp
    obtain ⟨o, ho, hu, hi⟩ := intentPlace_holds hp
    refine setStagedIntent_steady p _ _ s (fun hl q a b ha hb hau hai => ?_) fun h => by simp [h]
    cases ha
    exact hl.1 q p b o hb ho (hau.symm.trans hu.symm) (hai.symm.trans hi.symm)
  · rename_i hn
    split
    · refine setStagedIntent_steady _ _ _ s (fun _ q a b ha hb hau hai => ?_) fun _ => rfl
      cases ha
      exact absurd hai.symm (intentPlace_none hn hb hau.symm)
    · exact raise_steady _ s

theorem releaseIntent_steady (u : Uid) (id : Nat) (s : State) : Steady s (releaseIntent u id s) := by
  unfold releaseIntent
  split
  · exact setStagedIntent_steady _ _ _ s (fun _ _ _ _ h => by cases h) fun _ => rfl
  · exact .refl s

theorem expireIntent_steady (p : Nat) (s : State) : Steady s (expireIntent p s) := by
  unfold expireIntent
  split
  · exact setStagedIntent_steady _ _ _ s (fun _ _ _ _ h => by cases h) fun _ => rfl
  · exact .refl s

theorem stageReport_steady (n : Nat) (u : Uid) (r : Report) (s : State) : Steady s (stageReport n u r s) :=
  .of_same (.withTdb s _ (.of_intents (List.length_set ..) rfl rfl rfl fun _ _ => rfl)) rfl rfl rfl

theorem dropReport_steady (n : Nat) (s : State) : Steady s (dropReport n s) := by
  unfold dropReport
  split
  · exact .of_same (.withTdb s _ (.of_intents (List.length_set ..) rfl rfl rfl fun _ _ => rfl)) rfl rfl rfl
  · exact .refl s

theorem dropIntentsOf_steady (u : Uid) (s : State) : Steady s (dropIntentsOf u s) := by
  unfold dropIntentsOf
  split
  · refine .of_same (.withTdb s _ ⟨by simp only [Tdb.Sized, List.length_map, imp_self], fun ⟨hi, hj, hp⟩ => ?_⟩) rfl rfl rfl
    exact ⟨fun p q a b ha hb => hi p q a b (place_of_filtered ha) (place_of_filtered hb), hj, fun _ => rfl⟩
  · exact .refl s

/-! ## The own report -/

/-- An update of the originator that keeps the missed list lawful. -/
theorem withOrg_steady (s : State) (x : Org) (h : MissedLaw s.org.missed → MissedLaw x.missed) : Steady s { s with org := x } :=
  .of_same (.withOrg s x h) rfl rfl rfl

theorem originate_steady (s : State) : Steady s (originate s) :=
  ((stageReport_steady _ _ _ s).trans (handOverPlain_steady _ _)).trans
    (withOrg_steady _ _ fun _ => ⟨Nat.zero_le _, List.nodup_nil⟩)

theorem originateHeldDown_steady (s : State) : Steady s (originateHeldDown s) := by
  unfold originateHeldDown
  split
  · exact withOrg_steady s _ id
  · exact originate_steady s

theorem orgRequest_steady (s : State) : Steady s (orgRequest s) := by
  unfold orgRequest
  split
  · exact originateHeldDown_steady s
  · exact .refl s

theorem orgChange_steady (s : State) : Steady s (orgChange s) := by
  unfold orgChange
  split
  · exact originateHeldDown_steady s
  · exact .refl s

theorem orgChangeIf_steady (c : Bool) (s : State) : Steady s (orgChangeIf c s) := by
  cases c
  · exact .refl s
  · exact orgChange_steady s

theorem orgStop_steady (s : State) : Steady s (orgStop s) := withOrg_steady s _ id

/-- A number that joins the missed list, the oldest giving way, keeps it lawful (R74). -/
theorem missedLaw_joined (l : List Nat) (n : Nat) (hn : n ∉ l) (h : MissedLaw l) : MissedLaw (lastN Config.missedDepth (l ++ [n])) :=
  ⟨lastN_length _ _, (List.nodup_append.2 ⟨h.2, List.nodup_singleton n, by simpa using fun a ha (e : a = n) => hn (e ▸ ha)⟩).sublist
    (List.drop_sublist _ _)⟩

theorem recordGap_steady (n : Nat) (s : State) : Steady s (recordGap n s) := by
  unfold recordGap
  split
  · exact .refl s
  · rename_i hn
    exact (withOrg_steady s _ (missedLaw_joined _ n (by simpa using hn))).trans (orgRequest_steady _)

theorem holdDownExpired_steady (s : State) : Steady s (holdDownExpired s) := by
  unfold holdDownExpired
  split
  · exact .refl s
  · split
    · exact originate_steady s
    · exact withOrg_steady s _ id

theorem refreshExpired_steady (s : State) : Steady s (refreshExpired s) := by
  unfold refreshExpired
  split
  · exact .refl s
  · split
    · exact originate_steady s
    · exact .refl s

theorem examineMissed_steady (r : Report) (s : State) : Steady s (examineMissed r s) := by
  unfold examineMissed
  split
  · exact orgRequest_steady s
  · exact .refl s

theorem storeReport_steady (n : Nat) (u : Uid) (r : Report) (s : State) : Steady s (storeReport n u r s) := by
  have hs := stageReport_steady n u r s
  unfold storeReport
  split
  · exact hs.trans (examineMissed_steady r _)
  · dsimp only
    split
    · split
      · exact (hs.trans (recordGap_steady n _)).trans (examineMissed_steady r _)
      · exact hs.trans (examineMissed_steady r _)
    · exact .refl s

/-! ## The receiver -/

theorem setChannel_steady (x : Scr) (s : State) (h : s.scr.Within → x.Within) : Steady s (setChannel x s) :=
  ((Steady.of_same (.withScr s x h) rfl rfl rfl).trans (raiseIf_steady _ _ _)).trans (orgChangeIf_steady _ _)

/-- An episode's outcome keeps history and good run within their bounds (R7). -/
theorem record_within (x : Scr) (valid : Bool) (h : x.Within) : (x.record valid).Within := by
  obtain ⟨hq, hh, hg⟩ := h
  cases hc : x.channel with
  | dark => simpa only [Scr.record, hc] using ⟨hq, hh, hg⟩
  | seeking =>
    simp only [Scr.record, hc, Config.goodRunTarget]
    split
    · split
      · exact ⟨hq, Nat.zero_le _, Nat.le_refl 8⟩
      · exact ⟨hq, hh, Nat.le_of_not_le ‹_›⟩
    · exact ⟨hq, hh, Nat.zero_le _⟩
  | aligned =>
    simp only [Scr.record, hc]
    split
    · exact ⟨hq, lastN_length _ _, Nat.zero_le _⟩
    · exact ⟨hq, lastN_length _ _, hg⟩

theorem receiveFrame_steady (f : Frame) (s : State) : Steady s (receiveFrame f s) := by
  unfold receiveFrame
  split
  · split
    · rename_i hl
      exact .of_same (.withScr s _ fun ⟨_, hh, hg⟩ => ⟨List.length_append.trans_le hl, hh, hg⟩) rfl rfl rfl
    · exact raise_steady _ s
  · exact .refl s

theorem darkExpired_steady (s : State) : Steady s (darkExpired s) := by
  unfold darkExpired
  split
  · exact setChannel_steady _ s fun h => ⟨h.1, Nat.zero_le _, Nat.zero_le _⟩
  · exact .refl s

/-! ## Degrees -/

/-- A trace record that says nothing new: a word stands on its line only where one stood, and it stays equipped. -/
def Degree.Follows (x y : Degree) : Prop := y.txWord ≠ none → x.txWord ≠ none ∧ (x.trace.equipped = true → y.trace.equipped = true)

/-- A degree's record replaced by one that may speak where it speaks (R36). -/
theorem setDegree_steady (d : Nat) (x y : Degree) (s : State) (hx : s.degrees[d]? = some x)
    (h : x.Follows y ∨ s.active = true ∧ y.trace.equipped = true) : Steady s (setDegree d y s) := by
  refine .of_same (.withDegrees s _ (List.length_set ..) fun hs z hz hw => ?_) rfl rfl rfl
  obtain ⟨k, hk, rfl⟩ := List.getElem_of_mem hz
  have hks : k < s.degrees.length := by simpa using hk
  rw [List.getElem_set] at hw ⊢
  split
  · rename_i he
    subst he
    rw [if_pos rfl] at hw
    rcases h with hf | ha
    · obtain ⟨hxw, heq⟩ := hf hw
      exact (hs x (List.mem_of_getElem? hx) hxw).imp_right heq
    · exact ha
  · rename_i he
    rw [if_neg he] at hw
    exact hs _ (List.getElem_mem hks) hw

theorem changeDegree_steady (d : Nat) (x y : Degree) (s : State) (hx : s.degrees[d]? = some x) (h : x.Follows y) :
    Steady s (changeDegree d y s) := by
  unfold changeDegree
  rw [hx]
  exact ((setDegree_steady d x y s hx (.inl h)).trans (raiseIf_steady _ _ _)).trans (orgChangeIf_steady _ _)

/-- A record that keeps its word and stays equipped follows the one before it. -/
theorem follows_of_equipped (x y : Degree) (hw : y.txWord = x.txWord) (he : x.trace.equipped = true → y.trace.equipped = true) :
    x.Follows y := fun h => ⟨hw ▸ h, he⟩

/-- A judgement leaves an equipped degree equipped (R40 to R42). -/
theorem judge_equipped (t : Trace) (j : Judgement) (h : t.equipped = true) : (t.judge j).equipped = true := by
  cases t with
  | unequipped => cases h
  | dark => cases j <;> rfl
  | searching c =>
    cases j with
    | invalid => rfl
    | valid id n far =>
      simp only [Trace.judge]
      split <;> rfl
  | traced nbr n far c bad =>
    cases j with
    | invalid =>
      simp only [Trace.judge]
      split <;> rfl
    | valid id n' far' =>
      simp only [Trace.judge]
      split
      · rfl
      · split <;> rfl

theorem judge_follows (x : Degree) (j : Judgement) (r : Receiver) : x.Follows (x.judge j r) :=
  follows_of_equipped _ _ rfl (judge_equipped x.trace j)

theorem enterDark_follows (x : Degree) : x.Follows x.enterDark := follows_of_equipped _ _ rfl fun _ => rfl

theorem enterSearching_follows (x : Degree) : x.Follows x.enterSearching := follows_of_equipped _ _ rfl fun _ => rfl

theorem rehunt_follows (x y : Degree) (h : x.Follows y) : x.Follows y.rehunt := by
  unfold Degree.rehunt
  split
  · exact fun hw => (h hw).imp_right fun _ _ => rfl
  · exact fun hw => (h hw).imp_right fun _ _ => rfl
  · exact h

theorem matchSync_steady (d : Nat) (levels : List Bool) (s : State) : Steady s (matchSync d levels s) := by
  unfold matchSync
  split
  · rename_i x hx
    split
    · split
      · exact setDegree_steady d x _ s hx (.inl (follows_of_equipped _ _ rfl id))
      · exact .refl s
    · exact .refl s
  · exact .refl s

theorem judgeHeard_steady (d : Nat) (levels : List Bool) (s : State) : Steady s (judgeHeard d levels s) := by
  unfold judgeHeard
  split
  · rename_i x hx
    split
    · split
      · exact changeDegree_steady d x _ s hx (judge_follows _ _ _)
      · exact .refl s
    · exact .refl s
  · exact .refl s

theorem huntExpired_steady (d : Nat) (s : State) : Steady s (huntExpired d s) := by
  unfold huntExpired
  split
  · rename_i x hx
    split
    · split
      · exact changeDegree_steady d x _ s hx (judge_follows _ _ _)
      · exact .refl s
    · exact .refl s
  · exact .refl s

theorem sendWord_steady (d : Nat) (s : State) : Steady s (sendWord d s) := by
  unfold sendWord
  split
  · split
    · rename_i x hx ha
      exact setDegree_steady d x _ s hx (.inr (by simpa using ha))
    · exact .refl s
  · exact .refl s

theorem beginWords_steady (s : State) : Steady s (beginWords s) := .foldl _ (fun s d => sendWord_steady d s) _ s

theorem lolAccepted_steady (d : Nat) (asserted : Bool) (s : State) : Steady s (lolAccepted d asserted s) := by
  unfold lolAccepted
  split
  · exact .refl s
  · split
    · rename_i x hx
      split
      · exact changeDegree_steady d x _ s hx (enterDark_follows _)
      · exact changeDegree_steady d x _ s hx (enterDark_follows _)
      · exact changeDegree_steady d x _ s hx (enterSearching_follows _)
      · exact .refl s
    · exact .refl s

theorem applyEquipped_steady (s : State) (d : Nat) : Steady s (applyEquipped s d) := by
  unfold applyEquipped
  split
  · rename_i x hx
    split
    · refine changeDegree_steady d x _ s hx (?_)
      split
      · exact enterDark_follows x
      · exact enterSearching_follows x
    · exact .refl s
    · exact .refl s
    · exact changeDegree_steady d x _ s hx fun hw => absurd rfl hw
  · exact .refl s

theorem catchUp_steady (s : State) (d : Nat) : Steady s (catchUp s d) := by
  unfold catchUp
  split
  · rename_i x hx
    refine changeDegree_steady d x _ s hx (rehunt_follows _ _ ?_)
    have hsame : x.Follows x := follows_of_equipped _ _ rfl id
    split
    · split
      · exact hsame
      · exact enterSearching_follows x
    · split
      · exact enterDark_follows x
      · exact hsame
    · split
      · exact enterDark_follows x
      · exact hsame
    · exact hsame
  · exact .refl s

theorem catchUpAll_steady (s : State) : Steady s (catchUpAll s) := .foldl _ catchUp_steady _ s

/-! ## The span monitor -/

theorem withSpm_steady (s : State) (x : Spm) (h : x.degrees.length = s.spm.degrees.length) : Steady s { s with spm := x } :=
  .of_same (.withSpm s x h) rfl rfl rfl

theorem setSpmDegree_steady (d : Nat) (x : SpmDegree) (s : State) : Steady s (setSpmDegree d x s) :=
  withSpm_steady s _ (List.length_set ..)

theorem changeMonitor_steady (d n : Nat) (m : Monitor) (s : State) : Steady s (changeMonitor d n m s) := by
  unfold changeMonitor
  split
  · exact ((setSpmDegree_steady d _ s).trans (raiseIf_steady _ _ _)).trans (orgChangeIf_steady _ _)
  · exact .refl s

theorem qualifierExpired_steady (d : Nat) (s : State) : Steady s (qualifierExpired d s) := by
  unfold qualifierExpired
  split
  · split
    · split
      · exact setSpmDegree_steady d _ s
      · exact changeMonitor_steady d _ _ s
    · exact .refl s
  · exact .refl s

theorem decideHeldExpiry_steady (s : State) (d : Nat) : Steady s (decideHeldExpiry s d) := by
  unfold decideHeldExpiry
  split
  · split
    · exact changeMonitor_steady d _ _ s
    · exact .refl s
  · exact .refl s

theorem applyLoad_steady (s : State) : Steady s (applyLoad s) :=
  (Steady.foldl _ applyEquipped_steady _ s).trans (.foldl _ decideHeldExpiry_steady _ _)

theorem writeNodeReport_keepsLaws (p : List Byte) (s : State) : KeepsLaws s (writeNodeReport p s) := by
  unfold writeNodeReport
  dsimp only
  split
  · exact refuse_keepsLaws _ _ s
  · split
    · exact refuse_keepsLaws _ _ s
    · exact ((withSpm_steady s _ (by simp [Spm.nodeWrite])).trans (orgChangeIf_steady _ _)).toKeepsLaws.trans
        (respond_keepsLaws _ _ _ _ _)

theorem writeSpanReport_keepsLaws (p : List Byte) (s : State) : KeepsLaws s (writeSpanReport p s) := by
  unfold writeSpanReport
  dsimp only
  split
  · exact refuse_keepsLaws _ _ s
  · split
    · exact refuse_keepsLaws _ _ s
    · exact (changeMonitor_steady _ _ _ s).toKeepsLaws.trans (respond_keepsLaws _ _ _ _ _)

theorem clearLatch_keepsLaws (p : List Byte) (s : State) : KeepsLaws s (clearLatch p s) := by
  unfold clearLatch
  dsimp only
  split
  · exact refuse_keepsLaws _ _ s
  · split
    · exact refuse_keepsLaws _ _ s
    · exact (changeMonitor_steady _ _ _ s).toKeepsLaws.trans (respondOk_keepsLaws _ _ _)

/-! ## The directory: entries, purge, acceptance -/

theorem setEntry_steady (n : Nat) (e : Option DirEntry) (s : State) : Steady s (setEntry n e s) :=
  .of_same (.withDir s _ (List.length_set ..) id id) rfl rfl rfl

theorem purgeViews_steady (n : Nat) (u : Uid) (s : State) : Steady s (purgeViews n u s) :=
  ((dropReport_steady n s).trans (dropIntentsOf_steady u _)).trans (raise_steady _ _)

theorem purge_steady (n : Nat) (s : State) : Steady s (purge n s) := by
  unfold purge
  split
  · exact (setEntry_steady n _ s).trans (purgeViews_steady n _ _)
  · exact .refl s

theorem purgeUid_steady (u : Uid) (s : State) : Steady s (purgeUid u s) := by
  unfold purgeUid
  split
  · exact purge_steady _ s
  · exact .refl s

theorem install_steady (n : Nat) (f : Frame) (s : State) : Steady s (install n f s) :=
  (setEntry_steady n _ s).trans (raise_steady _ _)

theorem accept_steady (n : Nat) (f : Frame) (s : State) : Steady s (accept n f s).2 := by
  unfold accept
  split
  · split
    · exact setEntry_steady n _ s
    · split
      · exact ((purge_steady n s).trans (purgeUid_steady _ _)).trans (install_steady n f _)
      · exact .refl s
  · exact .refl s
  · exact (purgeUid_steady _ s).trans (install_steady n f _)

theorem dispatch_steady (n : Nat) (how : Acceptance) (f : Frame) (s : State) : Steady s (dispatch n how f s) := by
  unfold dispatch
  split
  · split
    · exact purgeViews_steady n _ s
    · exact .refl s
  · split
    · exact storeReport_steady n _ _ s
    · exact .refl s
  · split
    · exact (storeIntent_steady _ s).trans (compareIntents_steady _ _ _ _)
    · exact .refl s
  · split
    · exact releaseIntent_steady _ _ s
    · exact .refl s

theorem acceptFrame_steady (n : Nat) (f : Frame) (s : State) : Steady s (acceptFrame n f s) := by
  have ha := accept_steady n f s
  unfold acceptFrame
  split
  · exact .refl s
  · rename_i he
    rw [he] at ha
    exact ha.trans (dispatch_steady n _ f _)

theorem defend_steady (n : Nat) (s : State) : Steady s (defend n s) := (handOverPlain_steady _ s).trans (orgRequest_steady _)

/-! ## The frame in service -/

/-- A frame put into service where one is already, or where the part transmits; it may be in SEND only where one was, or unmuted. -/
theorem setService_keepsLaws (v : Service) (s : State) (hv : s.sct.service ≠ none ∨ s.transmits = true)
    (hp : ∀ d, v.phase = .send d → s.scTx ≠ none ∨ s.sct.mute = false) : KeepsLaws s (setService (some v) s) := by
  refine .withSct s _ id .inl (fun _ => hv) fun w d hw hd => ?_
  cases hw
  exact (hp d hd).imp_left fun h => ⟨h, rfl⟩

/-- A frame in service that waits again. -/
theorem setService_wait_keepsLaws (v : Service) (gap : Timer) (s : State) (hv : s.sct.service ≠ none) (hw : v.phase = .wait gap) :
    KeepsLaws s (setService (some v) s) := setService_keepsLaws v s (.inl hv) fun d hd => by rw [hw] at hd; cases hd

theorem clearService_keepsLaws (s : State) : KeepsLaws s (setService none s) :=
  .withSct s _ id .inl (fun h => absurd rfl h) fun _ _ h => by cases h

theorem clearSct_keepsLaws (s : State) : KeepsLaws s (clearSct s) :=
  .withSct s _ (fun _ => queueLaw_nil) (fun h => absurd rfl h) (fun h => absurd rfl h) fun _ _ h => by cases h

theorem claimCompleted_keepsLaws (r : Nat) (s : State) : KeepsLaws s (claimCompleted r s) := by
  unfold claimCompleted
  split
  · exact .withDir s _ rfl id id
  · exact .refl s

theorem completeAttempt_keepsLaws (v : Service) (s : State) : KeepsLaws s (completeAttempt v s) := by
  have hc := clearService_keepsLaws s
  unfold completeAttempt
  dsimp only
  split
  · exact hc.trans (claimCompleted_keepsLaws _ _)
  · exact hc.trans (completionReport_steady _ _ _ _).toKeepsLaws
  · exact hc

theorem failAttempt_keepsLaws (v : Service) (s : State) (hv : s.sct.service ≠ none) : KeepsLaws s (failAttempt v s) := by
  unfold failAttempt
  split
  · exact (clearService_keepsLaws s).trans ((raise_steady _ _).trans (reportNotSent_steady _ _)).toKeepsLaws
  · exact .withSct s _ id .inl (fun _ => .inl hv) fun w d hw hd => by cases hw; cases hd

theorem resolveAttempt_keepsLaws (c : Bool) (v : Service) (s : State) (hv : s.sct.service ≠ none) :
    KeepsLaws s (resolveAttempt c v s) := by
  cases c
  · exact failAttempt_keepsLaws v s hv
  · exact completeAttempt_keepsLaws v s

theorem decideAttempt_keepsLaws (c : Bool) (s : State) : KeepsLaws s (decideAttempt c s) := by
  unfold decideAttempt
  split
  · rename_i v hs
    have hv : s.sct.service ≠ none := by simp [hs]
    split
    · rename_i hp
      exact setService_keepsLaws _ s (.inl hv) fun _ _ => .inl ((scTx_ne_none_iff s).2 ⟨v, _, hs, hp⟩)
    · exact resolveAttempt_keepsLaws c v s hv
    · exact .refl s
  · exact .refl s

/-- The mute flag set with no frame left in SEND (R16). -/
theorem muted_keepsLaws (v : Option Service) (s : State) (hv : v ≠ none → s.sct.service ≠ none)
    (hp : ∀ w d, v = some w → w.phase ≠ .send d) :
    KeepsLaws s (setService v (raise .muted { s with sct := { s.sct with mute := true } })) :=
  (KeepsLaws.withSct s { s.sct with mute := true, service := v } id .inl (fun h => .inl (hv h)) fun w d hw hd =>
    absurd hd (hp w d hw)).trans (.withNtf _ _)

theorem setMute_keepsLaws (s : State) : KeepsLaws s (setMute s) := by
  unfold setMute
  split
  · exact .refl s
  · unfold muteService
    split
    · rename_i v hs
      have hv : s.sct.service = some v := hs
      split
      · exact muted_keepsLaws (some _) s (fun _ => by simp [hv]) fun w d hw hd => by cases hw; cases hd
      · exact (muted_keepsLaws none s (fun h => absurd rfl h) fun _ _ h => by cases h).trans (reportNotSent_steady _ _).toKeepsLaws
      · rename_i hp
        exact muted_keepsLaws s.sct.service s id fun w d hw hd => by
          cases hv.symm.trans hw
          rw [hp] at hd
          cases hd
    · rename_i hs
      have hn : s.sct.service = none := hs
      exact muted_keepsLaws s.sct.service s id fun w d hw => by cases hn.symm.trans hw

theorem unmute_keepsLaws (s : State) : KeepsLaws s (unmute s) := by
  have hm : KeepsLaws s { s with sct := { s.sct with mute := false } } := .withSct s _ id .inl .inl fun _ _ _ _ => .inr rfl
  unfold unmute
  split
  · dsimp only
    split
    · rename_i v hs
      split
      · exact hm.trans (setService_wait_keepsLaws _ _ _ (by simp [hs]) rfl)
      · exact hm
    · exact hm
  · exact .refl s

theorem enterSend_keepsLaws (s : State) : KeepsLaws s (enterSend s) := by
  unfold enterSend
  split
  · rename_i v hs
    split
    · split
      · rename_i hc
        exact setService_keepsLaws _ s (.inl (by simp [hs])) fun _ _ => .inr hc.2.1
      · exact .refl s
    · exact .refl s
  · exact .refl s

/-- What remains of the queue when the first frame in class order leaves it. -/
theorem nextInClass_sublist {q rest : List Body} {f : Body} (h : nextInClass q = some (f, rest)) : rest.Sublist q := by
  unfold nextInClass at h
  split at h
  · cases h
    exact removeFirst_sublist _ q
  · split at h
    · cases h
      exact removeFirst_sublist _ q
    · obtain ⟨g, -, hg⟩ := Option.map_eq_some_iff.1 h
      cases hg
      exact removeFirst_sublist _ q

theorem takeService_keepsLaws (s : State) : KeepsLaws s (takeService s) := by
  unfold takeService
  split
  · rename_i hc
    split
    · rename_i f rest hn
      refine (setTxQueue_steady rest s hc.2.1 (queueLaw_of_sublist (nextInClass_sublist hn))).toKeepsLaws.trans ?_
      exact setService_keepsLaws _ _ (.inr hc.2.1) fun d hd => by cases hd
    · exact .refl s
  · exact .refl s

theorem endSend_keepsLaws (s : State) : KeepsLaws s (endSend s) := by
  unfold endSend
  split
  · rename_i v hs
    have hv : s.sct.service ≠ none := by simp [hs]
    split
    · exact resolveAttempt_keepsLaws _ v s hv
    · exact setService_keepsLaws _ s (.inl hv) fun d hd => by cases hd
    · exact .refl s
  · exact .refl s

theorem closeEcho_keepsLaws (s : State) : KeepsLaws s (closeEcho s) := by
  unfold closeEcho
  split
  · rename_i v hs
    split
    · exact failAttempt_keepsLaws v s (by simp [hs])
    · exact .refl s
  · exact .refl s

theorem stopGap_keepsLaws (s : State) : KeepsLaws s (stopGap s) := by
  unfold stopGap
  split
  · rename_i v hs
    split
    · exact setService_wait_keepsLaws _ _ s (by simp [hs]) rfl
    · exact .refl s
  · exact .refl s

theorem startFrame_keepsLaws (s : State) : KeepsLaws s (startFrame s) := by
  unfold startFrame
  split
  · exact .refl s
  · refine (stopGap_keepsLaws s).trans ?_
    dsimp only
    split
    · exact .withScr _ _ id
    · exact (setChannel_steady (stopGap s).scr.frameStart (stopGap s) id).toKeepsLaws

theorem endCarrier_keepsLaws (s : State) : KeepsLaws s (endCarrier s) := by
  have hc : KeepsLaws s { s with scr := { s.scr with carrier := false } } := .withScr s _ id
  unfold endCarrier
  split
  · dsimp only
    split
    · rename_i v hs
      split
      · exact hc.trans (setService_wait_keepsLaws _ _ _ (by simp [hs]) rfl)
      · exact hc
    · exact hc
  · exact .refl s

theorem routeEpisode_keepsLaws (e : Episode) (s : State) : KeepsLaws s (routeEpisode e s) := by
  unfold routeEpisode
  split
  · exact decideAttempt_keepsLaws _ s
  · split
    · split
      · exact decideAttempt_keepsLaws _ s
      · exact .refl s
    · exact (receiveFrame_steady _ s).toKeepsLaws

theorem endEpisode_keepsLaws (levels : List Bool) (s : State) : KeepsLaws s (endEpisode levels s) := by
  unfold endEpisode
  split
  · refine (routeEpisode_keepsLaws _ _).after (setChannel_steady _ s ?_).toKeepsLaws
    exact record_within { s.scr with decoding := false } _
  · exact .refl s

theorem samplePins_keepsLaws (mute : Bool) (lol : DegreeSet) (s : State) : KeepsLaws s (samplePins mute lol s) := by
  have hp : KeepsLaws s { s with pins := s.pins.sample mute lol } := .withPins s _ (by simp [Pins.sample])
  refine KeepsLaws.trans ?_ (.foldl _ (fun u x => ?_) _ _)
  · split
    · exact hp.trans (setMute_keepsLaws _)
    · exact hp
  · unfold deliverLol
    split
    · exact (lolAccepted_steady _ _ u).toKeepsLaws
    · exact .refl u

/-! ## Joining, numbers, membership -/

theorem enterNoNumber_keepsLaws (s : State) : KeepsLaws s (enterNoNumber s) := by
  refine KeepsLaws.trans (t := clearSct s) (clearSct_keepsLaws s) (KeepsLaws.trans ?_ (raise_keepsLaws _ _))
  exact ⟨id, id, id, fun ⟨_, _, hm, hd⟩ => ⟨fun h => absurd rfl h, fun h => absurd rfl h, hm, fun y hy hw => (hd y hy hw).imp_left fun _ => rfl⟩⟩

theorem takeCandidate_keepsLaws (s : State) : KeepsLaws s (takeCandidate s) := by
  unfold takeCandidate
  split
  · exact (handOverPlain_steady _ _).toKeepsLaws.after (.withDir s _ rfl id id)
  · exact enterNoNumber_keepsLaws s

theorem enterJoining_keepsLaws (strap : BitVec 3) (ys : List Nat) (s : State) : KeepsLaws s (enterJoining strap ys s) :=
  (takeCandidate_keepsLaws _).after (.withDir s _ rfl (fun _ => rfl) fun _ => rfl)

theorem yieldNumber_keepsLaws (n : Nat) (s : State) : KeepsLaws s (yieldNumber n s) :=
  (takeCandidate_keepsLaws _).after (.withDir s _ rfl id id)

theorem renumber_keepsLaws (strap : BitVec 3) (n : Nat) (s : State) : KeepsLaws s (renumber strap n s) := by
  refine KeepsLaws.trans (KeepsLaws.trans ?_ (raise_keepsLaws _ _)) (enterJoining_keepsLaws strap _ _)
  refine KeepsLaws.trans ?_ (clearSct_keepsLaws _)
  exact ((((loseAllIntents_steady s).trans (setEntry_steady n none _)).trans (dropReport_steady n _)).trans
    (orgStop_steady _)).toKeepsLaws

theorem ownNumberRule_keepsLaws (strap : BitVec 3) (n : Nat) (f : Frame) (s : State) : KeepsLaws s (ownNumberRule strap n f s) := by
  unfold ownNumberRule
  split
  · exact (renumber_keepsLaws strap n s).trans (acceptFrame_steady n f _).toKeepsLaws
  · exact (defend_steady n s).toKeepsLaws

theorem takeFrame_keepsLaws (strap : BitVec 3) (f : Frame) (s : State) : KeepsLaws s (takeFrame strap f s) := by
  unfold takeFrame
  dsimp only
  split
  · exact .refl s
  · have hy : KeepsLaws s (if s.conflicts f = true then yieldNumber f.number? s else s) := by
      split
      · exact yieldNumber_keepsLaws _ s
      · exact .refl s
    split
    · exact hy.trans (ownNumberRule_keepsLaws strap _ f _)
    · exact hy.trans (acceptFrame_steady _ f _).toKeepsLaws

theorem takeOldest_keepsLaws (strap : BitVec 3) (s : State) : KeepsLaws s (takeOldest strap s) := by
  unfold takeOldest
  split
  · split
    · rename_i f rest hq
      refine KeepsLaws.trans (.withScr s { s.scr with rxQueue := rest } fun h => ⟨?_, h.2⟩) (takeFrame_keepsLaws strap f _)
      have hl := h.1
      rw [hq] at hl
      exact (Nat.le_succ _).trans hl
    · exact .refl s
  · exact .refl s

theorem enterMember_keepsLaws (n : Nat) (s : State) : KeepsLaws s (enterMember n s) := by
  refine (originate_steady _).toKeepsLaws.after ((raise_keepsLaws _ _).after ((setEntry_steady n _ _).toKeepsLaws.after ?_))
  exact .withDir s _ rfl (fun _ => rfl) fun _ => rfl

theorem roundExpired_keepsLaws (s : State) : KeepsLaws s (roundExpired s) := by
  unfold roundExpired
  split
  · split
    · exact (handOverPlain_steady _ _).toKeepsLaws.after (.withDir s _ rfl id id)
    · exact enterMember_keepsLaws _ s
  · exact .refl s

theorem noNumberExpired_keepsLaws (strap : BitVec 3) (s : State) : KeepsLaws s (noNumberExpired strap s) := by
  unfold noNumberExpired
  split
  · exact enterJoining_keepsLaws strap [] s
  · exact .refl s

/-! ## Slots, epoch transfers, the search -/

theorem setSlotState_keepsLaws (i : Nat) (st : SlotState) (s : State) : KeepsLaws s (setSlotState i st s) :=
  .withSlots s _ (List.length_modify ..)

theorem freeSlot_keepsLaws (i : Nat) (s : State) : KeepsLaws s (freeSlot i s) := .withSlots s _ (List.length_modify ..)

theorem resultWatch_keepsLaws (s : State) : KeepsLaws s (resultWatch s) :=
  KeepsLaws.trans (.withSlots s _ (by simp)) (raiseIf_keepsLaws _ _ _)

/-- The active copy of a transfer keeps the laws of the database (R89). -/
theorem copied_keeps (t : Tdb) (spans : List Span) : t.Keeps { t.copied with spans := spans } where
  sized := fun ⟨hs, _, hi, _⟩ => ⟨hs, hs, hi, (List.length_map _).trans hi⟩
  law := fun ⟨hi, _, _⟩ => by
    refine ⟨hi, fun p q a b hp hq hu he => ?_, fun h => by cases h⟩
    have hp' := (place_map StagedIntent.entry t.stagingIntents p).symm.trans hp
    have hq' := (place_map StagedIntent.entry t.stagingIntents q).symm.trans hq
    obtain ⟨x, hx, rfl⟩ := Option.map_eq_some_iff.1 hp'
    obtain ⟨y, hy, rfl⟩ := Option.map_eq_some_iff.1 hq'
    exact hi p q x y hx hy hu he

theorem transfer_keepsLaws (s : State) : KeepsLaws s (transfer s) := by
  refine KeepsLaws.trans ?_ (resultWatch_keepsLaws _)
  exact KeepsLaws.trans (.withTdb s _ (copied_keeps s.tdb _)) (raise_keepsLaws _ _)

/-- A database update that touches neither table nor dirty flag. -/
theorem withTdb_flags_keepsLaws (s : State) (x : Tdb) (hs : x.staging = s.tdb.staging) (ha : x.active = s.tdb.active)
    (hi : x.stagingIntents = s.tdb.stagingIntents) (hj : x.activeIntents = s.tdb.activeIntents)
    (hp : (s.tdb.pendingEpoch = true → s.tdb.dirty = true) → x.pendingEpoch = true → x.dirty = true) :
    KeepsLaws s { s with tdb := x } := .withTdb s x (.of_intents (by rw [hs]) (by rw [ha]) hi hj hp)

theorem setHeld_keepsLaws (h : List EpochAsk) (s : State) : KeepsLaws s (setHeld h s) :=
  withTdb_flags_keepsLaws s _ rfl rfl rfl rfl id

/-- An epoch is pended where the staging view is dirty (R86). -/
theorem pendEpoch_keepsLaws (s : State) (h : ¬ s.tdb.dirty = false) :
    KeepsLaws s { s with tdb := { s.tdb with pendingEpoch := true } } :=
  withTdb_flags_keepsLaws s _ rfl rfl rfl rfl fun _ _ => by simpa using h

theorem startHead_keepsLaws (i : Nat) (job : Job) (s : State) : KeepsLaws s (startHead i job s) := by
  unfold startHead
  split
  · exact (setSlotState_keepsLaws i _ s).trans (raise_keepsLaws _ _)
  · exact (setSlotState_keepsLaws i _ s).trans (.withPen _ _ fun _ => by simp [Pen.prepared])

theorem judgeStart_keepsLaws (n : Nat) (s : State) : KeepsLaws s (judgeStart n s) := by
  induction n generalizing s with
  | zero => exact .refl s
  | succ n ih =>
    unfold judgeStart
    split
    · exact .refl s
    · split
      · exact .refl s
      · rename_i rest _
        refine (KeepsLaws.withReqQueue s rest).trans ?_
        dsimp only
        split
        · exact (startHead_keepsLaws _ _ _).trans (ih _)
        · exact ih _

theorem startQueued_keepsLaws (s : State) : KeepsLaws s (startQueued s) := judgeStart_keepsLaws _ s

theorem leftRunning_keepsLaws (s : State) : KeepsLaws s (leftRunning s) := by
  refine KeepsLaws.trans ?_ (startQueued_keepsLaws _)
  split
  · exact transfer_keepsLaws s
  · exact .refl s

theorem complete_keepsLaws (i : Nat) (st : SlotState) (s : State) : KeepsLaws s (complete i st s) :=
  (leftRunning_keepsLaws _).after ((raise_keepsLaws _ _).after ((setSlotState_keepsLaws i st _).after (.withPen s _ id)))

/-- An offer keeps the frontier within its 256 places (R131, R139). -/
theorem offer_frontier (env : SearchEnv) (x : Reached) (p : Pen) (h : p.frontier.length ≤ 256) :
    (env.offer x p).frontier.length ≤ 256 := by
  unfold SearchEnv.offer
  split
  · exact h
  · split
    · rename_i y hy
      split
      · have hr := removeFirst_length (fun z : Reached => z.state == x.state) p.frontier
          (List.any_eq_true.2 ⟨y, List.mem_of_find?_eq_some hy, List.find?_some (p := fun z : Reached => z.state == x.state) hy⟩)
        simp only [insert_length]
        omega
      · exact h
    · split
      · rename_i hl
        exact (insert_length env x p.frontier).trans_le hl
      · split
        · split
          · simp only [insert_length, List.length_dropLast]
            omega
          · exact h
        · exact h

theorem foldl_frontier {α : Type} (f : Pen → α → Pen) (hf : ∀ p a, p.frontier.length ≤ 256 → (f p a).frontier.length ≤ 256)
    (l : List α) (p : Pen) (h : p.frontier.length ≤ 256) : (l.foldl f p).frontier.length ≤ 256 := by
  induction l generalizing p with
  | nil => exact h
  | cons a l ih => exact ih _ (hf p a h)

theorem extendOver_frontier (env : SearchEnv) (e : Reached) (stations : List Nat) (p : Pen) (way : Nat × End × Span)
    (h : p.frontier.length ≤ 256) : (env.extendOver e stations p way).frontier.length ≤ 256 := by
  refine foldl_frontier _ (fun q k hq => ?_) _ p h
  dsimp only
  split
  · exact hq
  · exact offer_frontier env _ q hq

/-- The work of a settlement keeps the frontier within its places (R134). -/
theorem work_frontier (env : SearchEnv) (e : Reached) (p : Pen) (h : p.frontier.length ≤ 256) :
    (env.work e p).frontier.length ≤ 256 := by
  have hx := foldl_frontier _ (extendOver_frontier env e ((p.chainOf e).map fun x => x.state.station))
    (env.leaving e.state.station) p h
  unfold SearchEnv.work SearchEnv.offerRegen
  dsimp only
  split
  · exact offer_frontier env _ _ hx
  · exact hx

theorem settleSlot_keepsLaws (i : Nat) (job : Job) (epoch : BitVec 16) (s : State) : KeepsLaws s (settleSlot i job epoch s) := by
  unfold settleSlot
  split
  · exact complete_keepsLaws _ _ s
  · rename_i e rest hf
    have hw : s.pen.frontier.length ≤ 256 → ((s.searchEnv job).work e (s.pen.settle e rest)).frontier.length ≤ 256 := fun h => by
      rw [hf] at h
      exact work_frontier _ _ _ ((Nat.le_succ rest.length).trans h)
    dsimp only
    split
    · exact KeepsLaws.trans (.withPen s _ fun _ => Nat.zero_le _) (complete_keepsLaws _ _ _)
    · split
      · exact KeepsLaws.trans (.withPen s _ hw) (complete_keepsLaws _ _ _)
      · exact .withPen s _ hw

theorem settle_keepsLaws (s : State) : KeepsLaws s (settle s) := by
  unfold settle
  split
  · split
    · exact settleSlot_keepsLaws _ _ _ s
    · exact .refl s
  · exact .refl s

theorem decideExpiry_keepsLaws (s : State) : KeepsLaws s (decideExpiry s) := by
  unfold decideExpiry
  split
  · exact .refl s
  · split
    · exact pendEpoch_keepsLaws s ‹_›
    · exact (transfer_keepsLaws s).trans (startQueued_keepsLaws _)

theorem epochExpired_keepsLaws (s : State) : KeepsLaws s (epochExpired s) := by
  unfold epochExpired
  split
  · exact .refl s
  · have ht : KeepsLaws s { s with tdb := { s.tdb with epochTimer := some (s.psr.working.epoch * Config.epochUnitMs) } } :=
      withTdb_flags_keepsLaws s _ rfl rfl rfl rfl id
    dsimp only
    split
    · exact (setHeld_keepsLaws _ _).after ht
    · exact (decideExpiry_keepsLaws _).after ht

theorem beginTaking_keepsLaws (s : State) : KeepsLaws s (beginTaking s) := by
  unfold beginTaking
  split
  · exact .refl s
  · exact .withLrp s _

theorem decideForce_keepsLaws (s : State) : KeepsLaws s (decideForce s) := by
  unfold decideForce
  split
  · exact refuse_keepsLaws _ _ s
  · split
    · exact respondOk_keepsLaws _ _ s
    · split
      · exact (pendEpoch_keepsLaws s ‹_›).trans (respond_keepsLaws _ _ _ _ _)
      · exact ((beginTaking_keepsLaws s).trans (transfer_keepsLaws _)).trans (startQueued_keepsLaws _)

theorem forceEpoch_keepsLaws (p : List Byte) (s : State) : KeepsLaws s (forceEpoch p s) := by
  unfold forceEpoch
  split
  · exact (setHeld_keepsLaws _ s).trans (beginTaking_keepsLaws _)
  · exact decideForce_keepsLaws s

theorem takeHeld_keepsLaws (l : List EpochAsk) (s : State) : KeepsLaws s (takeHeld l s) := by
  induction l generalizing s with
  | nil => exact setHeld_keepsLaws _ s
  | cons a l ih =>
    cases a with
    | expiry =>
      unfold takeHeld
      split
      · exact setHeld_keepsLaws _ s
      · exact (decideExpiry_keepsLaws s).trans (ih _)
    | force =>
      unfold takeHeld
      split
      · exact setHeld_keepsLaws _ s
      · exact (decideForce_keepsLaws s).trans (ih _)

theorem endTransfer_keepsLaws (s : State) : KeepsLaws s (endTransfer s) := by
  have ht : KeepsLaws s { s with tdb := { s.tdb with transferring := false } } := withTdb_flags_keepsLaws s _ rfl rfl rfl rfl id
  unfold endTransfer
  split
  · refine KeepsLaws.trans (ht.trans ?_) (takeHeld_keepsLaws _ _)
    split
    · exact respondOk_keepsLaws _ _ _
    · exact .refl _
  · exact .refl s

theorem submit_keepsLaws (p : List Byte) (s : State) : KeepsLaws s (submit p s) := by
  unfold submit
  split
  · exact refuse_keepsLaws _ _ s
  · split
    · exact refuse_keepsLaws _ _ s
    · rename_i i _
      have hs := (setSlotState_keepsLaws i (.queued (s.submitJob p)) s).trans (setIntent_steady i .none _).toKeepsLaws
      refine (startQueued_keepsLaws _).after ((respondOk_keepsLaws _ _ _).after ?_)
      exact hs.trans (.withReqQueue (setIntent i .none (setSlotState i (.queued (s.submitJob p)) s)) (s.reqQueue ++ [i]))

theorem cancel_keepsLaws (p : List Byte) (s : State) : KeepsLaws s (cancel p s) := by
  unfold cancel
  dsimp only
  split
  · exact refuse_keepsLaws _ _ s
  · exact (respondOk_keepsLaws _ _ _).after ((freeSlot_keepsLaws (payloadByte p 0) s).trans (.withReqQueue _ _))
  · refine (respondOk_keepsLaws _ _ _).after ((leftRunning_keepsLaws _).after ((freeSlot_keepsLaws _ _).after ?_))
    exact .withPen s _ id
  · exact refuse_keepsLaws _ _ s

theorem releaseSlot_keepsLaws (p : List Byte) (s : State) : KeepsLaws s (releaseSlot p s) := by
  unfold releaseSlot
  dsimp only
  split
  · exact refuse_keepsLaws _ _ s
  · exact refuse_keepsLaws _ _ s
  · exact refuse_keepsLaws _ _ s
  · exact refuse_keepsLaws _ _ s
  · exact ((endIntent_steady _ s).toKeepsLaws.trans (freeSlot_keepsLaws _ _)).trans (respondOk_keepsLaws _ _ _)

theorem commitIntent_keepsLaws (p : List Byte) (s : State) : KeepsLaws s (commitIntent p s) := by
  unfold commitIntent
  dsimp only
  split
  · exact refuse_keepsLaws _ _ s
  · split
    · exact refuse_keepsLaws _ _ s
    · split
      · split
        · exact refuse_keepsLaws _ _ s
        · split
          · exact refuse_keepsLaws _ _ s
          · exact ((setIntent_steady _ _ s).trans (announce_steady _ _)).toKeepsLaws.trans (respondOk_keepsLaws _ _ _)
      · exact refuse_keepsLaws _ _ s

theorem withdraw_keepsLaws (p : List Byte) (s : State) : KeepsLaws s (withdraw p s) := by
  unfold withdraw
  dsimp only
  split
  · exact refuse_keepsLaws _ _ s
  · split
    · exact (endIntent_steady _ s).toKeepsLaws.trans (respondOk_keepsLaws _ _ _)
    · exact refuse_keepsLaws _ _ s

/-! ## Resets, the load, the passing of a millisecond -/

/-- A part whose transmitter holds nothing and whose trace lines are dark obeys the law of the lines. -/
theorem lineLaw_of_silent (t : State) (hq : t.sct.queue = []) (hv : t.sct.service = none) (hd : ∀ x ∈ t.degrees, x.txWord = none) :
    t.lineLaw := by
  refine ⟨fun h => absurd hq h, fun h => absurd hv h, fun h => ?_, fun x hx h => absurd (hd x hx) h⟩
  obtain ⟨v, d, hs, -⟩ := (scTx_ne_none_iff t).1 h
  cases hv.symm.trans hs

/-- An empty table holds nothing. -/
theorem place_replicate_none {α : Type} (n p : Nat) : place (List.replicate n (none : Option α)) p = none := by
  unfold place
  rw [List.getElem?_replicate]
  split <;> rfl

/-- A database with empty intent tables and no epoch pending obeys its law. -/
theorem deviceReset_tdb_law : Tdb.deviceReset.Law :=
  ⟨fun p _ _ _ h => (by cases (place_replicate_none 32 p).symm.trans h),
    fun p _ _ _ h => (by cases (place_replicate_none 32 p).symm.trans h), fun h => by cases h⟩

theorem heldInReset_lineLaw (store : List StoreWord) (pending : List Instr) : (State.heldInReset store pending).lineLaw :=
  lineLaw_of_silent _ rfl rfl fun x hx => by rw [List.eq_of_mem_replicate hx]; rfl

theorem heldInReset_bounded (store : List StoreWord) (pending : List Instr) : (State.heldInReset store pending).bounded :=
  (bounded_iff _).2 ⟨⟨Nat.zero_le _, Nat.zero_le _, Nat.zero_le _⟩, queueLaw_nil, ⟨Nat.zero_le _, List.nodup_nil⟩, Nat.zero_le _⟩

theorem heldInReset_sized (store : List StoreWord) (pending : List Instr) (h : store.length = 70) :
    (State.heldInReset store pending).sized :=
  ⟨rfl, rfl, rfl, rfl, rfl, rfl, rfl, rfl, rfl, h, rfl, rfl, rfl⟩

theorem deviceReset_keepsLaws (s : State) : KeepsLaws s (deviceReset s) where
  sized := fun ⟨_, _, _, _, _, _, _, _, _, hs, _⟩ => heldInReset_sized _ _ hs
  bounded := fun _ => heldInReset_bounded _ _
  database := fun _ => deviceReset_tdb_law
  lines := fun _ => heldInReset_lineLaw _ _

theorem released_keepsLaws (s : State) : KeepsLaws s s.released :=
  (KeepsLaws.withInReset s false).trans
    (.withPsr _ { s.psr with loadTimer := some Config.loadMs, loadIndex := 0 } rfl (fun _ h => h) id id)

theorem releaseReset_keepsLaws (s : State) : KeepsLaws s (releaseReset s) := by
  unfold releaseReset
  split
  · exact released_keepsLaws s
  · exact .refl s

theorem restartBlocks_keepsLaws (s : State) : KeepsLaws s (restartBlocks s) where
  sized := fun ⟨_, _, _, _, _, hd, hm, _, hp, hs, _, hmon, hcls⟩ =>
    ⟨rfl, rfl, rfl, rfl, rfl, (List.length_map _).trans hd, hm, rfl, hp, hs, rfl, hmon, hcls⟩
  bounded := fun b => by
    obtain ⟨⟨_, hh, hg⟩, _, _, hf⟩ := (bounded_iff s).1 b
    exact (bounded_iff _).2 ⟨⟨Nat.zero_le _, hh, hg⟩, queueLaw_nil, ⟨Nat.zero_le _, List.nodup_nil⟩, hf⟩
  database := fun _ => deviceReset_tdb_law
  lines := fun _ => lineLaw_of_silent _ rfl rfl fun x hx => by
    obtain ⟨y, -, rfl⟩ := List.mem_map.1 hx
    rfl

theorem restart_keepsLaws (p : List Byte) (s : State) : KeepsLaws s (restart p s) := by
  have hr := (respondOk_keepsLaws cmdRestart [] s).trans (restartBlocks_keepsLaws _)
  unfold restart
  split
  · exact refuse_keepsLaws _ _ s
  · split
    · exact refuse_keepsLaws _ _ s
    · dsimp only
      split
      · exact hr.trans (catchUpAll_steady _).toKeepsLaws
      · exact hr

theorem loadWord_keepsLaws (s : State) : KeepsLaws s (loadWord s) := by
  unfold loadWord Psr.readNext
  split
  · split
    · exact .withPsr s _ rfl (fun _ h => (List.length_set ..).trans h) id id
    · exact .withPsr s _ rfl (fun _ h => h) id id
  · exact .refl s

theorem loaded_keepsLaws (s : State) : KeepsLaws s (setPsr s.psr.loaded s) :=
  .withPsr s _ rfl (fun h _ => (List.length_map _).trans h) (fun _ => by simp [Psr.loaded, loadParams, Config.degrees])
    fun _ => by simp [Psr.loaded, loadParams, Config.slots]

theorem seedGenerator_keepsLaws (s : State) : KeepsLaws s (seedGenerator s) :=
  .withSct s _ id .inl .inl fun v d hs hp => .inl ⟨(scTx_ne_none_iff s).2 ⟨v, d, hs, hp⟩, rfl⟩

/-- The station state leaves LOADING, where the lines are silent (R14, R36). -/
theorem setStation_keepsLaws (x : Station) (s : State) (h : s.dir.station = .loading) : KeepsLaws s (setStation x s) := by
  have ht : s.transmits = false := by simp [State.transmits, h]
  have ha : s.active = false := by simp [State.active, h]
  exact .withDir s _ rfl (fun e => by rw [ht] at e; cases e) (fun e => by rw [ha] at e; cases e)

theorem enterStandby_keepsLaws (s : State) : KeepsLaws s (enterStandby s) :=
  (beginWords_steady _).toKeepsLaws.after (withTdb_flags_keepsLaws s _ rfl rfl rfl rfl id)

theorem enterFaulted_keepsLaws (s : State) : KeepsLaws s (enterFaulted s) := (raise_keepsLaws _ _).after (.withScr s _ id)

theorem endLoad_keepsLaws (s : State) : KeepsLaws s (endLoad s) := by
  unfold endLoad
  split
  · rename_i hl
    have hst : s.dir.station = .loading := by
      simp only [State.loadRuns, Bool.and_eq_true, decide_eq_true_eq] at hl
      exact hl.1
    dsimp only
    generalize ht : (if s.psr.firstLoad = true then seedGenerator (setPsr s.psr.loaded s) else setPsr s.psr.loaded s) = t
    have htk : KeepsLaws s t := by
      subst ht
      split
      · exact (loaded_keepsLaws s).trans (seedGenerator_keepsLaws _)
      · exact loaded_keepsLaws s
    have htd : t.dir.station = .loading := by
      subst ht
      split <;> exact hst
    split
    · exact ((htk.trans (setStation_keepsLaws _ t htd)).trans (applyLoad_steady _).toKeepsLaws).trans (enterFaulted_keepsLaws _)
    · exact ((htk.trans (setStation_keepsLaws _ t htd)).trans (applyLoad_steady _).toKeepsLaws).trans (enterStandby_keepsLaws _)
  · exact .refl s

theorem endStoreWrite_keepsLaws (s : State) : KeepsLaws s (endStoreWrite s) := by
  unfold endStoreWrite
  split
  · exact .withPsr s _ (List.length_set ..) (fun _ h => h) id id
  · exact .refl s

theorem writeStoreWord_keepsLaws (p : List Byte) (s : State) : KeepsLaws s (writeStoreWord p s) := by
  unfold writeStoreWord
  dsimp only
  split
  · exact refuse_keepsLaws _ _ s
  · split
    · exact refuse_keepsLaws _ _ s
    · split
      · exact refuse_keepsLaws _ _ s
      · exact (respondOk_keepsLaws _ _ _).after (.withPsr s _ rfl (fun _ h => h) id id)

theorem service_tick_sends (v : Service) (d : Option Bool) : v.tick.phase = .send d ↔ v.phase = .send d := by
  cases hp : v.phase <;> simp [Service.tick, hp]

theorem staged_tick (l : List (Option StagedIntent)) (p : Nat) :
    place (l.map fun e => e.map StagedIntent.tick) p = (place l p).map StagedIntent.tick := place_map _ l p

/-- A millisecond keeps the laws: timers run, and nothing that they time changes. -/
theorem tickAll_keepsLaws (s : State) : KeepsLaws s (tickAll s) where
  sized := fun h => by
    simpa only [State.sized, tickAll, Dir.tick, Tdb.tick, Psr.tick, List.length_map] using h
  bounded := fun b => by
    obtain ⟨hr, rest⟩ := (bounded_iff s).1 b
    refine (bounded_iff _).2 ⟨?_, rest⟩
    simp only [tickAll, Scr.tick]
    split
    · exact hr
    · exact hr
  database := fun ⟨hi, hj, hp⟩ => by
    refine ⟨fun p q a b ha hb hu he => ?_, hj, hp⟩
    obtain ⟨x, hx, rfl⟩ := Option.map_eq_some_iff.1 ((staged_tick _ p).symm.trans ha)
    obtain ⟨y, hy, rfl⟩ := Option.map_eq_some_iff.1 ((staged_tick _ q).symm.trans hb)
    exact hi p q x y hx hy hu he
  lines := fun ⟨hq, hv, hm, hd⟩ => by
    refine ⟨hq, fun h => hv fun hn => h (by simp [tickAll, Sct.tick, hn]), fun h => ?_, fun y hy => ?_⟩
    · obtain ⟨w, d, hs, hp⟩ := (scTx_ne_none_iff _).1 h
      obtain ⟨v, hsv, rfl⟩ := Option.map_eq_some_iff.1 hs
      exact hm ((scTx_ne_none_iff s).2 ⟨v, d, hsv, (service_tick_sends v d).1 hp⟩)
    · obtain ⟨x, hx, rfl⟩ := List.mem_map.1 hy
      exact hd x hx

theorem tick_keepsLaws (s : State) : KeepsLaws s (tick s) := live_keepsLaws _ s (tickAll_keepsLaws s)

/-! ## The commands that act on the port, the indications, mute and START -/

theorem muteCommand_keepsLaws (p : List Byte) (s : State) : KeepsLaws s (muteCommand p s) :=
  (setMute_keepsLaws s).trans (respondOk_keepsLaws _ _ _)

theorem clearMuteCommand_keepsLaws (p : List Byte) (s : State) : KeepsLaws s (clearMuteCommand p s) := by
  unfold clearMuteCommand
  split
  · exact (unmute_keepsLaws s).trans (respondOk_keepsLaws _ _ _)
  · exact refuse_keepsLaws _ _ s

theorem startStation_keepsLaws (strap : BitVec 3) (p : List Byte) (s : State) : KeepsLaws s (startStation strap p s) := by
  unfold startStation
  split
  · exact (enterJoining_keepsLaws strap [] s).trans (respondOk_keepsLaws _ _ _)
  · exact refuse_keepsLaws _ _ s

theorem readResponse_keepsLaws (n : Nat) (s : State) : KeepsLaws s (readResponse n s) := by
  unfold readResponse
  split
  · exact clockZeros_keepsLaws _ s
  · exact .withLrp s _

theorem ignoreTransaction_keepsLaws (bits : List Bool) (s : State) : KeepsLaws s (ignoreTransaction bits s) := by
  unfold ignoreTransaction
  split
  · exact clockZeros_keepsLaws _ s
  · split
    · exact (clockZeros_keepsLaws _ s).trans (ignore_keepsLaws _)
    · exact .refl s

theorem refuseUnknown_keepsLaws (c : Byte) (rest : List Byte) (s : State) : KeepsLaws s (refuseUnknown c rest s) := by
  unfold refuseUnknown
  split
  · exact .refl s
  · exact endTransaction_keepsLaws _ _ s fun u => refuse_keepsLaws _ _ u

theorem readDirectoryEntry_keepsLaws (p : List Byte) (s : State) : KeepsLaws s (readDirectoryEntry p s) := by
  unfold readDirectoryEntry
  dsimp only
  split
  · exact respondOk_keepsLaws _ _ s
  · exact refuse_keepsLaws _ _ s

theorem readDegree_keepsLaws (p : List Byte) (s : State) : KeepsLaws s (readDegree p s) := by
  unfold readDegree
  dsimp only
  split
  · exact respondOk_keepsLaws _ _ s
  · exact refuse_keepsLaws _ _ s

theorem readReport_keepsLaws (p : List Byte) (s : State) : KeepsLaws s (readReport p s) := by
  unfold readReport
  dsimp only
  split
  · exact refuse_keepsLaws _ _ s
  · split
    · exact respondOk_keepsLaws _ _ s
    · exact refuse_keepsLaws _ _ s

theorem readPeerIntent_keepsLaws (p : List Byte) (s : State) : KeepsLaws s (readPeerIntent p s) := by
  unfold readPeerIntent
  dsimp only
  split
  · exact refuse_keepsLaws _ _ s
  · split
    · exact respondOk_keepsLaws _ _ s
    · exact refuse_keepsLaws _ _ s

theorem readSlot_keepsLaws (p : List Byte) (s : State) : KeepsLaws s (readSlot p s) := by
  unfold readSlot
  split
  · exact respondOk_keepsLaws _ _ s
  · exact refuse_keepsLaws _ _ s

theorem setEnables_keepsLaws (p : List Byte) (s : State) : KeepsLaws s (setEnables p s) := by
  unfold setEnables
  dsimp only
  split
  · exact refuse_keepsLaws _ _ s
  · exact (KeepsLaws.withNtf s _).trans (respondOk_keepsLaws _ _ _)

theorem clearIndications_keepsLaws (p : List Byte) (s : State) : KeepsLaws s (clearIndications p s) := by
  unfold clearIndications
  dsimp only
  split
  · exact refuse_keepsLaws _ _ s
  · exact (KeepsLaws.withNtf s _).trans (respondOk_keepsLaws _ _ _)

theorem readStoreWord_keepsLaws (p : List Byte) (s : State) : KeepsLaws s (readStoreWord p s) := by
  unfold readStoreWord
  dsimp only
  split
  · exact refuse_keepsLaws _ _ s
  · split
    · exact refuse_keepsLaws _ _ s
    · split
      · exact refuse_keepsLaws _ _ s
      · exact respondOk_keepsLaws _ _ s

/-! ## Every row, every step -/

/-- A passage that ends in the state answered. -/
theorem KeepsLaws.of_next {s u t : State} (k : KeepsLaws s u) (h : (.next u : Host.Outcome State Fault Refusal) = .next t) :
    KeepsLaws s t := by
  cases h
  exact k

/-- Every row keeps the laws, in every state. -/
theorem exec_keepsLaws (c : Instr) (s t : State) (h : exec c s = .next t) : KeepsLaws s t := by
  cases c with
  | deviceReset => exact .of_next (deviceReset_keepsLaws s) h
  | resetRelease => exact .of_next (releaseReset_keepsLaws s) h
  | loadEnd => exact .of_next (live_keepsLaws _ s (endLoad_keepsLaws s)) h
  | pinSample mute lol => exact .of_next (live_keepsLaws _ s (samplePins_keepsLaws mute lol s)) h
  | frameStart => exact .of_next (live_keepsLaws _ s (startFrame_keepsLaws s)) h
  | carrierEnd => exact .of_next (live_keepsLaws _ s (endCarrier_keepsLaws s)) h
  | episodeEnd levels => exact .of_next (live_keepsLaws _ s (endEpisode_keepsLaws levels s)) h
  | darkTimerExpiry => exact .of_next (live_keepsLaws _ s (darkExpired_steady s).toKeepsLaws) h
  | takeIntoService => exact .of_next (live_keepsLaws _ s (takeService_keepsLaws s)) h
  | quietGapExpiry => exact .of_next (live_keepsLaws _ s (enterSend_keepsLaws s)) h
  | sendEnd => exact .of_next (live_keepsLaws _ s (endSend_keepsLaws s)) h
  | echoCheckClose => exact .of_next (live_keepsLaws _ s (closeEcho_keepsLaws s)) h
  | takeReceivedFrame strap => exact .of_next (live_keepsLaws _ s (takeOldest_keepsLaws strap s)) h
  | peerLifetimeExpiry number => exact .of_next (live_keepsLaws _ s (purge_steady number s).toKeepsLaws) h
  | claimRoundTimerExpiry => exact .of_next (live_keepsLaws _ s (roundExpired_keepsLaws s)) h
  | noNumberTimerExpiry strap => exact .of_next (live_keepsLaws _ s (noNumberExpired_keepsLaws strap s)) h
  | traceWordSend degree => exact .of_next (live_keepsLaws _ s (sendWord_steady degree s).toKeepsLaws) h
  | traceSyncMatch heard => exact .of_next (live_keepsLaws _ s (matchSync_steady heard.degree heard.levels s).toKeepsLaws) h
  | traceWordJudgement degree levels => exact .of_next (live_keepsLaws _ s (judgeHeard_steady degree levels s).toKeepsLaws) h
  | huntTimerExpiry degree => exact .of_next (live_keepsLaws _ s (huntExpired_steady degree s).toKeepsLaws) h
  | qualifierTimerExpiry degree => exact .of_next (live_keepsLaws _ s (qualifierExpired_steady degree s).toKeepsLaws) h
  | holdDownExpiry => exact .of_next (live_keepsLaws _ s (holdDownExpired_steady s).toKeepsLaws) h
  | refreshTimerExpiry => exact .of_next (live_keepsLaws _ s (refreshExpired_steady s).toKeepsLaws) h
  | epochTimerExpiry => exact .of_next (live_keepsLaws _ s (epochExpired_keepsLaws s)) h
  | peerIntentLifetimeExpiry place => exact .of_next (live_keepsLaws _ s (expireIntent_steady place s).toKeepsLaws) h
  | settlement => exact .of_next (live_keepsLaws _ s (settle_keepsLaws s)) h
  | windowTimerExpiry slot => exact .of_next (live_keepsLaws _ s (windowExpired_steady slot s).toKeepsLaws) h
  | intentRefreshExpiry slot => exact .of_next (live_keepsLaws _ s (refreshIntent_steady slot s).toKeepsLaws) h
  | storeBusyExpiry => exact .of_next (live_keepsLaws _ s (endStoreWrite_keepsLaws s)) h
  | readResponse count => exact .of_next (readResponse_keepsLaws count s) h
  | ignoredTransaction bits => exact .of_next (ignoreTransaction_keepsLaws bits s) h
  | unknownCommand command rest => exact .of_next (refuseUnknown_keepsLaws command rest s) h
  | readStatus rest => exact .of_next (takeCommand_keepsLaws _ _ rest _ s fun _ u => respondOk_keepsLaws _ _ u) h
  | readDirectoryEntry rest => exact .of_next (takeCommand_keepsLaws _ _ rest _ s readDirectoryEntry_keepsLaws) h
  | readDegree rest => exact .of_next (takeCommand_keepsLaws _ _ rest _ s readDegree_keepsLaws) h
  | readReport rest => exact .of_next (takeCommand_keepsLaws _ _ rest _ s readReport_keepsLaws) h
  | readPeerIntent rest => exact .of_next (takeCommand_keepsLaws _ _ rest _ s readPeerIntent_keepsLaws) h
  | writeNodeReport rest => exact .of_next (takeCommand_keepsLaws _ _ rest _ s writeNodeReport_keepsLaws) h
  | writeSpanReport rest => exact .of_next (takeCommand_keepsLaws _ _ rest _ s writeSpanReport_keepsLaws) h
  | clearLatch rest => exact .of_next (takeCommand_keepsLaws _ _ rest _ s clearLatch_keepsLaws) h
  | submit rest => exact .of_next (takeCommand_keepsLaws _ _ rest _ s submit_keepsLaws) h
  | cancel rest => exact .of_next (takeCommand_keepsLaws _ _ rest _ s cancel_keepsLaws) h
  | releaseSlot rest => exact .of_next (takeCommand_keepsLaws _ _ rest _ s releaseSlot_keepsLaws) h
  | readSlot rest => exact .of_next (takeCommand_keepsLaws _ _ rest _ s readSlot_keepsLaws) h
  | commitIntent rest => exact .of_next (takeCommand_keepsLaws _ _ rest _ s commitIntent_keepsLaws) h
  | withdraw rest => exact .of_next (takeCommand_keepsLaws _ _ rest _ s withdraw_keepsLaws) h
  | forceEpoch rest => exact .of_next (takeCommand_keepsLaws _ _ rest _ s forceEpoch_keepsLaws) h
  | start rest strap => exact .of_next (takeCommand_keepsLaws _ _ rest _ s (startStation_keepsLaws strap)) h
  | restart rest => exact .of_next (takeCommand_keepsLaws _ _ rest _ s restart_keepsLaws) h
  | mute rest => exact .of_next (takeCommand_keepsLaws _ _ rest _ s muteCommand_keepsLaws) h
  | clearMute rest => exact .of_next (takeCommand_keepsLaws _ _ rest _ s clearMuteCommand_keepsLaws) h
  | setEnables rest => exact .of_next (takeCommand_keepsLaws _ _ rest _ s setEnables_keepsLaws) h
  | clearIndications rest => exact .of_next (takeCommand_keepsLaws _ _ rest _ s clearIndications_keepsLaws) h
  | readStoreWord rest => exact .of_next (takeCommand_keepsLaws _ _ rest _ s readStoreWord_keepsLaws) h
  | writeStoreWord rest => exact .of_next (takeCommand_keepsLaws _ _ rest _ s writeStoreWord_keepsLaws) h
  | loadWordRead => exact .of_next (live_keepsLaws _ s (loadWord_keepsLaws s)) h
  | epochTransferEnd => exact .of_next (live_keepsLaws _ s (endTransfer_keepsLaws s)) h

/-- Every step keeps the laws: a row does, and so does an idle millisecond. -/
theorem step_keepsLaws (s t : State) (h : step s = .next t) : KeepsLaws s t := by
  unfold step at h
  split at h
  · exact (KeepsLaws.withPending s _).trans (exec_keepsLaws _ _ t h)
  · exact .of_next (tick_keepsLaws s) h

/-- Settles O52: each law of `KeepsLaws` is kept by every step. -/
theorem stepKeepsTablesAndQueues : Obligations.StepKeepsTablesAndQueues :=
  ⟨fun s t hs h => (step_keepsLaws s t h).sized hs, fun s t hs h => (step_keepsLaws s t h).bounded hs,
    fun s t hs h => (step_keepsLaws s t h).database hs⟩

/-- Settles O57: the law of the lines is one of those every step keeps. -/
theorem stepKeepsTheLineLaw : Obligations.StepKeepsTheLineLaw := fun s t hs h => (step_keepsLaws s t h).lines hs

end Sys2Proof.Machine
end

section
/-! # The transmitter: hand-over, service, attempts, mute -/

namespace Sys2Proof.Machine

/-! ## The transmit queue (R9, R10) -/

theorem transmits_iff (s : State) : s.transmits = true ↔ s.dir.station = .joining ∨ s.dir.station = .member := by
  simp [State.transmits]

theorem isClaim_iff (f : Body) : f.isClaim = true ↔ ∃ r m, f = .claim r m := by cases f <;> simp [Body.isClaim]

theorem isReport_iff (f : Body) : f.isReport = true ↔ ∃ r, f = .report r := by cases f <;> simp [Body.isReport]

theorem isIntentOf_iff (i : Nat) (f : Body) : f.isIntentOf i = true ↔ ∃ p ps, f = .intent i p ps := by
  cases f <;> simp [Body.isIntentOf]

/-- A frame whose like is queued takes its place; a RELEASE takes the place of no frame (R9 checks 1 to 4). -/
theorem enqueue_claim_replaces (a b : List Body) (x : Body) (r m : Nat) (hx : x.isClaim = true) (ha : a.any Body.isClaim = false) :
    enqueue (a ++ x :: b) (.claim r m) = (a ++ .claim r m :: b, .queued) := by
  simp [enqueue, hx, replaceFirst_append _ _ a b x hx ha]

theorem enqueue_report_replaces (a b : List Body) (x : Body) (r : Report) (hx : x.isReport = true) (ha : a.any Body.isReport = false) :
    enqueue (a ++ x :: b) (.report r) = (a ++ .report r :: b, .queued) := by
  simp [enqueue, hx, replaceFirst_append _ _ a b x hx ha]

theorem enqueue_intent_replaces (a b : List Body) (x : Body) (i p : Nat) (ps : List Pair) (hx : x.isIntentOf i = true)
    (ha : a.any (Body.isIntentOf i) = false) : enqueue (a ++ x :: b) (.intent i p ps) = (a ++ .intent i p ps :: b, .queued) := by
  simp [enqueue, hx, replaceFirst_append _ _ a b x hx ha]

theorem enqueue_release_removes (a b : List Body) (x : Body) (i : Nat) (hx : x.isIntentOf i = true)
    (ha : a.any (Body.isIntentOf i) = false) : enqueue (a ++ x :: b) (.release i) = (a ++ b ++ [.release i], .queued) := by
  simp [enqueue, hx, removeFirst_append _ a b x hx ha]

/-- A frame without its like in the queue goes through the checks 5 to 8 of R9. -/
theorem enqueue_new (q : List Body) (f : Body) (hc : f.isClaim = true → q.any Body.isClaim = false)
    (hr : f.isReport = true → q.any Body.isReport = false)
    (hi : ∀ i, (f.isIntentOf i = true ∨ f = .release i) → q.any (Body.isIntentOf i) = false) : enqueue q f = enqueueNew q f := by
  cases f with
  | claim r m => exact if_neg (by rw [hc rfl]; exact Bool.false_ne_true)
  | report r => exact if_neg (by rw [hr rfl]; exact Bool.false_ne_true)
  | intent i p ps => exact if_neg (by rw [hi i (.inl ((isIntentOf_iff i _).2 ⟨p, ps, rfl⟩))]; exact Bool.false_ne_true)
  | release i => exact if_neg (by rw [hi i (.inr rfl)]; exact Bool.false_ne_true)

theorem enqueueNew_room (q : List Body) (f : Body) (h : q.length < 8) : enqueueNew q f = (q ++ [f], .queued) := if_pos h

theorem enqueueNew_report_full (q : List Body) (f : Body) (h : 8 ≤ q.length) (hf : f.isReport = true) :
    enqueueNew q f = (q, .droppedQuietly) := by
  simp [enqueueNew, Config.txDepth, Nat.not_lt.2 h, hf]

theorem enqueueNew_displaces_report (a b : List Body) (x f : Body) (hx : x.isReport = true) (ha : a.any Body.isReport = false)
    (h : 8 ≤ (a ++ x :: b).length) (hf : f.isReport = false) : enqueueNew (a ++ x :: b) f = (a ++ b ++ [f], .queued) := by
  have hany : (a ++ x :: b).any Body.isReport = true := by simp [hx]
  simp only [enqueueNew, Config.txDepth, Nat.not_lt.2 h, if_false, hf, hany, if_true, removeFirst_append _ a b x hx ha]
  rfl

theorem enqueueNew_full (q : List Body) (f : Body) (h : 8 ≤ q.length) (hf : f.isReport = false) (hq : q.any Body.isReport = false) :
    enqueueNew q f = (q, .abandoned) := by
  simp only [enqueueNew, Config.txDepth, Nat.not_lt.2 h, if_false, hf, hq]
  rfl

/-- A hand-over by the station state and what the queue makes of the frame (R9). -/
theorem handOverPlain_eq (f : Body) (s : State) : handOverPlain f s =
    if s.dir.station = .joining ∨ s.dir.station = .member then
      if (enqueue s.sct.queue f).2 = .abandoned then raise .txAbandon { s with sct := { s.sct with queue := (enqueue s.sct.queue f).1 } }
      else { s with sct := { s.sct with queue := (enqueue s.sct.queue f).1 } }
    else s := by
  by_cases ht : s.dir.station = .joining ∨ s.dir.station = .member
  · rw [if_pos ht, handOverPlain, if_pos ((transmits_iff s).2 ht)]
    by_cases ha : (enqueue s.sct.queue f).2 = .abandoned
    · simp only [ha, if_true]
      rfl
    · have hb : ((enqueue s.sct.queue f).2 == HandOver.abandoned) = false := by simpa using ha
      rw [if_neg ha, hb]
      rfl
  · rw [if_neg ht, handOverPlain, if_neg fun h => ht ((transmits_iff s).1 h)]

/-- A frame that a full queue abandons leaves the queue and raises TX_ABANDON (R9 check 8). -/
theorem handOverPlain_abandoned (f : Body) (s : State) (ht : s.transmits = true) (h : enqueue s.sct.queue f = (s.sct.queue, .abandoned)) :
    handOverPlain f s = raise .txAbandon s := by
  rw [handOverPlain, if_pos ht, h]
  rfl

/-! ## Intents that a report names (R149, R151) -/

/-- A change of the slot that is there is a write of that slot. -/
theorem modify_eq_set {α : Type} (l : List α) (i : Nat) (x : α) (f : α → α) (h : l[i]? = some x) : l.modify i f = l.set i (f x) := by
  apply List.ext_getElem?
  intro k
  rw [List.getElem?_modify, List.getElem?_set]
  by_cases hk : i = k
  · subst hk
    obtain ⟨hl, rfl⟩ := List.getElem?_eq_some_iff.1 h
    simp [hl]
  · simp [hk]

theorem setIntent_eq (i : Nat) (t : Intent) (s : State) (x : Slot) (h : s.slot i = some x) :
    setIntent i t s = { s with slots := s.slots.set i { x with intent := t } } := by
  rw [setIntent, modify_eq_set _ i x _ h]

/-- The state with the intent of slot `i`, which holds `x`, LOST. -/
def State.losing (s : State) (i : Nat) (x : Slot) (why : LostReason) : State :=
  { s with slots := s.slots.set i { x with intent := .lost why x.intent.priority x.intent.pairs } }

/-- The loss of a standing intent (R151, R153, R156). -/
theorem loseIntent_standing (i : Nat) (why : LostReason) (s : State) (x : Slot) (h : s.standsIn i x) :
    loseIntent i why s = raise .intentLost (s.losing i x why) := by
  rw [loseIntent, h.1]
  dsimp only
  rw [if_pos h.2, setIntent_eq i _ s x h.1]
  rfl

/-- A not-sent report that matches a standing intent (R151). -/
theorem notSent_standing (i : Nat) (s : State) (x : Slot) (h : s.standsIn i x) :
    notSent i x.intent.priority x.intent.pairs s = handOverPlain (.release i) (raise .intentLost (s.losing i x .notSent)) := by
  have hm : reportMatches i x.intent.priority x.intent.pairs s = true := by simp [reportMatches, h.1, h.2]
  rw [notSent, if_pos hm, loseIntent_standing i .notSent s x h]

/-- Raising an indication twice, another between, is raising it once after that other. -/
theorem raise_again (i k : Indication) (s : State) : raise i (raise k (raise i s)) = raise i (raise k s) := by
  have hb : ∀ n a b : Mask, n ||| a ||| b ||| a = n ||| b ||| a := fun n a b => by
    rw [BitVec.or_assoc, BitVec.or_assoc, BitVec.or_comm a, BitVec.or_assoc, BitVec.or_self, ← BitVec.or_assoc]
  simp only [raise, hb]

/-- An INTENT that a full queue drops loses the standing intent it announces; the RELEASE that follows is dropped too (R9, R151). -/
theorem handOver_intent_dropped (s : State) (i : Nat) (x : Slot) (h : s.standsIn i x) (ht : s.transmits = true)
    (hl : 8 ≤ s.sct.queue.length) (hr : s.sct.queue.any Body.isReport = false)
    (hi : s.sct.queue.any (Body.isIntentOf i) = false) :
    handOver (.intent i x.intent.priority x.intent.pairs) s = raise .txAbandon (raise .intentLost (s.losing i x .notSent)) := by
  have hdrop : ∀ f : Body, f.isClaim = false → f.isReport = false → (∀ k, (f.isIntentOf k = true ∨ f = .release k) → k = i) →
      enqueue s.sct.queue f = (s.sct.queue, .abandoned) := fun f hc hf hk => by
    rw [enqueue_new _ f (fun e => by simp [hc] at e) (fun e => by simp [hf] at e) fun k e => by rw [hk k e]; exact hi]
    exact enqueueNew_full _ f hl hf hr
  have hintent := hdrop (.intent i x.intent.priority x.intent.pairs) rfl rfl (by simp [Body.isIntentOf])
  have hrelease := hdrop (.release i) rfl rfl (by simp [Body.isIntentOf])
  have hab := handOverPlain_abandoned _ s ht hintent
  have hnot : handOver (.intent i x.intent.priority x.intent.pairs) s
      = notSent i x.intent.priority x.intent.pairs (raise .txAbandon s) := by
    simp [handOver, hab, hintent, ht]
  rw [hnot, notSent_standing i (raise .txAbandon s) x h]
  refine Eq.trans (handOverPlain_abandoned (.release i) (raise .intentLost (State.losing (raise .txAbandon s) i x .notSent)) ?_ ?_)
    (raise_again .txAbandon .intentLost (s.losing i x .notSent))
  · exact ht
  · exact hrelease

/-- Settles O15: each check of R9 by the queue it meets, then the hand-over over a state. -/
theorem handOverFollowsTheOrderedChecks : Obligations.HandOverFollowsTheOrderedChecks := by
  refine ⟨fun a b x f hf hx ha => ?_, fun a b x f hf hx ha => ?_, fun a b x f i hf hx ha => ?_, fun q f hc hr hi => ?_,
    handOverPlain_eq, fun s i x h ht => handOver_intent_dropped s i x h ((transmits_iff s).2 ht)⟩
  · obtain ⟨r, m, rfl⟩ := (isClaim_iff f).1 hf
    exact enqueue_claim_replaces a b x r m hx ha
  · obtain ⟨r, rfl⟩ := (isReport_iff f).1 hf
    exact enqueue_report_replaces a b x r hx ha
  · obtain ⟨p, ps, rfl⟩ := (isIntentOf_iff i f).1 hf
    exact ⟨enqueue_intent_replaces a b x i p ps hx ha, enqueue_release_removes a b x i hx ha⟩
  · rw [enqueue_new q f hc hr hi]
    refine ⟨enqueueNew_room q f, enqueueNew_report_full q f, ?_, enqueueNew_full q f⟩
    rintro a x b rfl hx ha
    exact enqueueNew_displaces_report a b x f hx ha

/-! ## Into service (R10) -/

/-- The first element that passes a test splits a list: those before it fail the test. -/
theorem split_at_find {α : Type} {p : α → Bool} {l : List α} {x : α} (h : l.find? p = some x) :
    ∃ a b, l = a ++ x :: b ∧ p x = true ∧ a.any p = false := by
  obtain ⟨hx, a, b, rfl, ha⟩ := List.find?_eq_some_iff_append.1 h
  refine ⟨a, b, rfl, hx, ?_⟩
  rw [List.any_eq_false]
  exact fun y hy => by simpa using ha y hy

theorem rank_zero_iff (f : Body) : f.rank = 0 ↔ f.isClaim = true := by cases f <;> simp [Body.rank, Body.isClaim]

theorem rank_one_iff (f : Body) : f.rank = 1 ↔ f.isIntentClass = true := by cases f <;> simp [Body.rank, Body.isIntentClass]

theorem rank_two_iff (f : Body) : f.rank = 2 ↔ f.isReport = true := by cases f <;> simp [Body.rank, Body.isReport]

theorem rank_le_two (f : Body) : f.rank ≤ 2 := by cases f <;> simp [Body.rank]

/-- The frame that leaves a queue is the first of the lowest class in it; frames after it are of no lower class (R10). -/
theorem nextInClass_first (q : List Body) (h : q ≠ []) :
    ∃ a f b, q = a ++ f :: b ∧ (∀ g ∈ a, f.rank < g.rank) ∧ (∀ g ∈ b, f.rank ≤ g.rank) ∧ nextInClass q = some (f, a ++ b) := by
  cases hc : q.find? Body.isClaim with
  | some f =>
    obtain ⟨a, b, rfl, hf, ha⟩ := split_at_find hc
    have hz := (rank_zero_iff f).2 hf
    refine ⟨a, f, b, rfl, fun g hg => ?_, fun g _ => by omega, ?_⟩
    · have hn := mt (rank_zero_iff g).1 (List.any_eq_false.1 ha g hg)
      omega
    · rw [nextInClass, hc, removeFirst_append _ a b f hf ha]
  | none =>
    have hnc : ∀ g ∈ q, g.rank ≠ 0 := fun g hg => mt (rank_zero_iff g).1 (List.find?_eq_none.1 hc g hg)
    cases hi : q.find? Body.isIntentClass with
    | some f =>
      obtain ⟨a, b, rfl, hf, ha⟩ := split_at_find hi
      have ho := (rank_one_iff f).2 hf
      refine ⟨a, f, b, rfl, fun g hg => ?_, fun g hg => ?_, ?_⟩
      · have hn := mt (rank_one_iff g).1 (List.any_eq_false.1 ha g hg)
        have := hnc g (by simp [hg])
        omega
      · have := hnc g (by simp [hg])
        omega
      · simp only [nextInClass, hc, hi, removeFirst_append _ a b f hf ha]
    | none =>
      have hall : ∀ g ∈ q, g.isReport = true := fun g hg => by
        have h0 := hnc g hg
        have h1 := mt (rank_one_iff g).1 (List.find?_eq_none.1 hi g hg)
        have h2 := rank_le_two g
        exact (rank_two_iff g).1 (by omega)
      obtain ⟨f, b, rfl⟩ := List.exists_cons_of_ne_nil h
      have hf := hall f (by simp)
      refine ⟨[], f, b, rfl, by simp, fun g hg => ?_, ?_⟩
      · rw [(rank_two_iff f).2 hf, (rank_two_iff g).2 (hall g (by simp [hg]))]
      · simp [nextInClass, hc, hi, hf, removeFirst]

/-- Settles O16: the frame that `nextInClass` takes enters service, its header filled. -/
theorem firstFrameInClassOrderEntersService : Obligations.FirstFrameInClassOrderEntersService := by
  intro s hr hs hm ht hq
  obtain ⟨a, f, b, hab, ha, hb, hn⟩ := nextInClass_first s.sct.queue hq
  refine ⟨a, f, b, hab, ha, hb, ?_⟩
  have hc : s.sct.service = none ∧ s.transmits = true ∧ s.sct.mute = false := ⟨hs, (transmits_iff s).2 ht, hm⟩
  show Host.Outcome.next (live takeService s) = _
  rw [live_of_running _ s hr, takeService, if_pos hc, hn]
  simp [State.startWait, hm, Config.slotMs, setService, setTxQueue, State.fillFrame]

/-! ## Attempts (R12, R13) -/

/-- The state with no frame in service. -/
def State.outOfService (s : State) : State := { s with sct := { s.sct with service := none } }

/-- Below eight attempts a failed one waits again; the gap runs where the line is dark and the mute flag clear (R11, R13). -/
theorem failAttempt_waits (v : Service) (s : State) (h : v.attempts < 7) :
    failAttempt v s = { s with sct := { s.sct with
      draws := s.sct.draws + 1
      service := some { v with attempts := v.attempts + 1, backoff := s.drawBackoff (v.attempts + 1),
                               phase := .wait (if s.scr.carrier || s.sct.mute then none
                                 else some (1 + s.drawBackoff (v.attempts + 1))) } } } := by
  have hn : ¬ Config.attempts ≤ v.attempts + 1 := by simp only [Config.attempts]; omega
  simp [failAttempt, hn, State.startWait, Config.slotMs]

/-- The eighth failed attempt takes the frame out of service with TX_ABANDON, and it is reported (R13). -/
theorem failAttempt_abandons (v : Service) (s : State) (h : 7 ≤ v.attempts) :
    failAttempt v s = reportNotSent v.body (raise .txAbandon s.outOfService) := by
  have hn : Config.attempts ≤ v.attempts + 1 := by simp only [Config.attempts]; omega
  rw [failAttempt, if_pos hn]
  rfl

/-- A backoff lies in the range of its count, whichever value is drawn (R13). -/
theorem drawBackoff_lt (s : State) (a : Nat) : s.drawBackoff a < 2 ^ min a 6 := Nat.mod_lt _ (Nat.two_pow_pos _)

/-- REPORT and RELEASE are reported to no block (R13, R16). -/
theorem reportNotSent_plain (f : Body) (s : State) (h : f.isReport = true ∨ ∃ i, f = .release i) : reportNotSent f s = s := by
  rcases h with h | ⟨i, rfl⟩
  · obtain ⟨r, rfl⟩ := (isReport_iff f).1 h
    rfl
  · rfl

/-- In JOINING a CLAIM that was not sent is handed over anew for the candidate (R27). -/
theorem reportNotSent_claim (r m c : Nat) (s : State) (hj : s.dir.station = .joining) (hc : s.dir.candidate = some c) :
    reportNotSent (.claim r m) s = handOverPlain (.claim c 1) s := by
  simp only [reportNotSent, claimAbandoned, hj, hc]
  rfl

/-- An INTENT that was not sent loses the intent it matches (R151). -/
theorem reportNotSent_intent (i : Nat) (x : Slot) (s : State) (h : s.standsIn i x) :
    reportNotSent (.intent i x.intent.priority x.intent.pairs) s
      = handOverPlain (.release i) (raise .intentLost (s.losing i x .notSent)) := notSent_standing i s x h

/-- The slots after a loss: the one slot, and the others as before. -/
theorem losing_slot (s : State) (i : Nat) (x : Slot) (why : LostReason) (h : s.slot i = some x) :
    (s.losing i x why).slot i = some { x with intent := .lost why x.intent.priority x.intent.pairs } ∧ SameOtherSlots s (s.losing i x why) i := by
  obtain ⟨hi, -⟩ := List.getElem?_eq_some_iff.1 h
  exact ⟨by simp [State.slot, State.losing, hi], fun k hk => List.getElem?_set_ne fun e => hk e.symm⟩

/-- The echo check closes on a frame in ECHO (R12). -/
theorem closeEcho_echo (s : State) (v : Service) (n : Nat) (hs : s.sct.service = some v) (hp : v.phase = .echo n) :
    closeEcho s = failAttempt v s := by
  simp only [closeEcho, hs, hp]

/-- ECHO_CHECK_CLOSE on a frame in ECHO. -/
theorem exec_echoCheckClose (s : State) (v : Service) (n : Nat) (hr : s.inReset = false) (hs : s.sct.service = some v)
    (hp : v.phase = .echo n) : exec .echoCheckClose s = .next (failAttempt v s) := by
  show Host.Outcome.next (live closeEcho s) = _
  rw [live_of_running _ s hr, closeEcho_echo s v n hs hp]

/-- Settles O18: the attempt waits again below eight, and at eight the frame is abandoned and reported by its kind. -/
theorem failedAttemptBacksOffOrIsAbandoned : Obligations.FailedAttemptBacksOffOrIsAbandoned := by
  intro s v n hr hs hp
  rw [exec_echoCheckClose s v n hr hs hp]
  refine ⟨fun h => ⟨_, drawBackoff_lt s _, by rw [failAttempt_waits v s h]⟩, fun h hb => ?_, fun r m c h hb hj hc => ?_,
    fun i x h hx hb => ?_⟩
  · rw [failAttempt_abandons v s h, reportNotSent_plain _ _ hb]
    rfl
  · rw [failAttempt_abandons v s h, hb, reportNotSent_claim r m c (raise .txAbandon s.outOfService) hj hc]
    rfl
  · rw [failAttempt_abandons v s h, hb, reportNotSent_intent i x (raise .txAbandon s.outOfService) hx]
    obtain ⟨hi, ho⟩ := losing_slot (raise .txAbandon s.outOfService) i x .notSent hx.1
    generalize hu : raise .intentLost ((raise .txAbandon s.outOfService).losing i x .notSent) = u
    have hslots : (handOverPlain (.release i) u).slots = ((raise .txAbandon s.outOfService).losing i x .notSent).slots := by
      rw [handOverPlain_slots, ← hu]
      rfl
    have hshown := (handOverPlain_steady (.release i) u).shown
    have hlost : u.shows .intentLost := hu ▸ (raise_shows _ _ _).2 (.inl rfl)
    have habandoned : u.shows .txAbandon :=
      hu ▸ (raise_shows _ _ _).2 (.inr ((raise_shows .txAbandon .txAbandon s.outOfService).2 (.inl rfl)))
    refine ⟨_, _, rfl, ?_, rfl, hshown _ habandoned, hshown _ hlost, fun k hk => ?_, ?_⟩
    · rw [State.slot, hslots]
      exact hi
    · rw [State.slot, hslots]
      exact ho k hk
    · rw [(handOverPlain_steady (.release i) u).service, ← hu]
      rfl

/-! ## The gap, SEND and its end (R11, R12) -/

/-- What the completion of a matching INTENT does to its slot (R149). -/
theorem completionReport_starts (i p r : Nat) (ps : List Pair) (s : State) (x : Slot) (hx : s.slot i = some x)
    (hi : x.intent = .claiming p ps none r) :
    completionReport i p ps s = { s with slots := s.slots.set i { x with intent := .claiming p ps (some 80) r } } := by
  simp only [completionReport, hx, hi, and_self, if_true]
  exact setIntent_eq i _ s x hx

/-- The completion of a CLAIM times the round where it names the candidate (R27). -/
theorem claimCompleted_eq (c : Nat) (s : State) : claimCompleted c s =
    if s.dir.station = .joining ∧ s.dir.candidate = some c then { s with dir := { s.dir with roundTimer := some 40 } } else s := rfl

/-- REPORT and RELEASE complete without a report. -/
theorem completeAttempt_plain (v : Service) (s : State) (h : v.body.isReport = true ∨ ∃ i, v.body = .release i) :
    completeAttempt v s = s.outOfService := by
  rcases h with h | ⟨i, h⟩
  · obtain ⟨r, h⟩ := (isReport_iff _).1 h
    simp only [completeAttempt, h]
    rfl
  · simp only [completeAttempt, h]
    rfl

theorem completeAttempt_claim (v : Service) (s : State) (c m : Nat) (h : v.body = .claim c m) :
    completeAttempt v s = claimCompleted c s.outOfService := by
  simp only [completeAttempt, h]
  rfl

theorem completeAttempt_intent (v : Service) (s : State) (i p : Nat) (ps : List Pair) (h : v.body = .intent i p ps) :
    completeAttempt v s = completionReport i p ps s.outOfService := by
  simp only [completeAttempt, h]
  rfl

/-- SEND_END by what was decided (R12). -/
theorem exec_sendEnd_decided (s : State) (v : Service) (c : Bool) (hr : s.inReset = false) (hs : s.sct.service = some v)
    (hp : v.phase = .send (some c)) : exec .sendEnd s = .next (resolveAttempt c v s) := by
  show Host.Outcome.next (live endSend s) = _
  simp only [live_of_running _ s hr, endSend, hs, hp]

theorem exec_sendEnd_undecided (s : State) (v : Service) (hr : s.inReset = false) (hs : s.sct.service = some v)
    (hp : v.phase = .send none) : exec .sendEnd s = .next (setService (some { v with phase := .echo 1 }) s) := by
  show Host.Outcome.next (live endSend s) = _
  simp only [live_of_running _ s hr, endSend, hs, hp]
  rfl

/-- QUIET_GAP_EXPIRY on a waiting frame whose gap has run, in a state that may send (R11). -/
theorem exec_quietGapExpiry (s : State) (v : Service) (gap : Nat) (hr : s.inReset = false) (hs : s.sct.service = some v)
    (hp : v.phase = .wait (some gap)) (hc : s.scr.carrier = false) (hm : s.sct.mute = false) (ht : s.transmits = true) :
    exec .quietGapExpiry s = .next (setService (some { v with phase := .send none }) s) := by
  show Host.Outcome.next (live enterSend s) = _
  simp only [live_of_running _ s hr, enterSend, hs, hp, hc, hm, ht, and_self, if_true]

/-- Settles O17: the gap's end, the end of an undecided SEND, and of one decided either way. -/
theorem quietGapThenSendThenEcho : Obligations.QuietGapThenSendThenEcho := by
  refine ⟨fun s v gap hr hs hp hc hm ht => ⟨_, exec_quietGapExpiry s v gap hr hs hp hc hm ((transmits_iff s).2 ht), rfl, rfl⟩,
    fun s v hr hs hp => exec_sendEnd_undecided s v hr hs hp, fun s v u hr hs hp hu => ?_, fun s v n hr hs hp => ?_⟩
  · subst hu
    rw [exec_sendEnd_decided s v true hr hs hp]
    refine ⟨fun hb => ?_, fun c m hb => ?_, fun i x ps p r hb hx hi => ?_⟩
    · exact congrArg Host.Outcome.next (completeAttempt_plain v s hb)
    · exact congrArg Host.Outcome.next (completeAttempt_claim v s c m hb)
    · exact congrArg Host.Outcome.next
        ((completeAttempt_intent v s i p ps hb).trans (completionReport_starts i p r ps s.outOfService x hx hi))
  · rw [exec_sendEnd_decided s v false hr hs hp]
    exact (exec_echoCheckClose (setService (some { v with phase := .echo n }) s) _ n hr rfl rfl).symm

/-! ## Mute (R15, R16) -/

/-- The state that the request port answers from: a command that it takes acts on the state whose data-out carried zeros. -/
theorem takeCommand_empty (c : Byte) (act : List Byte → State → State) (s : State) (h : s.listens) :
    takeCommand c (hasLength 0) [0] act s = act [] (clockZeros 2 s) := takeCommand_taken c _ 0 [] act s h rfl rfl

/-- MUTE in a state that the port answers from. -/
theorem exec_mute (s : State) (h : s.listens) : exec (.mute [0]) s = .next (respondOk cmdMute [] (setMute (clockZeros 2 s))) :=
  congrArg Host.Outcome.next (takeCommand_empty cmdMute muteCommand s h)

theorem exec_clearMute (s : State) (h : s.listens) : exec (.clearMute [0]) s = .next (clearMuteCommand [] (clockZeros 2 s)) :=
  congrArg Host.Outcome.next (takeCommand_empty cmdClearMute clearMuteCommand s h)

theorem setMute_muted (s : State) (h : s.sct.mute = true) : setMute s = s := if_pos h

/-- The mute flag set, MUTED raised, with the frame in service `v`. -/
def State.mutedWith (s : State) (v : Option Service) : State :=
  raise .muted { s with sct := { s.sct with mute := true, service := v } }

/-- What becomes of the frame in service when the mute flag is set (R16): nothing of none, and nothing in ECHO. -/
theorem setMute_idle (s : State) (hm : s.sct.mute = false) (hs : s.sct.service = none) : setMute s = s.mutedWith none := by
  simp [setMute, hm, muteService, hs, State.mutedWith]

theorem setMute_echo (s : State) (v : Service) (n : Nat) (hm : s.sct.mute = false) (hs : s.sct.service = some v)
    (hp : v.phase = .echo n) : setMute s = s.mutedWith (some v) := by
  simp [setMute, hm, muteService, hs, hp, State.mutedWith]

/-- In WAIT the gap stops. -/
theorem setMute_wait (s : State) (v : Service) (gap : Timer) (hm : s.sct.mute = false) (hs : s.sct.service = some v)
    (hp : v.phase = .wait gap) : setMute s = s.mutedWith (some { v with phase := .wait none }) := by
  simp [setMute, hm, muteService, hs, hp, State.mutedWith, setService, raise]

/-- In SEND the frame is cut off, and reported as not sent. -/
theorem setMute_send (s : State) (v : Service) (d : Option Bool) (hm : s.sct.mute = false) (hs : s.sct.service = some v)
    (hp : v.phase = .send d) : setMute s = reportNotSent v.body (s.mutedWith none) := by
  simp [setMute, hm, muteService, hs, hp, State.mutedWith, setService, raise]

/-- A hand-over and the zeros on data-out do not meet. -/
theorem handOverPlain_clockZeros (f : Body) (n : Nat) (s : State) :
    handOverPlain f (clockZeros n s) = clockZeros n (handOverPlain f s) := by
  have ht : (clockZeros n s).transmits = s.transmits := rfl
  simp only [handOverPlain, ht, clockZeros_sct]
  split
  · cases (enqueue s.sct.queue f).2 <;> rfl
  · rfl

/-- The frame in service, where it waits, with its gap at `gap`. -/
def Service.rewait (gap : Timer) (v : Service) : Service :=
  match v.phase with
  | .wait _ => { v with phase := .wait gap }
  | .send _ => v
  | .echo _ => v

/-- A frame that waits has its gap set; any other is left. -/
theorem map_rewait (gap : Service → Timer) (o : Option Service) : (o.map fun v => v.rewait (gap v)) = o.map fun v =>
    match v.phase with
    | .wait _ => { v with phase := .wait (gap v) }
    | _ => v := by
  refine congrArg (Option.map · o) (funext fun v => ?_)
  obtain ⟨_, _, _, _, p⟩ := v
  cases p <;> rfl

/-- The mute flag cleared: a suspended WAIT begins again from its start (R11, R15). -/
theorem unmute_eq (s : State) (h : s.sct.mute = true) : unmute s = { s with sct := { s.sct with
    mute := false
    service := s.sct.service.map fun v => v.rewait (if s.scr.carrier then none else some (1 + v.backoff)) } } := by
  obtain ⟨pending, inReset, scr, ⟨queue, service, mute, seed, draws⟩⟩ := s
  cases h
  cases service with
  | none => rfl
  | some v => cases hp : v.phase <;> simp [unmute, hp, Service.rewait, State.startWait, setService, Config.slotMs]

/-- Settles O11: MUTE by the phase of the frame in service, CLEAR MUTE by the filtered level of the pin. -/
theorem muteCommandsSetAndClearTheFlag : Obligations.MuteCommandsSetAndClearTheFlag := by
  intro s hl
  rw [exec_mute s hl, exec_clearMute s hl]
  refine ⟨fun hm => ?_, fun hm hs => ?_, fun v gap hm hs hp => ?_, fun v n hm hs hp => ?_, fun v d hm hs hp => ?_,
    fun v d u hm hs hp hu => ?_, fun hp => ?_, fun hp hm => ?_, fun hp hm => ?_⟩
  · rw [setMute_muted (clockZeros 2 s) hm]
    rfl
  · rw [setMute_idle (clockZeros 2 s) hm hs, ← hs]
    rfl
  · rw [setMute_wait (clockZeros 2 s) v gap hm hs hp]
    rfl
  · rw [setMute_echo (clockZeros 2 s) v n hm hs hp, ← hs]
    rfl
  · rw [setMute_send (clockZeros 2 s) v d hm hs hp]
    have hr := reportNotSent_steady v.body ((clockZeros 2 s).mutedWith none)
    refine ⟨_, rfl, hr.service, hr.mute, ?_, hr.shown .muted ((raise_shows _ _ _).2 (.inl rfl)), ?_⟩
    · simp only [State.scTx, respondOk_sct, hr.service]
      rfl
    · have hlrp := reportNotSent_lrp v.body ((clockZeros 2 s).mutedWith none)
      simp only [respondOk, respond, hlrp]
      rfl
  · subst hu
    rw [setMute_send (clockZeros 2 s) v d hm hs hp]
    refine ⟨fun hb => ?_, fun r m c hb hj hc => ?_, fun i x hx hb => ?_⟩
    · rw [reportNotSent_plain _ _ hb]
      rfl
    · rw [hb, reportNotSent_claim r m c ((clockZeros 2 s).mutedWith none) hj hc]
      exact congrArg (fun t => Host.Outcome.next (respondOk cmdMute [] t)) (handOverPlain_clockZeros _ 2 (s.mutedWith none))
    · rw [hb, reportNotSent_intent i x ((clockZeros 2 s).mutedWith none) hx]
      exact congrArg (fun t => Host.Outcome.next (respondOk cmdMute [] t))
        (handOverPlain_clockZeros _ 2 (raise .intentLost ((s.mutedWith none).losing i x .notSent)))
  · exact congrArg Host.Outcome.next (if_neg hp)
  · have hu : unmute (clockZeros 2 s) = clockZeros 2 s := by simp [unmute, hm]
    exact congrArg Host.Outcome.next ((if_pos hp).trans (by rw [hu]; rfl))
  · exact congrArg Host.Outcome.next ((if_pos hp).trans (by rw [unmute_eq (clockZeros 2 s) hm, map_rewait]; rfl))

end Sys2Proof.Machine
end

section
/-! # The receiver: carrier, dark timer, episodes -/

namespace Sys2Proof.Machine

/-! ## Carrier and dark timer (R1, R7, R8, R11) -/

/-- Carrier onset ends the gap of a waiting frame. -/
theorem stopGap_eq (s : State) :
    stopGap s = { s with sct := { s.sct with service := s.sct.service.map fun v => v.rewait none } } := by
  obtain ⟨pending, inReset, scr, ⟨queue, service, mute, seed, draws⟩⟩ := s
  cases service with
  | none => rfl
  | some v => cases hp : v.phase <;> simp [stopGap, hp, Service.rewait, setService]

/-- Carrier end begins the gap of a waiting frame, unless the mute flag is set. -/
theorem endCarrier_eq (s : State) (h : s.scr.carrier = true) : endCarrier s = { s with
    scr := { s.scr with carrier := false }
    sct := { s.sct with service := s.sct.service.map fun v => v.rewait (if s.sct.mute then none else some (1 + v.backoff)) } } := by
  obtain ⟨pending, inReset, scr, ⟨queue, service, mute, seed, draws⟩⟩ := s
  cases service with
  | none => simp only [endCarrier, if_pos h]; rfl
  | some v => cases hp : v.phase <;> simp [endCarrier, if_pos h, hp, Service.rewait, State.startWait, setService, Config.slotMs]

/-- A channel that changes with the impaired flag left as it was signals nothing to the ORG (R8). -/
theorem setChannel_quiet (x : Scr) (s : State) (h : (x.channel = .aligned ↔ s.scr.channel = .aligned)) :
    setChannel x s = raiseIf (x.channel != s.scr.channel) .channelChange { s with scr := x } := by
  have hi : State.impaired { s with scr := x } = s.impaired := by simp only [State.impaired, ne_eq, h]
  simp only [setChannel, hi, bne_self_eq_false]
  rfl

/-- Outside MEMBER the ORG hears no signal (R70). -/
theorem setChannel_outside (x : Scr) (s : State) (h : s.dir.station ≠ .member) :
    setChannel x s = raiseIf (x.channel != s.scr.channel) .channelChange { s with scr := x } :=
  orgChangeIf_outside _ _ (by rw [raiseIf_dir]; exact h)

theorem setChannel_scr (x : Scr) (s : State) : (setChannel x s).scr = x := by
  simp [setChannel]

/-- A change of the channel state is shown (R8). -/
theorem setChannel_shows (x : Scr) (s : State) (h : x.channel ≠ s.scr.channel) : (setChannel x s).shows .channelChange :=
  (orgChangeIf_steady _ _).shown _ ((raiseIf_shows _ _ _ _).2 (.inl ⟨by simpa using h, rfl⟩))

theorem exec_frameStart (s : State) (hr : s.inReset = false) : exec .frameStart s = .next (startFrame s) :=
  congrArg Host.Outcome.next (live_of_running _ s hr)

theorem exec_darkTimerExpiry (s : State) (hr : s.inReset = false) (hf : s.dir.station ≠ .faulted)
    (ht : s.scr.darkTimer.isSome = true) : exec .darkTimerExpiry s = .next (setChannel s.scr.darkExpired s) :=
  congrArg Host.Outcome.next ((live_of_running _ s hr).trans (if_pos ⟨ht, hf⟩))

/-- Carrier onset outside FAULTED: the timer restarts, DARK becomes SEEKING, and decoding begins (R7). -/
theorem startFrame_onset (s : State) (hc : s.scr.carrier = false) (hf : s.dir.station ≠ .faulted) :
    startFrame s = raiseIf (s.scr.channel == .dark) .channelChange { stopGap s with scr := { s.scr with
      carrier := true, decoding := true, darkTimer := some 5000,
      channel := if s.scr.channel = .dark then .seeking else s.scr.channel } } := by
  have hx : s.scr.frameStart = { s.scr with
      carrier := true, decoding := true, darkTimer := some 5000,
      channel := if s.scr.channel = .dark then .seeking else s.scr.channel } := by
    cases h : s.scr.channel <;> simp [Scr.frameStart, h, Config.darkMs]
  have hq := setChannel_quiet s.scr.frameStart (stopGap s) (by
    cases h : s.scr.channel <;> simp [Scr.frameStart, h])
  simp only [startFrame, hc, Bool.false_eq_true, if_false, stopGap_dir, hf, stopGap_scr, hq]
  rw [hx]
  cases h : s.scr.channel <;> rfl

/-- Carrier onset in FAULTED: the carrier is followed, and nothing is decoded (log 5). -/
theorem startFrame_faulted (s : State) (hc : s.scr.carrier = false) (hf : s.dir.station = .faulted) :
    startFrame s = { stopGap s with scr := { s.scr with carrier := true } } := by
  simp only [startFrame, hc, Bool.false_eq_true, if_false, stopGap_dir, hf, if_true, stopGap_scr]

/-- Settles O12: carrier onset in and out of FAULTED, carrier end, and the dark timer's expiry. -/
theorem carrierAndDarkTimerMoveTheChannel : Obligations.CarrierAndDarkTimerMoveTheChannel := by
  refine ⟨fun s hc => ?_, fun s hr hc hf => ?_, fun s hr hc hf => ?_, fun s hr hc => ?_, fun s hr hf ht => ?_⟩
  · have hs : startFrame s = s := if_pos hc
    show Host.Outcome.next (live startFrame s) = _
    simp [live, hs]
  · rw [exec_frameStart s hr, startFrame_onset s hc hf, stopGap_eq, map_rewait]
    cases h : s.scr.channel <;> rfl
  · have he := startFrame_faulted s hc hf
    rw [stopGap_eq, map_rewait] at he
    exact (exec_frameStart s hr).trans (congrArg Host.Outcome.next he)
  · have he := endCarrier_eq s hc
    rw [map_rewait] at he
    exact congrArg Host.Outcome.next ((live_of_running _ s hr).trans he)
  · refine ⟨_, exec_darkTimerExpiry s hr hf ht, setChannel_scr _ s, fun h => setChannel_shows _ s h.symm, fun hm => ?_⟩
    rw [setChannel_scr, setChannel_outside _ s hm]
    cases h : s.scr.channel <;> simp [Scr.darkExpired, raiseIf]

/-! ## Episodes (R5, R7, R8) -/

/-- The frame check's outcome is one of the two of R5. -/
theorem isValid_iff (e : Episode) : e.isValid = true ↔ e ≠ .invalid := by cases e <;> simp [Episode.isValid]

/-- EPISODE_END while the part decodes: the episode is recorded, then routed (R5, R7). -/
theorem exec_episodeEnd (s : State) (levels : List Bool) (h : s.decodes) : exec (.episodeEnd levels) s = .next
    (routeEpisode (classifyLine levels)
      (setChannel ({ s.scr with decoding := false }.record (classifyLine levels).isValid) s)) :=
  congrArg Host.Outcome.next ((live_of_running _ s h.1).trans (if_pos h.2))

/-- A frame that fails or completes keeps what is shown (R170). -/
theorem failAttempt_shown (v : Service) (s : State) (k : Indication) (h : s.shows k) : (failAttempt v s).shows k := by
  unfold failAttempt
  split
  · exact (reportNotSent_steady _ _).shown k ((raise_steady _ _).shown k h)
  · exact h

theorem completeAttempt_shown (v : Service) (s : State) (k : Indication) (h : s.shows k) : (completeAttempt v s).shows k := by
  rw [State.shows, completeAttempt_ntf]
  exact h

theorem decideAttempt_shown (c : Bool) (s : State) (k : Indication) (h : s.shows k) : (decideAttempt c s).shows k := by
  unfold decideAttempt
  split
  · split
    · exact h
    · cases c
      · exact failAttempt_shown _ s k h
      · exact completeAttempt_shown _ s k h
    · exact h
  · exact h

/-- Routing an episode touches nothing of the receiver but its queue (R5, R6), and clears no indication. -/
theorem routeEpisode_scr (e : Episode) (s : State) : ∃ q, (routeEpisode e s).scr = { s.scr with rxQueue := q } := by
  unfold routeEpisode
  split
  · exact ⟨_, decideAttempt_scr _ s⟩
  · split
    · split
      · exact ⟨_, decideAttempt_scr _ s⟩
      · exact ⟨_, rfl⟩
    · unfold receiveFrame
      split
      · split
        · exact ⟨_, rfl⟩
        · exact ⟨_, rfl⟩
      · exact ⟨_, rfl⟩

theorem routeEpisode_shown (e : Episode) (s : State) (k : Indication) (h : s.shows k) : (routeEpisode e s).shows k := by
  unfold routeEpisode
  split
  · exact decideAttempt_shown _ s k h
  · split
    · split
      · exact decideAttempt_shown _ s k h
      · exact h
    · exact (receiveFrame_steady _ s).shown k h

/-- The counts that routing leaves as the record made them. -/
theorem routeEpisode_counts (e : Episode) (s : State) :
    (routeEpisode e s).scr.channel = s.scr.channel ∧ (routeEpisode e s).scr.history = s.scr.history
      ∧ (routeEpisode e s).scr.goodRun = s.scr.goodRun ∧ (routeEpisode e s).scr.darkTimer = s.scr.darkTimer
      ∧ (routeEpisode e s).scr.carrier = s.scr.carrier ∧ (routeEpisode e s).scr.decoding = s.scr.decoding := by
  obtain ⟨q, h⟩ := routeEpisode_scr e s
  rw [h]
  exact ⟨rfl, rfl, rfl, rfl, rfl, rfl⟩

/-- A record leaves queue, timer, carrier and decoding alone (R7). -/
theorem record_keeps (x : Scr) (valid : Bool) : (x.record valid).rxQueue = x.rxQueue ∧ (x.record valid).darkTimer = x.darkTimer
    ∧ (x.record valid).carrier = x.carrier ∧ (x.record valid).decoding = x.decoding := by
  unfold Scr.record
  split
  · exact ⟨rfl, rfl, rfl, rfl⟩
  · split
    · split <;> exact ⟨rfl, rfl, rfl, rfl⟩
    · exact ⟨rfl, rfl, rfl, rfl⟩
  · dsimp only
    split <;> exact ⟨rfl, rfl, rfl, rfl⟩

/-- The table of R7, state by state. -/
theorem record_dark (x : Scr) (valid : Bool) (h : x.channel = .dark) : x.record valid = x := by simp only [Scr.record, h]

theorem record_seeking_invalid (x : Scr) (h : x.channel = .seeking) : x.record false = { x with goodRun := 0 } := by
  simp only [Scr.record, h, Bool.false_eq_true, if_false]

theorem record_seeking_valid (x : Scr) (h : x.channel = .seeking) : x.record true =
    if 7 ≤ x.goodRun then { x with channel := .aligned, goodRun := 8, history := [] } else { x with goodRun := x.goodRun + 1 } := by
  simp only [Scr.record, h, if_true, Config.goodRunTarget, Nat.reduceLeDiff]

theorem record_aligned (x : Scr) (valid : Bool) (h : x.channel = .aligned) : x.record valid =
    if 6 ≤ (lastN 16 (x.history ++ [valid])).count false
    then { x with channel := .seeking, goodRun := 0, history := lastN 16 (x.history ++ [valid]) }
    else { x with history := lastN 16 (x.history ++ [valid]) } := by
  have hcount : ∀ l : List Bool, l.countP (fun v => !v) = l.count false := fun l => by
    rw [List.count]
    congr 1
    funext v
    cases v <;> rfl
  simp only [Scr.record, h, hcount, Config.historyDepth, Config.historyLimit]

/-- What the record of an episode makes of channel state, history and good run (R7). -/
theorem record_table (x : Scr) (e : Episode) :
    (x.channel = .dark → (x.record e.isValid).channel = .dark ∧ (x.record e.isValid).history = x.history
        ∧ (x.record e.isValid).goodRun = x.goodRun)
      ∧ (x.channel = .seeking →
          (e = .invalid → (x.record e.isValid).channel = .seeking ∧ (x.record e.isValid).goodRun = 0
            ∧ (x.record e.isValid).history = x.history)
          ∧ (e ≠ .invalid → x.goodRun < 7 → (x.record e.isValid).channel = .seeking
            ∧ (x.record e.isValid).goodRun = x.goodRun + 1 ∧ (x.record e.isValid).history = x.history)
          ∧ (e ≠ .invalid → 7 ≤ x.goodRun → (x.record e.isValid).channel = .aligned ∧ (x.record e.isValid).history = []))
      ∧ (x.channel = .aligned → ∀ h, h = lastN 16 (x.history ++ [e.isValid]) → (x.record e.isValid).history = h
          ∧ (6 ≤ h.count false → (x.record e.isValid).channel = .seeking ∧ (x.record e.isValid).goodRun = 0)
          ∧ (h.count false < 6 → (x.record e.isValid).channel = .aligned)) := by
  refine ⟨fun hs => ?_, fun hs => ⟨fun hi => ?_, fun hv hl => ?_, fun hv hl => ?_⟩, fun hs h hlast => ?_⟩
  · rw [record_dark x _ hs]
    exact ⟨hs, rfl, rfl⟩
  · have hf : e.isValid = false := by rw [hi]; rfl
    rw [hf, record_seeking_invalid x hs]
    exact ⟨hs, rfl, rfl⟩
  · rw [(isValid_iff e).2 hv, record_seeking_valid x hs, if_neg (Nat.not_le.2 hl)]
    exact ⟨hs, rfl, rfl⟩
  · rw [(isValid_iff e).2 hv, record_seeking_valid x hs, if_pos hl]
    exact ⟨rfl, rfl⟩
  · rw [record_aligned x _ hs, ← hlast]
    split
    · exact ⟨rfl, fun _ => ⟨rfl, rfl⟩, fun hn => by omega⟩
    · exact ⟨rfl, fun hn => absurd hn ‹_›, fun _ => hs⟩

/-- Settles O14: the record of each channel state, which the routing that follows leaves. -/
theorem episodeOutcomesMoveTheChannel : Obligations.EpisodeOutcomesMoveTheChannel := by
  intro s levels hd
  refine ⟨_, exec_episodeEnd s levels hd, ?_⟩
  generalize classifyLine levels = e
  obtain ⟨hdark, hseeking, haligned⟩ := record_table { s.scr with decoding := false } e
  obtain ⟨-, hkt, hkc, hkd⟩ := record_keeps { s.scr with decoding := false } e.isValid
  generalize ({ s.scr with decoding := false } : Scr).record e.isValid = x at *
  obtain ⟨hc, hh, hg, ht, hca, hde⟩ := routeEpisode_counts e (setChannel x s)
  rw [setChannel_scr] at hc hh hg ht hca hde
  rw [hc, hh, hg, ht, hca, hde]
  refine ⟨hkc, hkt, hkd, fun hn => routeEpisode_shown _ _ _ (setChannel_shows x s hn), hdark, hseeking, fun hs h hlast => ?_⟩
  refine haligned hs h (hlast.trans ?_)
  have hv : decide (e ≠ .invalid) = e.isValid := by cases e <;> rfl
  rw [hv, lastN, List.length_append]
  rfl

end Sys2Proof.Machine
end

section
/-! # A frame sent is a frame heard: Manchester code, delimiter, layouts, CRC -/

namespace Sys2Proof.Machine

/-! ## The line (R1, R2, R4) -/

/-- The Manchester code of bits carries those bits (R1). -/
theorem manchesterBits_manchester (bits : List Bool) : manchesterBits (manchester bits) = bits := by
  induction bits with
  | nil => rfl
  | cons b bits ih =>
    have hne : b ≠ !b := by cases b <;> decide
    show manchesterBits (b :: (!b) :: manchester bits) = b :: bits
    rw [manchesterBits, if_neg hne, ih]

/-- A byte is spelled by its bits. -/
theorem byteOf_byteBits (b : Byte) :
    byteOf (b.getLsbD 7) (b.getLsbD 6) (b.getLsbD 5) (b.getLsbD 4) (b.getLsbD 3) (b.getLsbD 2) (b.getLsbD 1) (b.getLsbD 0) = b := by
  revert b
  decide

/-- Whole bytes are read from their bits (00 Conventions). -/
theorem bytesOf_bitsOf (bytes : List Byte) : bytesOf (bitsOf bytes) = bytes := by
  induction bytes with
  | nil => rfl
  | cons b bytes ih =>
    show byteOf (b.getLsbD 7) (b.getLsbD 6) (b.getLsbD 5) (b.getLsbD 4) (b.getLsbD 3) (b.getLsbD 2) (b.getLsbD 1) (b.getLsbD 0)
      :: bytesOf (bitsOf bytes) = b :: bytes
    rw [byteOf_byteBits, ih]

/-- In preamble and delimiter no run of eight bits before the delimiter is the delimiter (R2, R4). -/
theorem afterDelimiter_preamble (rest : List Bool) :
    afterDelimiter 25 (preambleBits ++ (byteBits delimiter ++ rest)) = some rest := rfl

/-- An episode on the line of a frame is classified by the bytes after the delimiter (R4, R5). -/
theorem classifyLine_lineBits (bytes : List Byte) :
    classifyLine (manchester (lineBits (delimiter :: bytes))) = classifyBytes bytes := by
  have hl : lineBits (delimiter :: bytes) = preambleBits ++ (byteBits delimiter ++ bitsOf bytes) := rfl
  rw [classifyLine, manchesterBits_manchester, classifyEpisode, hl, afterDelimiter_preamble]
  exact congrArg classifyBytes (bytesOf_bitsOf bytes)

/-! ## Bytes and fields (R185) -/

@[simp] theorem toBytes_length (k n : Nat) : (toBytes k n).length = k := by
  induction k with
  | zero => rfl
  | succ k ih => simp [toBytes, ih]

theorem byte_toNat (n : Nat) (h : n < 256) : (byte n).toNat = n := by
  simp only [byte, BitVec.toNat_ofNat]
  exact Nat.mod_eq_of_lt h

/-- A number read from bytes: what a prefix spells counts 256 for each byte that follows. -/
theorem foldl_bytes (bytes : List Byte) (a : Nat) :
    bytes.foldl (fun acc b => acc * 256 + b.toNat) a = a * 256 ^ bytes.length + ofBytes bytes := by
  induction bytes generalizing a with
  | nil => simp [ofBytes]
  | cons b bytes ih =>
    simp only [ofBytes, List.foldl_cons, List.length_cons, ih (a * 256 + b.toNat), ih (0 * 256 + b.toNat)]
    ring

/-- The bytes of a number spell it, up to the bytes that are not sent (R185). -/
theorem ofBytes_toBytes (k n : Nat) : ofBytes (toBytes k n) = n % 256 ^ k := by
  induction k with
  | zero => simp [toBytes, ofBytes, Nat.mod_one]
  | succ k ih =>
    have hb : (BitVec.ofNat 8 (n / 256 ^ k)).toNat = n / 256 ^ k % 256 := by simp
    rw [toBytes, ofBytes, List.foldl_cons, foldl_bytes, toBytes_length, ih, hb, Nat.pow_succ, Nat.mod_mul]
    ring

/-- A field of `k` bytes is read from where it begins. -/
theorem field_toBytes (k n : Nat) (rest : List Byte) (h : n < 256 ^ k) : field (toBytes k n ++ rest) 0 k = n := by
  have hs : slice (toBytes k n ++ rest) 0 k = toBytes k n := by
    simp only [slice, List.drop_zero]
    exact List.take_left' (toBytes_length k n)
  rw [field, hs, ofBytes_toBytes, Nat.mod_eq_of_lt h]

/-- Bytes taken from after a block are bytes of what follows the block. -/
theorem slice_append (a rest : List Byte) (i m : Nat) (h : a.length ≤ i) : slice (a ++ rest) i m = slice rest (i - a.length) m := by
  rw [slice, List.drop_append, List.drop_eq_nil_of_le h, List.nil_append, slice]

theorem slice_whole (a rest : List Byte) (n : Nat) (h : a.length = n) : slice (a ++ rest) 0 n = a := List.take_left' h

/-- A field that begins after a block of bytes is a field of what follows the block. -/
theorem field_append (a rest : List Byte) (i m : Nat) (h : a.length ≤ i) : field (a ++ rest) i m = field rest (i - a.length) m := by
  rw [field, slice_append a rest i m h, field]

/-- A field of `k` bytes passed over, and a byte passed over. -/
theorem field_past_toBytes (k n : Nat) (rest : List Byte) (i m : Nat) (h : k ≤ i) :
    field (toBytes k n ++ rest) i m = field rest (i - k) m := by
  rw [field_append _ _ _ _ ((toBytes_length k n).trans_le h), toBytes_length]

theorem field_last_toBytes (k n : Nat) (h : n < 256 ^ k) : field (toBytes k n) 0 k = n := by
  simpa using field_toBytes k n [] h

/-! ## The layouts of R187 -/

/-- A pair is read back from its three bytes. -/
theorem decodePair_encodePair (p : Pair) (h : p.fits) : decodePair (encodePair p) = p := by
  obtain ⟨hs, hd, hc⟩ := h
  obtain ⟨s, d, c⟩ := p
  simp only [decodePair, encodePair, field_cons _ _ 0, field_cons _ _ 1, field_one, byte_toNat _ hs, byte_toNat _ hd, byte_toNat _ hc]

theorem encodePair_length (p : Pair) : (encodePair p).length = 3 := rfl

theorem decodePairs_flatMap (ps : List Pair) (h : ∀ p ∈ ps, p.fits) : decodePairs ps.length (ps.flatMap encodePair) = ps := by
  induction ps with
  | nil => rfl
  | cons p ps ih =>
    rw [List.flatMap_cons, List.length_cons, decodePairs, List.take_left' (encodePair_length p), List.drop_left' (encodePair_length p),
      decodePair_encodePair p (h p (by simp)), ih fun q hq => h q (by simp [hq])]

/-- Two flags above a number of fourteen bits, apart again (R187). -/
theorem flags_apart (d c : Bool) (n : Nat) (h : n < 2 ^ 14) :
    (d.toNat * 2 ^ 15 + c.toNat * 2 ^ 14 + n) % 2 ^ 14 = n ∧ (d.toNat * 2 ^ 15 + c.toNat * 2 ^ 14 + n).testBit 15 = d
      ∧ (d.toNat * 2 ^ 15 + c.toNat * 2 ^ 14 + n).testBit 14 = c ∧ d.toNat * 2 ^ 15 + c.toNat * 2 ^ 14 + n < 256 ^ 2 := by
  refine ⟨?_, ?_, ?_, ?_⟩
  · cases d <;> cases c <;> simp only [Bool.toNat_true, Bool.toNat_false] <;> omega
  · cases d <;> cases c <;> simp only [Bool.toNat_true, Bool.toNat_false, Nat.testBit_eq_decide_div_mod_eq] <;> simp <;> omega
  · cases d <;> cases c <;> simp only [Bool.toNat_true, Bool.toNat_false, Nat.testBit_eq_decide_div_mod_eq] <;> simp <;> omega
  · cases d <;> cases c <;> simp only [Bool.toNat_true, Bool.toNat_false] <;> omega

theorem encodeLink_length (l : Link) : (encodeLink l).length = 24 := by simp [encodeLink]

/-- A link entry is read back from its 24 bytes. -/
theorem decodeLink_encodeLink (l : Link) (h : l.fits) : decodeLink (encodeLink l) = l := by
  obtain ⟨hd, hn, hno, hla, hco⟩ := h
  obtain ⟨deg, u, nd, noise, lat, cost, dg, cf, lit⟩ := l
  dsimp only at hd hn hno hla hco
  obtain ⟨hmod, h15, h14, hlt⟩ := flags_apart dg cf cost hco
  have hbyte := byte_toNat (deg * 16 + nd) (by omega)
  have hu : u.toNat < 256 ^ 8 := u.isLt
  have hl : lit.toNat < 256 ^ 8 := lit.isLt
  have hn3 : noise < 256 ^ 3 := hno
  have hl2 : lat < 256 ^ 2 := hla
  have e : encodeLink ⟨deg, u, nd, noise, lat, cost, dg, cf, lit⟩ = byte (deg * 16 + nd) :: (toBytes 8 u.toNat ++ (toBytes 3 noise
      ++ (toBytes 2 lat ++ (toBytes 2 (dg.toNat * 2 ^ 15 + cf.toNat * 2 ^ 14 + cost) ++ toBytes 8 lit.toNat)))) := by
    simp [encodeLink]
  simp only [decodeLink, e, field_one, field_cons _ _ 0, field_cons _ _ 8, field_cons _ _ 11, field_cons _ _ 13, field_cons _ _ 15,
    hbyte, field_toBytes, field_last_toBytes, field_past_toBytes, hu, hl, hn3, hl2, hlt, Nat.reduceLeDiff, Nat.reduceSub, hmod, h15, h14]
  simp
  omega

theorem decodeLinks_flatMap (ls : List Link) (h : ∀ l ∈ ls, l.fits) : decodeLinks ls.length (ls.flatMap encodeLink) = ls := by
  induction ls with
  | nil => rfl
  | cons l ls ih =>
    rw [List.flatMap_cons, List.length_cons, decodeLinks, List.take_left' (encodeLink_length l), List.drop_left' (encodeLink_length l),
      decodeLink_encodeLink l (h l (by simp)), ih fun k hk => h k (by simp [hk])]

/-- The 20 bytes of a REPORT before its count of link entries. -/
def reportHead (r : Report) : List Byte :=
  toBytes 2 r.seq.toNat ++ ([byte r.domain, byte r.impaired.toNat] ++ (toBytes 3 r.passNoise ++ ([byte r.regens]
    ++ (toBytes 8 r.capability.toNat ++ r.missed.map byte))))

theorem encodeReport_eq (r : Report) : encodeReport r = reportHead r ++ (byte r.links.length :: r.links.flatMap encodeLink) := by
  simp [encodeReport, reportHead]

theorem reportHead_length (r : Report) (h : r.missed.length = 4) : (reportHead r).length = 20 := by
  simp [reportHead, h]

theorem flatMap_length {α : Type} (f : α → List Byte) (n : Nat) (h : ∀ x, (f x).length = n) (l : List α) :
    (l.flatMap f).length = n * l.length := by
  induction l with
  | nil => rfl
  | cons x l ih => simp [h x, ih, Nat.mul_add, Nat.add_comm]

theorem encodeReport_length (r : Report) (h : r.missed.length = 4) : (encodeReport r).length = 21 + 24 * r.links.length := by
  rw [encodeReport_eq, List.length_append, reportHead_length r h, List.length_cons, flatMap_length _ 24 encodeLink_length]
  omega

theorem map_byte_toNat (l : List Nat) (h : ∀ n ∈ l, n < 256) : (l.map byte).map BitVec.toNat = l := by
  rw [List.map_map]
  exact (List.map_congr_left fun n hn => byte_toNat n (h n hn)).trans (List.map_id l)

/-- The count of link entries stands after the 20 bytes. -/
theorem encodeReport_count (r : Report) (h : r.fits) : field (encodeReport r) 20 1 = r.links.length := by
  obtain ⟨-, -, -, hm, -, hc, -⟩ := h
  rw [encodeReport_eq, field_append _ _ _ _ (reportHead_length r hm).le, reportHead_length r hm, field_one, byte_toNat _ (by omega)]

/-- A REPORT body is read back, field by field (R187). -/
theorem decodeReport_encodeReport (r : Report) (h : r.fits) : decodeReport (encodeReport r) = r := by
  have hcount := encodeReport_count r h
  obtain ⟨hd, hp, hg, hm, hmb, hc, hl⟩ := h
  have hlinks : decodeLinks r.links.length ((encodeReport r).drop 21) = r.links := by
    have hdrop : (encodeReport r).drop 21 = r.links.flatMap encodeLink := by
      have e : encodeReport r = (reportHead r ++ [byte r.links.length]) ++ r.links.flatMap encodeLink := by
        rw [encodeReport_eq, List.append_assoc]
        rfl
      rw [e]
      exact List.drop_left' (by simp [reportHead_length r hm])
    rw [hdrop, decodeLinks_flatMap r.links hl]
  have hseq : r.seq.toNat < 256 ^ 2 := r.seq.isLt
  have hcap : r.capability.toNat < 256 ^ 8 := r.capability.isLt
  have hpn : r.passNoise < 256 ^ 3 := hp
  have himp : (byte r.impaired.toNat).toNat.testBit 0 = r.impaired := by cases r.impaired <;> rfl
  have hmissed : (slice (encodeReport r) 16 4).map BitVec.toNat = r.missed := by
    have e : encodeReport r = (toBytes 2 r.seq.toNat ++ ([byte r.domain, byte r.impaired.toNat] ++ (toBytes 3 r.passNoise
        ++ ([byte r.regens] ++ toBytes 8 r.capability.toNat)))) ++ (r.missed.map byte ++ (byte r.links.length :: r.links.flatMap encodeLink)) := by
      simp [encodeReport_eq, reportHead]
    rw [e, slice_append _ _ _ _ (by simp)]
    simp only [List.length_append, toBytes_length, List.length_cons, List.length_nil, Nat.reduceAdd, Nat.sub_self]
    rw [slice_whole _ _ 4 (by simp [hm]), map_byte_toNat _ hmb]
  rw [decodeReport, hcount, hlinks, hmissed]
  simp only [encodeReport_eq, reportHead, List.append_assoc, List.cons_append, List.nil_append, field_toBytes, field_past_toBytes,
    field_cons _ _ 0, field_cons _ _ 1, field_cons _ _ 3, field_cons _ _ 4, field_cons _ _ 5, field_one, hseq, hcap, hpn, Nat.reduceLeDiff, Nat.reduceSub, byte_toNat _ hd,
    byte_toNat _ hg, himp, BitVec.ofNat_toNat, BitVec.setWidth_eq]

/-- The body of a frame, where it fits its layout, is read back from kind, length and bytes (R5, R187). -/
theorem decodeBody_encodeBody (b : Body) (h : b.fits) : decodeBody (kindOf b) (encodeBody b).length (encodeBody b) = some b := by
  cases b with
  | claim r m =>
    obtain ⟨hr, hm⟩ := h
    simp [decodeBody, kindOf, encodeBody, field_cons _ _ 0, field_one, byte_toNat _ hr, byte_toNat _ hm]
  | report r =>
    have hc := encodeReport_count r h
    obtain ⟨-, -, -, hm, -, hl, -⟩ := id h
    simp [decodeBody, kindOf, encodeBody, hc, encodeReport_length r hm, hl, decodeReport_encodeReport r h]
  | intent i p ps =>
    obtain ⟨hi, hp, h1, h16, hf⟩ := h
    have hlen : (3 + 3 * ps.length) = (encodeBody (.intent i p ps)).length := by
      simp [encodeBody, flatMap_length _ 3 encodePair_length]
      omega
    rw [← hlen]
    simp [decodeBody, kindOf, encodeBody, field_cons _ _ 0, field_cons _ _ 1, field_one, byte_toNat _ hi, byte_toNat _ hp,
      byte_toNat ps.length (by omega), h1, h16, decodePairs_flatMap ps hf]
  | release i =>
    have hi : i < 256 := h
    simp [decodeBody, kindOf, encodeBody, field_one, byte_toNat _ hi]

/-- A frame's body is no longer than its length field can say. -/
theorem encodeBody_length_lt (b : Body) (h : b.fits) : (encodeBody b).length < 256 ^ 2 := by
  cases b with
  | claim r m => simp [encodeBody]
  | report r =>
    obtain ⟨-, -, -, hm, -, hl, -⟩ := h
    simp only [encodeBody, encodeReport_length r hm]
    omega
  | intent i p ps =>
    obtain ⟨-, -, -, h16, -⟩ := h
    simp only [encodeBody, List.length_append, List.length_cons, List.length_nil, flatMap_length _ 3 encodePair_length]
    omega
  | release i => simp [encodeBody]

/-- The 13 header bytes of a frame (R2, R187). -/
def frameHead (f : Frame) : List Byte :=
  byte (kindOf f.body) :: (toBytes 2 (encodeBody f.body).length ++ (toBytes 8 f.uid.toNat ++ [byte f.number, byte f.lifetime]))

theorem encodeContent_eq (f : Frame) : encodeContent f = frameHead f ++ encodeBody f.body := by simp [encodeContent, frameHead]

theorem frameHead_length (f : Frame) : (frameHead f).length = 13 := by simp [frameHead]

/-- A frame that fits its layout is heard as that frame (R5, R187). -/
theorem classifyBytes_encodeFrame (f : Frame) (h : f.fits) : classifyBytes (encodeFrame f) = .valid (encodeFrame f) f := by
  obtain ⟨hn, hl, hb⟩ := h
  have hblen := encodeBody_length_lt f.body hb
  have hclen : (encodeContent f).length = 13 + (encodeBody f.body).length := by
    rw [encodeContent_eq, List.length_append, frameHead_length]
  have hflen : (encodeFrame f).length = 13 + (encodeBody f.body).length + 2 := by
    rw [encodeFrame, List.length_append, hclen, toBytes_length]
  have hcrc : (crc16 (encodeContent f)).toNat < 256 ^ 2 := (crc16 (encodeContent f)).isLt
  have hu : f.uid.toNat < 256 ^ 8 := f.uid.isLt
  have hk : kindOf f.body < 256 := by cases f.body <;> simp [kindOf]
  have e : encodeFrame f = byte (kindOf f.body) :: (toBytes 2 (encodeBody f.body).length ++ (toBytes 8 f.uid.toNat
      ++ (byte f.number :: byte f.lifetime :: (encodeBody f.body ++ toBytes 2 (crc16 (encodeContent f)).toNat)))) := by
    simp [encodeFrame, encodeContent]
  have flen : field (encodeFrame f) 1 2 = (encodeBody f.body).length := by
    rw [e, field_cons _ _ 0, field_toBytes _ _ _ hblen]
  have fkind : field (encodeFrame f) 0 1 = kindOf f.body := by rw [e, field_one, byte_toNat _ hk]
  have fuid : field (encodeFrame f) 3 8 = f.uid.toNat := by
    rw [e, field_cons _ _ 2, field_past_toBytes _ _ _ _ _ (Nat.le_refl 2), field_toBytes _ _ _ hu]
  have fnum : field (encodeFrame f) 11 1 = f.number := by
    rw [e, field_cons _ _ 10, field_past_toBytes _ _ _ _ _ (by decide), field_past_toBytes _ _ _ _ _ (by decide), field_one,
      byte_toNat _ hn]
  have flife : field (encodeFrame f) 12 1 = f.lifetime := by
    rw [e, field_cons _ _ 11, field_past_toBytes _ _ _ _ _ (by decide), field_past_toBytes _ _ _ _ _ (by decide), field_cons _ _ 0,
      field_one, byte_toNat _ hl]
  have hbody : slice (encodeFrame f) 13 (encodeBody f.body).length = encodeBody f.body := by
    rw [encodeFrame, encodeContent_eq, List.append_assoc, slice_append _ _ _ _ (frameHead_length f).le, frameHead_length,
      slice_whole _ _ _ rfl]
  have fcrc : field (encodeFrame f) (13 + (encodeBody f.body).length) 2 = (crc16 (encodeContent f)).toNat := by
    rw [encodeFrame, field_append _ _ _ _ hclen.le, hclen, Nat.sub_self, field_last_toBytes _ _ hcrc]
  have htake : (encodeFrame f).take (13 + (encodeBody f.body).length) = encodeContent f := List.take_left' hclen
  have hall : (encodeFrame f).take (13 + (encodeBody f.body).length + 2) = encodeFrame f := List.take_of_length_le hflen.le
  simp only [classifyBytes, flen, hflen, Nat.lt_irrefl, if_false, fkind, hbody, decodeBody_encodeBody f.body hb, fcrc, htake, if_true,
    hall, fuid, fnum, flife, BitVec.ofNat_toNat, BitVec.setWidth_eq]

/-- The levels of a frame on the line are classified as that frame, with its bytes (R1 to R5). -/
theorem classifyLine_onLine (f : Frame) (h : f.fits) : classifyLine f.onLine = .valid (encodeFrame f) f :=
  (classifyLine_lineBits (encodeFrame f)).trans (classifyBytes_encodeFrame f h)

/-- What routing makes of a peer's frame in a state that takes frames (R5, R6). -/
theorem routeEpisode_peer (bytes : List Byte) (f : Frame) (s : State) (h : f.uid ≠ s.ownUid) :
    routeEpisode (.valid bytes f) s = receiveFrame f s := if_neg h

theorem receiveFrame_room (f : Frame) (s : State) (ha : s.active = true) (h : s.scr.rxQueue.length < 8) :
    receiveFrame f s = { s with scr := { s.scr with rxQueue := s.scr.rxQueue ++ [f] } } := by
  rw [receiveFrame, if_pos ha]
  exact if_pos h

theorem receiveFrame_full (f : Frame) (s : State) (ha : s.active = true) (h : 8 ≤ s.scr.rxQueue.length) :
    receiveFrame f s = raise .rxDrop s := by
  rw [receiveFrame, if_pos ha]
  exact if_neg (Nat.not_lt.2 h)

/-- Settles O13: the frame is classified as itself, recorded, and queued where there is room. -/
theorem frameSentIsFrameHeard : Obligations.FrameSentIsFrameHeard := by
  intro s f hf hd ha hu
  have hx := exec_episodeEnd s f.onLine hd
  rw [classifyLine_onLine f hf] at hx
  obtain ⟨hq, -, -, hdec⟩ := record_keeps { s.scr with decoding := false } true
  generalize hrec : ({ s.scr with decoding := false } : Scr).record true = x at hq hdec
  have hx : exec (.episodeEnd f.onLine) s = .next (routeEpisode (.valid (encodeFrame f) f) (setChannel x s)) := hrec ▸ hx
  have hscr := setChannel_scr x s
  have hact : (setChannel x s).active = true := (active_congr (congrArg Dir.station (setChannel_dir x s))).trans ha
  have hown : f.uid ≠ (setChannel x s).ownUid := by
    rw [State.ownUid, setChannel_psr]
    exact hu
  rw [routeEpisode_peer _ f _ hown] at hx
  refine ⟨fun hl => ?_, fun hl => ?_⟩
  · rw [receiveFrame_room f _ hact (by rw [hscr, hq]; exact hl)] at hx
    refine ⟨_, hx, ?_, ?_⟩
    · simp only [hscr, hq]
    · simp only [hscr, hdec]
  · rw [receiveFrame_full f _ hact (by rw [hscr, hq]; exact hl)] at hx
    exact ⟨_, hx, by rw [raise_scr, hscr, hq], (raise_shows _ _ _).2 (.inl rfl)⟩

/-! # The echo check (R5, R12) -/

theorem routeEpisode_own (bytes : List Byte) (f : Frame) (s : State) (v : Service) (hu : f.uid = s.ownUid)
    (hs : s.sct.service = some v) : routeEpisode (.valid bytes f) s = decideAttempt (v.bytes == delimiter :: bytes) s := by
  simp only [routeEpisode, if_pos hu, hs]

/-- A deciding episode by the phase of the frame in service (R12). -/
theorem decideAttempt_send (c : Bool) (s : State) (v : Service) (hs : s.sct.service = some v) (hp : v.phase = .send none) :
    decideAttempt c s = setService (some { v with phase := .send (some c) }) s := by
  simp only [decideAttempt, hs, hp]

theorem decideAttempt_echo (c : Bool) (s : State) (v : Service) (n : Nat) (hs : s.sct.service = some v) (hp : v.phase = .echo n) :
    decideAttempt c s = resolveAttempt c v s := by
  simp only [decideAttempt, hs, hp]

/-- In WAIT, and once the attempt is decided, no episode decides. -/
theorem decideAttempt_closed (c : Bool) (s : State) (v : Service) (hs : s.sct.service = some v)
    (hp : (∃ gap, v.phase = .wait gap) ∨ ∃ d, v.phase = .send (some d)) : decideAttempt c s = s := by
  rcases hp with ⟨gap, hp⟩ | ⟨d, hp⟩ <;> simp only [decideAttempt, hs, hp]

/-- A completed attempt takes the frame out of service and hands over nothing. -/
theorem completeAttempt_sct (v : Service) (s : State) : (completeAttempt v s).sct = { s.sct with service := none } := by
  unfold completeAttempt
  dsimp only
  split
  · rw [claimCompleted_sct]
    rfl
  · rw [completionReport_sct]
    rfl
  · rfl

/-- An abandoned frame leaves service, and TX_ABANDON shows. -/
theorem failAttempt_last (v : Service) (s : State) (h : 7 ≤ v.attempts) :
    (failAttempt v s).sct.service = none ∧ (failAttempt v s).shows .txAbandon := by
  have hr := reportNotSent_steady v.body (raise .txAbandon s.outOfService)
  rw [failAttempt_abandons v s h]
  exact ⟨hr.service, hr.shown _ ((raise_shows _ _ _).2 (.inl rfl))⟩

/-- A failed attempt below eight leaves the frame in WAIT with a backoff in its range. -/
theorem failAttempt_again (v : Service) (s : State) (h : v.attempts < 7) : ∃ b, b < 2 ^ min (v.attempts + 1) 6
    ∧ (failAttempt v s).sct.service = some { v with
        attempts := v.attempts + 1
        backoff := b
        phase := .wait (if s.scr.carrier || s.sct.mute then none else some (1 + b)) } :=
  ⟨_, drawBackoff_lt s _, by rw [failAttempt_waits v s h]⟩

/-- What the record of an episode leaves of the state (R7, R8): everything the echo check reads. -/
theorem setChannel_leaves (x : Scr) (s : State) : (setChannel x s).sct.service = s.sct.service
    ∧ (setChannel x s).sct.mute = s.sct.mute ∧ (setChannel x s).dir = s.dir ∧ (setChannel x s).slots = s.slots
    ∧ (setChannel x s).ownUid = s.ownUid := by
  have hs : ∀ c u, Steady u (orgChangeIf c u) := orgChangeIf_steady
  refine ⟨?_, ?_, setChannel_dir x s, setChannel_slots x s, by rw [State.ownUid, setChannel_psr]; rfl⟩
  · exact (hs _ _).service.trans (by rw [raiseIf_sct])
  · exact (hs _ _).mute.trans (by rw [raiseIf_sct])

/-- The echo of the frame in service, with the check open in ECHO, completes it (R12, R27, R149). -/
theorem completeAttempt_outcome (s : State) (v : Service) (x : Scr) (hq : x.rxQueue = s.scr.rxQueue) :
    (completeAttempt v (setChannel x s)).sct.service = none ∧ (completeAttempt v (setChannel x s)).scr.rxQueue = s.scr.rxQueue
      ∧ (s.dir.station ≠ .member → (completeAttempt v (setChannel x s)).sct.queue = s.sct.queue)
      ∧ (∀ c m, v.body = .claim c m → s.dir.station = .joining → s.dir.candidate = some c →
          (completeAttempt v (setChannel x s)).dir = { s.dir with roundTimer := some 40 })
      ∧ (∀ c m, v.body = .claim c m → s.dir.station = .joining → s.dir.candidate ≠ some c →
          (completeAttempt v (setChannel x s)).dir = s.dir)
      ∧ (∀ i y ps p r, v.body = .intent i p ps → s.slot i = some y → y.intent = .claiming p ps none r →
          (completeAttempt v (setChannel x s)).slot i = some { y with intent := .claiming p ps (some 80) r }) := by
  obtain ⟨-, -, hdir, hslots, -⟩ := setChannel_leaves x s
  refine ⟨?_, ?_, fun hm => ?_, fun c m hb hj hc => ?_, fun c m hb hj hc => ?_, fun i y ps p r hb hy hi => ?_⟩
  · rw [completeAttempt_sct]
  · rw [completeAttempt_scr, setChannel_scr, hq]
  · rw [completeAttempt_sct, setChannel_outside x s hm, raiseIf_sct]
  · have hcond : (setChannel x s).outOfService.dir.station = .joining ∧ (setChannel x s).outOfService.dir.candidate = some c := by
      show (setChannel x s).dir.station = _ ∧ (setChannel x s).dir.candidate = _
      rw [hdir]
      exact ⟨hj, hc⟩
    rw [completeAttempt_claim v _ c m hb, claimCompleted_eq, if_pos hcond, ← hdir]
    rfl
  · have hcond : ¬ ((setChannel x s).outOfService.dir.station = .joining ∧ (setChannel x s).outOfService.dir.candidate = some c) := by
      show ¬ ((setChannel x s).dir.station = _ ∧ (setChannel x s).dir.candidate = _)
      rw [hdir]
      exact fun h => hc h.2
    rw [completeAttempt_claim v _ c m hb, claimCompleted_eq, if_neg hcond, ← hdir]
    rfl
  · have hy' : (setChannel x s).outOfService.slot i = some y := by
      show (setChannel x s).slots[i]? = some y
      rw [hslots]
      exact hy
    rw [completeAttempt_intent v _ i p ps hb, completionReport_starts i p r ps _ y hy' hi]
    obtain ⟨hi', -⟩ := List.getElem?_eq_some_iff.1 hy'
    exact List.getElem?_set_self hi'

/-- Settles O19: the own frame that is heard decides the attempt for it, any other own frame and an invalid episode against it. -/
theorem echoCompletesTheFrameInService : Obligations.EchoCompletesTheFrameInService := by
  refine ⟨fun s v f hd hf hu hs hb => ?_, fun s v levels hd hs => ?_⟩
  · have hx := exec_episodeEnd s f.onLine hd
    rw [classifyLine_onLine f hf] at hx
    obtain ⟨hq, -, -, -⟩ := record_keeps { s.scr with decoding := false } (Episode.valid (encodeFrame f) f).isValid
    generalize ({ s.scr with decoding := false } : Scr).record (Episode.valid (encodeFrame f) f).isValid = x at hx hq
    obtain ⟨hservice, -, -, -, hown⟩ := setChannel_leaves x s
    have heq : (v.bytes == delimiter :: encodeFrame f) = true := by rw [hb]; exact beq_self_eq_true _
    rw [routeEpisode_own _ f _ v (hu.trans hown.symm) (hservice.trans hs), heq] at hx
    refine ⟨fun hp => ?_, fun n hp => ?_⟩
    · rw [decideAttempt_send true _ v (hservice.trans hs) hp] at hx
      exact ⟨_, hx, rfl⟩
    · rw [decideAttempt_echo true _ v n (hservice.trans hs) hp] at hx
      exact ⟨_, hx, completeAttempt_outcome s v x hq⟩
  · refine ⟨_, exec_episodeEnd s levels hd, ?_⟩
    obtain ⟨-, -, hcar, -⟩ := record_keeps { s.scr with decoding := false } (classifyLine levels).isValid
    generalize ({ s.scr with decoding := false } : Scr).record (classifyLine levels).isValid = x at *
    obtain ⟨hservice, hmute, -, -, hown⟩ := setChannel_leaves x s
    have hsv := hservice.trans hs
    have hscr := setChannel_scr x s
    generalize setChannel x s = u at *
    have hpeer : ∀ bytes f, f.uid ≠ s.ownUid → (routeEpisode (.valid bytes f) u).sct.service = some v := fun bytes f hu => by
      rw [routeEpisode_peer bytes f u (hown ▸ hu)]
      exact (receiveFrame_steady f u).service.trans hsv
    refine ⟨fun bytes f he hu => by rw [he]; exact hpeer bytes f hu, fun hp => ?_, fun hfail => ?_⟩
    · cases he : classifyLine levels with
      | invalid => exact (congrArg (·.sct.service) (decideAttempt_closed false u v hsv hp)).trans hsv
      | valid bytes f =>
        by_cases hu : f.uid = s.ownUid
        · rw [routeEpisode_own bytes f u v (hu.trans hown.symm) hsv, decideAttempt_closed _ u v hsv hp]
          exact hsv
        · exact hpeer bytes f hu
    · have hroute : routeEpisode (classifyLine levels) u = decideAttempt false u := by
        rcases hfail with he | ⟨bytes, f, he, hu, hb⟩
        · rw [he]
          rfl
        · rw [he, routeEpisode_own bytes f u v (hu.trans hown.symm) hsv, beq_eq_false_iff_ne.2 hb]
      rw [hroute]
      refine ⟨fun hp => ?_, fun n hp hl => ?_, fun n hp hl => ?_⟩
      · rw [decideAttempt_send false u v hsv hp]
        rfl
      · rw [decideAttempt_echo false u v n hsv hp]
        have hcarrier : u.scr.carrier = s.scr.carrier := (congrArg Scr.carrier hscr).trans hcar
        rw [← hcarrier, ← hmute]
        exact failAttempt_again v u hl
      · rw [decideAttempt_echo false u v n hsv hp]
        exact failAttempt_last v u hl

end Sys2Proof.Machine
end

section
/-! # Reset, release, and the step on an empty queue -/

namespace Sys2Proof.Machine

/-! ## The laws at reset -/

/-- Every slot of a part just reset is FREE, with no intent. -/
theorem reset_slot (i : Nat) (x : Slot) (h : State.reset.slot i = some x) : x = { state := .free, intent := .none } :=
  List.eq_of_mem_replicate (List.mem_of_getElem? h)

theorem reset_slotState (i : Nat) (st : SlotState) (h : State.reset.slotState i = some st) : st = .free := by
  unfold State.slotState at h
  split at h
  · rename_i x hx
    cases h
    rw [reset_slot i x hx]
  · cases h

theorem reset_entry (n : Nat) : State.reset.entry n = none := place_replicate_none 48 n

theorem reset_sized : State.reset.sized := (released_keepsLaws _).sized (heldInReset_sized _ _ (by decide))

theorem reset_bounded : State.reset.bounded := (released_keepsLaws _).bounded (heldInReset_bounded _ _)

theorem reset_lineLaw : State.reset.lineLaw := (released_keepsLaws _).lines (heldInReset_lineLaw _ _)

theorem reset_tdbLaw : State.reset.tdbLaw := deviceReset_tdb_law

theorem reset_directoryLaw : State.reset.directoryLaw := by
  refine ⟨fun n _ _ _ h => ?_, fun n _ h => ?_, fun n _ _ h => ?_, fun _ h => (List.not_mem_nil h).elim, rfl, fun _ h => by cases h⟩ <;>
    cases (reset_entry n).symm.trans h

theorem reset_slotLaw : State.reset.slotLaw := by
  refine ⟨fun i _ a _ _ ha _ ht => ?_, List.nodup_nil, fun i => ⟨fun h => (List.not_mem_nil h).elim, ?_⟩, Nat.zero_le _,
    fun i => Iff.intro (fun h => nomatch h) ?_⟩
  · rw [reset_slotState i a ha] at ht
    cases ht
  · rintro ⟨job, h⟩
    cases reset_slotState i _ h
  · rintro ⟨job, epoch, h⟩
    cases reset_slotState i _ h

/-- No intent stands in a part just reset. -/
theorem reset_stands (i : Nat) (x : Slot) : ¬ State.reset.standsIn i x := fun ⟨hx, hs⟩ => by
  rw [reset_slot i x hx] at hs
  cases hs

theorem reset_intentLaw : State.reset.intentLaw :=
  ⟨rfl, fun i x hx hn => absurd (by rw [reset_slot i x hx]) hn, fun i x h => absurd h (reset_stands i x),
    fun i _ x _ _ h => absurd h (reset_stands i x)⟩

theorem reset_valuesInRange : State.reset.valuesInRange := by
  refine ⟨by decide, by decide, by decide, fun x hx => ?_, fun n r h => ?_, fun n r h => ?_, fun _ h => (List.not_mem_nil h).elim⟩
  · rw [List.eq_of_mem_replicate (show x ∈ List.replicate 8 SpmDegree.deviceReset from hx)]
    decide
  · cases (place_replicate_none 48 n).symm.trans h
  · cases (place_replicate_none 48 n).symm.trans h

theorem reset_totalsBelowCeilings : State.reset.totalsBelowCeilings :=
  ⟨fun _ h => (List.not_mem_nil h).elim, fun _ h => (List.not_mem_nil h).elim, fun i x hx => by rw [reset_slot i x hx]; trivial⟩

/-- The defaults of a class entry lie in their ranges (R178). -/
theorem defaultClass_inRange (c : Nat) : (defaultClass c).home < 16 ∧ (defaultClass c).budget ≤ 1000000 ∧ (defaultClass c).maxPasses ≤ 15
    ∧ (defaultClass c).maxLatency ≤ 16777215 ∧ (defaultClass c).regenCost ≤ 4095 ∧ (defaultClass c).penalty ≤ 1000000 := by
  unfold defaultClass
  split <;> decide

theorem defaultParams_inRange (store : List StoreWord) : (defaultParams store).inRange := by
  refine ⟨show 0 < 48 by decide, show 0 < 16 by decide, show 1 ≤ 10 by decide, show 10 ≤ 60 by decide, show 1 ≤ 50 by decide,
    show 50 ≤ 255 by decide, show 3 ≤ 30 by decide, show 30 ≤ 255 by decide, fun m hm => ?_, fun c hc => ?_⟩
  · rw [List.eq_of_mem_replicate (show m ∈ List.replicate 8 defaultMonitor from hm)]
    decide
  · obtain ⟨k, -, rfl⟩ := List.mem_map.1 hc
    exact defaultClass_inRange k

theorem reset_pathLaw : State.reset.pathLaw := by
  refine ⟨fun i job epoch r h => ?_, fun i job epoch _ h => ?_, fun i job h => ?_⟩
  · rcases h with h | ⟨why, h⟩ <;> cases reset_slotState i _ h
  · cases reset_slotState i _ h
  · rcases h with h | ⟨epoch, h⟩ <;> cases reset_slotState i _ h

/-- Settles O51: law by law, at the release of the first device reset. -/
theorem lawsHoldAtReset : Obligations.LawsHoldAtReset :=
  ⟨reset_sized, reset_bounded, reset_directoryLaw, reset_slotLaw, reset_intentLaw, reset_lineLaw, reset_valuesInRange,
    reset_totalsBelowCeilings, defaultParams_inRange _, reset_tdbLaw, reset_pathLaw⟩

/-! ## Device reset and release (R184) -/

/-- With no indication set NOTIFY is not asserted, whatever is enabled (R173). -/
theorem notify_of_quiet (s : State) (h : s.ntf.indications = 0) : s.notify = false := by simp [State.notify, h]

/-- Settles O3: the reset values, and the load that the release begins. -/
theorem deviceResetThenReleaseBeginsLoad : Obligations.DeviceResetThenReleaseBeginsLoad := by
  refine ⟨fun s => ⟨State.heldInReset s.psr.store s.pending, rfl, ?_⟩, fun s h => ?_⟩
  · refine ⟨rfl, rfl, rfl, rfl, rfl, rfl, rfl, rfl, rfl, rfl, rfl, rfl, rfl, rfl, rfl, rfl, rfl, rfl, rfl, rfl, rfl, rfl, rfl, rfl,
      rfl, rfl, rfl, rfl, rfl, rfl, rfl, rfl, rfl, rfl, rfl, rfl, rfl, rfl, rfl, rfl, rfl, rfl, rfl, fun first k => ?_, rfl, notify_of_quiet _ rfl, ?_⟩
    · exact if_pos (by simp [State.heldInReset])
    · exact congrArg not (notify_of_quiet _ rfl)
  · exact congrArg Host.Outcome.next (if_pos h)

/-! ## A millisecond (log 14) -/

theorem tickTimer_eq (t : Timer) : tickTimer t = t.map (· - 1) := by cases t <;> rfl

/-- A step with no command waiting. -/
theorem step_idle (s : State) (h : s.pending = []) : step s = .next (tick s) := by simp only [step, h]

/-- The hunt timer of a degree: it runs while the receiver does, and nothing else of the degree moves (R37, R46). -/
theorem degree_tick (x : Degree) (runs : Bool) :
    (x.tick runs).trace = x.trace ∧ (x.tick runs).txWord = x.txWord
      ∧ (∀ n, x.receiver = .hunt n → runs = true → (x.tick runs).receiver = .hunt (n - 1))
      ∧ ((∀ n, x.receiver ≠ .hunt n) ∨ runs = false → x.tick runs = x) := by
  refine ⟨rfl, rfl, fun n hn hr => ?_, fun h => ?_⟩
  · simp only [Degree.tick, hn, hr, if_true]
  · obtain ⟨t, r, w⟩ := x
    cases r with
    | hunt n =>
      rcases h with h | h
      · exact absurd rfl (h n)
      · rw [h]
        rfl
    | idle => rfl
    | found => rfl
    | locked => rfl

theorem receiverRuns_iff (s : State) (x : Degree) : s.receiverRuns x = true ↔ x.trace.hears = true ∧ s.dir.station ≠ .faulted := by
  simp [State.receiverRuns]

/-- Settles O2: block by block, what `tickAll` does. -/
theorem idleStepPassesOneMillisecond : Obligations.IdleStepPassesOneMillisecond := by
  intro s hp
  rw [step_idle s hp]
  refine ⟨fun hr => by rw [tick, live_of_reset _ s hr], fun hr => ⟨tickAll s, by rw [tick, live_of_running _ s hr], hp, hr, rfl, rfl, rfl,
    rfl, rfl, ?_, ?_, ?_, ?_, ?_, ?_, ?_, ?_, ?_⟩⟩
  · simp only [tickAll, Scr.tick, tickTimer_eq, decide_eq_true_eq]
    split <;> rfl
  · simp only [tickAll, Sct.tick]
    refine congrArg (fun v => { s.sct with service := v }) (congrArg (Option.map · s.sct.service) (funext fun v => ?_))
    cases hv : v.phase <;> simp [Service.tick, hv, tickTimer_eq]
  · simp only [tickAll, Dir.tick, tickTimer_eq]
    refine congrArg (fun l => { s.dir with
      entries := l
      roundTimer := if s.sct.mute = true then s.dir.roundTimer else s.dir.roundTimer.map (· - 1)
      noNumberTimer := s.dir.noNumberTimer.map (· - 1) }) (congrArg (List.map · s.dir.entries) (funext fun e => ?_))
    rcases e with - | ⟨u, left⟩ | u <;> rfl
  · intro d x hx
    obtain ⟨ht, hw, hh, hs⟩ := degree_tick x (s.receiverRuns x)
    refine ⟨x.tick (s.receiverRuns x), by simp [tickAll, hx], ht, hw, fun n hn hr hf => ?_, fun h => hs ?_⟩
    · exact hh n hn ((receiverRuns_iff s x).2 ⟨hr, hf⟩)
    · refine h.imp_right fun h => Bool.eq_false_iff.2 fun hr => ?_
      obtain ⟨hr, hf⟩ := (receiverRuns_iff s x).1 hr
      rcases h with h | h
      · rw [h] at hr
        cases hr
      · exact hf h
  · simp only [tickAll]
    refine congrArg (fun l => { s.spm with degrees := l }) (congrArg (List.map · s.spm.degrees) (funext fun x => ?_))
    obtain ⟨lit, cost, latency, noise, m⟩ := x
    cases m <;> rfl
  · simp only [tickAll, Org.tick, tickTimer_eq]
  · simp only [tickAll, Tdb.tick, tickTimer_eq]
    rfl
  · simp only [tickAll]
    refine congrArg (List.map · s.slots) (funext fun x => ?_)
    obtain ⟨st, t⟩ := x
    cases t <;> simp [Slot.tick, Intent.tick, tickTimer_eq]
  · simp only [tickAll, Psr.tick, tickTimer_eq]
    rfl

end Sys2Proof.Machine
end

section
/-! # A sample of the nine pins -/

namespace Sys2Proof.Machine

/-! ## The pin filter (R17) -/

/-- The filter's table is the one that `PinState.sample` computes. -/
theorem sample_follows (p : PinState) (l : Bool) : PinFollows p l (p.sample l) := by
  obtain ⟨acc, run⟩ := p
  unfold PinFollows PinState.sample
  split
  · rename_i h
    exact congrArg (PinState.mk · none) h
  · rename_i h
    cases run with
    | none => simp [PinState.accepts, PinState.runLength, Config.pinRun]
    | some r =>
      obtain ⟨m, n⟩ := r
      by_cases hm : m = l
      · by_cases hn : n + 1 < 4
        · simp [PinState.accepts, PinState.runLength, Config.pinRun, hm, hn, show ¬ 4 ≤ n + 1 by omega]
        · have h : acc ≠ some l := h
          simp [PinState.accepts, PinState.runLength, Config.pinRun, hm, hn, h, show 4 ≤ n + 1 by omega]
      · simp [PinState.accepts, PinState.runLength, Config.pinRun, hm]

theorem turns_sample_iff (p : PinState) (l : Bool) : PinTurns p (p.sample l) l ↔ p.accepts l = true := by
  unfold PinTurns PinState.sample
  by_cases h : p.accepted = some l
  · simp [h, PinState.accepts]
  · cases ha : p.accepts l <;> simp [h]

theorem sample_lol (p : Pins) (mute : Bool) (lol : DegreeSet) (d : Nat) :
    (p.sample mute lol).lol[d]? = p.lol[d]?.map fun x => x.sample (lol.getLsbD d) := by
  simp [Pins.sample, List.getElem?_zipIdx, Function.comp_def]

/-! ## An acceptance on MUTE (R15) -/

theorem setMute_mute (s : State) : (setMute s).sct.mute = true := by
  by_cases hm : s.sct.mute = true
  · rw [setMute_muted s hm, hm]
  · have hm : s.sct.mute = false := by simpa using hm
    cases hs : s.sct.service with
    | none => rw [setMute_idle s hm hs]; rfl
    | some v =>
      cases hp : v.phase with
      | wait gap => rw [setMute_wait s v gap hm hs hp]; rfl
      | send d => rw [setMute_send s v d hm hs hp, (reportNotSent_steady _ _).mute]; rfl
      | echo n => rw [setMute_echo s v n hm hs hp]; rfl

theorem setMute_shows (s : State) (hm : s.sct.mute = false) : (setMute s).shows .muted := by
  have raised : ∀ v, (s.mutedWith v).shows .muted := fun v => (raise_shows _ _ _).2 (.inl rfl)
  cases hs : s.sct.service with
  | none => rw [setMute_idle s hm hs]; exact raised _
  | some v =>
    cases hp : v.phase with
    | wait gap => rw [setMute_wait s v gap hm hs hp]; exact raised _
    | send d => rw [setMute_send s v d hm hs hp]; exact (reportNotSent_steady _ _).shown _ (raised _)
    | echo n => rw [setMute_echo s v n hm hs hp]; exact raised _

/-! ## An acceptance on an LOL pin (R38, R43) -/

theorem changeDegree_degrees (d : Nat) (x : Degree) (s : State) (h : d < s.degrees.length) :
    (changeDegree d x s).degrees = s.degrees.set d x := by
  simp [changeDegree, h, setDegree]

/-- A degree's change of trace state raises DEGREE_CHANGE (R45). -/
theorem changeDegree_shows (d : Nat) (x y : Degree) (s : State) (hx : s.degrees[d]? = some x) (h : x.trace.watched ≠ y.trace.watched) :
    (changeDegree d y s).shows .degreeChange := by
  simp only [changeDegree, hx]
  exact (orgChangeIf_steady _ _).shown _ ((raiseIf_shows _ _ _ _).2 (.inl ⟨by simpa using h, rfl⟩))

theorem lolAccepted_faulted (d : Nat) (a : Bool) (s : State) (h : s.dir.station = .faulted) : lolAccepted d a s = s := if_pos h

theorem lolAccepted_dark (d : Nat) (x : Degree) (s : State) (hf : s.dir.station ≠ .faulted) (hx : s.degrees[d]? = some x)
    (h : x.trace.hears = true) : lolAccepted d true s = changeDegree d x.enterDark s := by
  cases ht : x.trace <;> simp [ht, Trace.hears] at h <;> simp [lolAccepted, hf, hx, ht]

theorem lolAccepted_light (d : Nat) (x : Degree) (s : State) (hf : s.dir.station ≠ .faulted) (hx : s.degrees[d]? = some x)
    (h : x.trace = .dark) : lolAccepted d false s = changeDegree d x.enterSearching s := by
  simp [lolAccepted, hf, hx, h]

/-- An acceptance that the trace state does not answer. -/
theorem lolAccepted_stands (d : Nat) (a : Bool) (x : Degree) (s : State) (hx : s.degrees[d]? = some x)
    (hd : a = true → x.trace.hears = false) (hl : a = false → x.trace ≠ .dark) : lolAccepted d a s = s := by
  unfold lolAccepted
  split
  · rfl
  · cases a <;> cases ht : x.trace <;> simp_all [Trace.hears]

/-- What an LOL acceptance makes of its degree out of FAULTED. -/
theorem lolAccepted_at (d : Nat) (a : Bool) (x : Degree) (s : State) (hf : s.dir.station ≠ .faulted) (hx : s.degrees[d]? = some x) :
    ∃ y, (lolAccepted d a s).degrees[d]? = some y
      ∧ (a = true → x.trace.hears = true → y.trace = .dark ∧ (lolAccepted d a s).shows .degreeChange)
      ∧ (a = false → x.trace = .dark → y.trace = .searching none ∧ y.receiver = .hunt 13 ∧ (lolAccepted d a s).shows .degreeChange)
      ∧ ((a = true → x.trace.hears = false) → (a = false → x.trace ≠ .dark) → y = x) := by
  have hd := (List.getElem?_eq_some_iff.1 hx).1
  by_cases hdark : a = true ∧ x.trace.hears = true
  · obtain ⟨rfl, hh⟩ := hdark
    rw [lolAccepted_dark d x s hf hx hh]
    have hw : x.trace.watched ≠ x.enterDark.trace.watched := fun h => by
      have := congrArg Prod.fst h
      cases ht : x.trace <;> simp [ht, Trace.hears, Trace.watched, Degree.enterDark, Trace.code] at hh this
    refine ⟨x.enterDark, by simp [changeDegree_degrees _ _ _ hd, hd], fun _ _ => ⟨rfl, changeDegree_shows d x _ s hx hw⟩, ?_, ?_⟩
    · exact fun h => by cases h
    · exact fun h => absurd (h rfl) (by simp [hh])
  by_cases hlight : a = false ∧ x.trace = .dark
  · obtain ⟨rfl, hh⟩ := hlight
    rw [lolAccepted_light d x s hf hx hh]
    have hw : x.trace.watched ≠ x.enterSearching.trace.watched := fun h => by
      simp [hh, Trace.watched, Degree.enterSearching, Trace.code] at h
    refine ⟨x.enterSearching, by simp [changeDegree_degrees _ _ _ hd, hd], ?_, fun _ _ => ⟨rfl, rfl, changeDegree_shows d x _ s hx hw⟩, ?_⟩
    · exact fun h => by cases h
    · exact fun _ h => absurd hh (h rfl)
  · have hd' : a = true → x.trace.hears = false := fun ha => Bool.eq_false_iff.2 fun hh => hdark ⟨ha, hh⟩
    have hl' : a = false → x.trace ≠ .dark := fun ha hh => hlight ⟨ha, hh⟩
    rw [lolAccepted_stands d a x s hx hd' hl']
    exact ⟨x, hx, fun ha hh => absurd (hd' ha) (by simp [hh]), fun ha hh => absurd hh (hl' ha), fun _ _ => rfl⟩

theorem lolAccepted_elsewhere (d k : Nat) (a : Bool) (s : State) (h : k ≠ d) : (lolAccepted k a s).degrees[d]? = s.degrees[d]? := by
  by_cases hf : s.dir.station = .faulted
  · rw [lolAccepted_faulted k a s hf]
  · unfold lolAccepted
    rw [if_neg hf]
    split
    · rename_i x hx
      have hk := (List.getElem?_eq_some_iff.1 hx).1
      split <;> simp [changeDegree_degrees _ _ _ hk, h]
    · rfl

theorem deliverLol_steady (lol : DegreeSet) (s : State) (x : PinState × Nat) : Steady s (deliverLol lol s x) := by
  unfold deliverLol
  split
  · exact lolAccepted_steady _ _ s
  · exact .refl s

/-- Deliveries to other degrees leave a degree alone. -/
theorem deliverLols_elsewhere (lol : DegreeSet) (d : Nat) (l : List (PinState × Nat)) (s : State) (h : ∀ x ∈ l, x.2 ≠ d) :
    (l.foldl (deliverLol lol) s).degrees[d]? = s.degrees[d]? := by
  induction l generalizing s with
  | nil => rfl
  | cons x l ih =>
    rw [List.foldl_cons, ih _ fun y hy => h y (List.mem_cons_of_mem _ hy)]
    unfold deliverLol
    split
    · exact lolAccepted_elsewhere d x.2 _ s (h x List.mem_cons_self)
    · rfl

/-- The nine deliveries of a sample come to a degree as one: that of its own pin. -/
theorem deliverLols_at (lol : DegreeSet) (pins : List PinState) (d : Nat) (p : PinState) (s : State) (hp : pins[d]? = some p) :
    ∃ u, Steady s u ∧ u.degrees[d]? = s.degrees[d]?
      ∧ Steady (deliverLol lol u (p, d)) (pins.zipIdx.foldl (deliverLol lol) s)
      ∧ (pins.zipIdx.foldl (deliverLol lol) s).degrees[d]? = (deliverLol lol u (p, d)).degrees[d]? := by
  obtain ⟨hd, hpd⟩ := List.getElem?_eq_some_iff.1 hp
  have hsplit : pins.zipIdx = (pins.take d).zipIdx ++ (p, d) :: (pins.drop (d + 1)).zipIdx (d + 1) := by
    conv_lhs => rw [← List.take_append_drop d pins, List.drop_eq_getElem_cons hd, hpd, List.zipIdx_append]
    simp [Nat.min_eq_left hd.le]
  have hbefore : ∀ x ∈ (pins.take d).zipIdx, x.2 ≠ d := fun x hx => by
    have := (List.mem_zipIdx hx).2.1
    simp at this
    omega
  have hafter : ∀ x ∈ (pins.drop (d + 1)).zipIdx (d + 1), x.2 ≠ d := fun x hx => by
    have := (List.mem_zipIdx hx).1
    omega
  refine ⟨(pins.take d).zipIdx.foldl (deliverLol lol) s, .foldl _ (deliverLol_steady lol) _ _,
    deliverLols_elsewhere lol d _ s hbefore, ?_⟩
  rw [hsplit, List.foldl_append, List.foldl_cons]
  exact ⟨.foldl _ (deliverLol_steady lol) _ _, deliverLols_elsewhere lol d _ _ hafter⟩

/-- The state in which the acceptances on the LOL pins are delivered: the filters have moved, and MUTE has been heard. -/
def State.sampled (s : State) (mute : Bool) (lol : DegreeSet) : State :=
  if s.pins.mute.accepts mute && mute then setMute { s with pins := s.pins.sample mute lol }
  else { s with pins := s.pins.sample mute lol }

theorem samplePins_eq (s : State) (mute : Bool) (lol : DegreeSet) :
    samplePins mute lol s = s.pins.lol.zipIdx.foldl (deliverLol lol) (s.sampled mute lol) := rfl

theorem sampled_keeps (s : State) (mute : Bool) (lol : DegreeSet) :
    (s.sampled mute lol).pins = s.pins.sample mute lol ∧ (s.sampled mute lol).dir = s.dir ∧ (s.sampled mute lol).degrees = s.degrees := by
  unfold State.sampled
  split <;> simp

theorem samplePins_pins (s : State) (mute : Bool) (lol : DegreeSet) : (samplePins mute lol s).pins = s.pins.sample mute lol := by
  rw [samplePins_eq, foldl_keeps _ State.pins fun u x => by unfold deliverLol; split <;> simp]
  exact (sampled_keeps s mute lol).1

theorem samplePins_steady (s : State) (mute : Bool) (lol : DegreeSet) : Steady (s.sampled mute lol) (samplePins mute lol s) :=
  .foldl _ (deliverLol_steady lol) _ _

/-- What one sample does to a degree, by the delivery of its own pin. -/
theorem samplePins_degree (s : State) (mute : Bool) (lol : DegreeSet) (d : Nat) (p : PinState) (x : Degree)
    (hp : s.pins.lol[d]? = some p) (hx : s.degrees[d]? = some x) :
    ∃ u, u.dir.station = s.dir.station ∧ u.degrees[d]? = some x
      ∧ (samplePins mute lol s).degrees[d]? = (deliverLol lol u (p, d)).degrees[d]?
      ∧ ∀ k, (deliverLol lol u (p, d)).shows k → (samplePins mute lol s).shows k := by
  obtain ⟨-, hdir, hdeg⟩ := sampled_keeps s mute lol
  obtain ⟨u, hu, hud, ht, htd⟩ := deliverLols_at lol s.pins.lol d p (s.sampled mute lol) hp
  exact ⟨u, by rw [hu.station, hdir], by rw [hud, hdeg, hx], htd, ht.shown⟩

/-- Settles O10: the filters move by their table, and each acceptance is delivered. -/
theorem pinSampleFiltersAndDelivers : Obligations.PinSampleFiltersAndDelivers := by
  intro s level lol hr _
  have hpins := samplePins_pins s level lol
  have hst := samplePins_steady s level lol
  refine ⟨samplePins level lol s, congrArg Host.Outcome.next (live_of_running _ s hr), ?_, fun d p hp => ?_, ?_, fun h => ?_, ?_⟩
  · rw [hpins]
    exact sample_follows _ _
  · exact ⟨_, by rw [hpins, sample_lol, hp]; rfl, sample_follows _ _⟩
  · rw [hpins]
    intro hturn hl
    have ha : (s.pins.mute.accepts level && level) = true := by rw [(turns_sample_iff _ _).1 hturn, hl]; rfl
    have hs : s.sampled level lol = setMute { s with pins := s.pins.sample level lol } := if_pos ha
    refine ⟨by rw [hst.mute, hs, setMute_mute], fun hm => hst.shown _ ?_⟩
    rw [hs]
    exact setMute_shows _ hm
  · rw [hpins] at h
    have ha : ¬ (s.pins.mute.accepts level && level) = true := fun ha => by
      obtain ⟨ha, hl⟩ := Bool.and_eq_true_iff.1 ha
      exact h ⟨(turns_sample_iff _ _).2 ha, hl⟩
    rw [hst.mute, State.sampled, if_neg ha]
  · intro d p q x hp hq hx
    obtain rfl : q = p.sample (lol.getLsbD d) := by
      rw [hpins, sample_lol, hp] at hq
      exact (Option.some.inj hq).symm
    obtain ⟨u, hus, hux, hd, hshow⟩ := samplePins_degree s level lol d p x hp hx
    rw [hd, turns_sample_iff]
    by_cases ha : p.accepts (lol.getLsbD d) = true
    · rw [show deliverLol lol u (p, d) = lolAccepted d (lol.getLsbD d) u from if_pos ha] at hshow ⊢
      by_cases hf : s.dir.station = .faulted
      · rw [lolAccepted_faulted _ _ u (hus.trans hf)]
        exact ⟨x, hux, fun _ h => absurd hf h, fun _ => rfl⟩
      · obtain ⟨y, hy, hdark, hlight, hstand⟩ := lolAccepted_at d (lol.getLsbD d) x u (hus ▸ hf) hux
        exact ⟨y, hy, fun _ _ => ⟨fun hl hh => (hdark hl hh).imp_right (hshow _),
          fun hl hh => (hlight hl hh).imp_right fun h => h.imp_right (hshow _), hstand⟩, fun h => (h.elim (absurd ha) hf).elim⟩
    · rw [deliverLol, if_neg ha]
      exact ⟨x, hux, fun h => absurd h ha, fun _ => rfl⟩

end Sys2Proof.Machine
end

section
/-! # Yielding, defending, renumbering -/

namespace Sys2Proof.Machine

/-! ## The CLAIMs of the transmit queue -/

theorem filter_removeFirst {α : Type} (p k : α → Bool) (h : ∀ x, p x = true → k x = false) (l : List α) :
    (removeFirst p l).filter k = l.filter k := by
  induction l with
  | nil => rfl
  | cons x xs ih =>
    unfold removeFirst
    split
    · simp [h x ‹_›]
    · simp [List.filter_cons, ih]

theorem filter_replaceFirst {α : Type} (p k : α → Bool) (y : α) (h : ∀ x, p x = true → k x = false) (hy : k y = false) (l : List α) :
    (replaceFirst p y l).filter k = l.filter k := by
  induction l with
  | nil => rfl
  | cons x xs ih =>
    unfold replaceFirst
    split
    · simp [h x ‹_›, hy]
    · simp [List.filter_cons, ih]

theorem not_claim_of_report (x : Body) (h : x.isReport = true) : x.isClaim = false := by
  obtain ⟨r, rfl⟩ := (isReport_iff x).1 h
  rfl

theorem not_claim_of_intent (i : Nat) (x : Body) (h : x.isIntentOf i = true) : x.isClaim = false := by
  obtain ⟨p, ps, rfl⟩ := (isIntentOf_iff i x).1 h
  rfl

theorem enqueueNew_claims (q : List Body) (f : Body) (h : f.isClaim = false) :
    (enqueueNew q f).1.filter Body.isClaim = q.filter Body.isClaim := by
  unfold enqueueNew
  split
  · simp [h]
  · split
    · rfl
    · split
      · simp [h, filter_removeFirst _ _ not_claim_of_report]
      · rfl

/-- A hand-over of another kind leaves the queued CLAIMs alone (R9). -/
theorem enqueue_claims (q : List Body) (f : Body) (h : f.isClaim = false) :
    (enqueue q f).1.filter Body.isClaim = q.filter Body.isClaim := by
  have hnew := enqueueNew_claims q f h
  cases f with
  | claim r m => cases h
  | report r =>
    unfold enqueue
    dsimp only
    split
    · exact filter_replaceFirst _ _ _ not_claim_of_report h q
    · exact hnew
  | intent i p ps =>
    unfold enqueue
    dsimp only
    split
    · exact filter_replaceFirst _ _ _ (not_claim_of_intent i) h q
    · exact hnew
  | release i =>
    unfold enqueue
    dsimp only
    split
    · simp [h, filter_removeFirst _ _ (not_claim_of_intent i)]
    · exact hnew

/-- A list with an element that passes a test splits at the first one. -/
theorem split_at_any {α : Type} {p : α → Bool} {l : List α} (h : l.any p = true) :
    ∃ a x b, l = a ++ x :: b ∧ p x = true ∧ a.any p = false := by
  obtain ⟨x, hx⟩ := Option.isSome_iff_exists.1 (List.find?_isSome.2 (List.any_eq_true.1 h))
  obtain ⟨a, b, hab⟩ := split_at_find hx
  exact ⟨a, x, b, hab⟩

/-- A CLAIM handed over is queued where there is a CLAIM to replace, room, or a REPORT that gives way (R9). -/
theorem mem_enqueue_claim (q : List Body) (r m : Nat)
    (h : q.length < 8 ∨ q.any Body.isClaim = true ∨ q.any Body.isReport = true) : .claim r m ∈ (enqueue q (.claim r m)).1 := by
  by_cases hc : q.any Body.isClaim = true
  · obtain ⟨a, x, b, rfl, hx, ha⟩ := split_at_any hc
    simp [enqueue_claim_replaces a b x r m hx ha]
  · have hc' : q.any Body.isClaim = false := by simpa using hc
    rw [show enqueue q (.claim r m) = enqueueNew q (.claim r m) from if_neg hc]
    by_cases hl : q.length < 8
    · simp [enqueueNew_room q _ hl]
    · have hr : q.any Body.isReport = true := (h.resolve_left hl).resolve_left hc
      simp [enqueueNew, Config.txDepth, hl, Body.isReport, hr]

/-- Of the CLAIMs, no more than the one handed over is queued after it. -/
theorem enqueue_claim_alone (q : List Body) (r m : Nat) (hq : q.countP Body.isClaim ≤ 1) (x : Body)
    (hx : x ∈ (enqueue q (.claim r m)).1) (hk : x.isClaim = true) : x = .claim r m := by
  by_cases hc : q.any Body.isClaim = true
  · obtain ⟨a, y, b, rfl, hy, ha⟩ := split_at_any hc
    rw [enqueue_claim_replaces a b y r m hy ha] at hx
    have hb : b.countP Body.isClaim = 0 := by
      simp only [List.countP_append, List.countP_cons, hy, if_true] at hq
      omega
    rcases List.mem_append.1 hx with hx | hx
    · exact absurd hk (List.any_eq_false.1 ha x hx)
    · rcases List.mem_cons.1 hx with hx | hx
      · exact hx
      · exact absurd hk (List.countP_eq_zero.1 hb x hx)
  · rw [show enqueue q (.claim r m) = enqueueNew q (.claim r m) from if_neg hc] at hx
    have hno : x ∉ q := fun h => hc (List.any_eq_true.2 ⟨x, h, hk⟩)
    unfold enqueueNew at hx
    split at hx
    · simpa [hno] using hx
    · split at hx
      · exact absurd hx hno
      · split at hx
        · rcases List.mem_append.1 hx with hx | hx
          · exact absurd ((removeFirst_sublist _ q).subset hx) hno
          · simpa using hx
        · exact absurd hx hno

/-- The CLAIMs queued. -/
def State.claims (s : State) : List Body := s.sct.queue.filter Body.isClaim

theorem mem_claims (s : State) (r m : Nat) : .claim r m ∈ s.claims ↔ .claim r m ∈ s.sct.queue := by
  simp [State.claims, Body.isClaim]

theorem claims_congr {s t : State} (h : t.sct = s.sct) : t.claims = s.claims := by rw [State.claims, h, State.claims]

theorem handOverPlain_queue (f : Body) (s : State) (h : s.transmits = true) :
    (handOverPlain f s).sct.queue = (enqueue s.sct.queue f).1 := by
  rw [handOverPlain, if_pos h]
  simp [setTxQueue]

theorem handOverPlain_claims (f : Body) (s : State) (h : f.isClaim = false) : (handOverPlain f s).claims = s.claims := by
  by_cases ht : s.transmits = true
  · rw [State.claims, handOverPlain_queue f s ht, enqueue_claims _ f h, State.claims]
  · rw [handOverPlain, if_neg ht]

theorem notSent_claims (i p : Nat) (ps : List Pair) (s : State) : (notSent i p ps s).claims = s.claims := by
  unfold notSent
  split
  · exact (handOverPlain_claims _ _ rfl).trans (claims_congr (by simp))
  · rfl

theorem announce_claims (i : Nat) (s : State) : (announce i s).claims = s.claims := by
  have hp : ∀ p ps, (handOverPlain (.intent i p ps) s).claims = s.claims := fun p ps => handOverPlain_claims _ s rfl
  unfold announce
  split
  · split
    · unfold handOver
      dsimp only
      split
      · exact (notSent_claims _ _ _ _).trans (hp _ _)
      · exact hp _ _
    · rfl
  · rfl

theorem compareIntents_claims (u : Uid) (p : Nat) (ps : List Pair) (s : State) : (compareIntents u p ps s).claims = s.claims := by
  refine foldl_keeps _ State.claims (fun s i => ?_) _ s
  unfold compareIntent
  split
  · split
    · split
      · exact (handOverPlain_claims _ _ rfl).trans (claims_congr (by simp))
      · split
        · exact announce_claims i s
        · rfl
    · rfl
  · rfl

theorem orgRequest_claims (s : State) : (orgRequest s).claims = s.claims := by
  unfold orgRequest
  split
  · unfold originateHeldDown
    split
    · rfl
    · exact (handOverPlain_claims _ _ rfl).trans (claims_congr (stageReport_sct ..))
  · rfl

theorem storeReport_claims (n : Nat) (u : Uid) (r : Report) (s : State) : (storeReport n u r s).claims = s.claims := by
  have examined : ∀ t : State, (examineMissed r t).claims = t.claims := fun t => by
    unfold examineMissed
    split
    · exact orgRequest_claims t
    · rfl
  unfold storeReport
  split
  · exact (examined _).trans (claims_congr (stageReport_sct ..))
  · split
    · refine (examined _).trans ?_
      split
      · unfold recordGap
        split
        · rfl
        · exact orgRequest_claims _
      · rfl
    · rfl

/-- What acceptance and dispatch of a frame hand over is no CLAIM (R21, R24). -/
theorem acceptFrame_claims (n : Nat) (f : Frame) (s : State) : (acceptFrame n f s).claims = s.claims := by
  have dispatched : ∀ how (t : State), (dispatch n how f t).claims = t.claims := fun how t => by
    unfold dispatch
    split
    · split
      · exact claims_congr (purgeViews_sct ..)
      · rfl
    · split
      · exact storeReport_claims n _ _ t
      · rfl
    · split
      · exact (compareIntents_claims _ _ _ _).trans (claims_congr (storeIntent_sct ..))
      · rfl
    · split
      · exact claims_congr (releaseIntent_sct ..)
      · rfl
  have ha := accept_sct n f s
  unfold acceptFrame
  split
  · rfl
  · rename_i he
    rw [he] at ha
    exact (dispatched _ _).trans (claims_congr ha)

/-! ## The choice of a number (R26) -/

theorem mem_numbersFrom (p c : Nat) : c ∈ numbersFrom p ↔ c < 48 := by
  simp only [numbersFrom, Config.stations, List.mem_map, List.mem_range]
  constructor
  · rintro ⟨i, -, rfl⟩
    exact Nat.mod_lt _ (by decide)
  · intro h
    exact ⟨(c + 48 - p % 48) % 48, Nat.mod_lt _ (by decide), by omega⟩

/-- The state of a joining part that has just chosen candidate `c`. -/
def State.choosing (s : State) (c : Nat) : State :=
  { s with dir := { s.dir with candidate := some c, rounds := 0, roundTimer := none } }

/-- A candidate is a number that nobody holds and that was not yielded; without one NO_NUMBER is entered. -/
theorem takeCandidate_cases (s : State) :
    (∃ c, c < 48 ∧ s.entry c = none ∧ c ∉ s.dir.yielded ∧ takeCandidate s = handOverPlain (.claim c 1) (s.choosing c))
      ∨ (∀ c, c < 48 → s.entry c ≠ none ∨ c ∈ s.dir.yielded) ∧ takeCandidate s = enterNoNumber s := by
  unfold takeCandidate
  split
  · rename_i c hc
    have hmem := (mem_numbersFrom _ c).1 (List.mem_of_find?_eq_some hc)
    have hfree := List.find?_some hc
    simp only [Bool.and_eq_true, Option.isNone_iff_eq_none, Bool.not_eq_true', List.contains_eq_mem, decide_eq_false_iff_not] at hfree
    exact .inl ⟨c, hmem, hfree.1, hfree.2, rfl⟩
  · rename_i hc
    refine .inr ⟨fun c hlt => ?_, rfl⟩
    have hheld := List.find?_eq_none.1 hc c ((mem_numbersFrom _ c).2 hlt)
    simp only [Bool.and_eq_true, Option.isNone_iff_eq_none, Bool.not_eq_true', List.contains_eq_mem, decide_eq_false_iff_not,
      not_and, not_not] at hheld
    exact or_iff_not_imp_left.2 fun h => hheld (not_not.1 h)

/-- What the choice of a number does to the DIR, whichever way it ends. -/
theorem takeCandidate_dir (s : State) : (takeCandidate s).dir.rounds = 0 ∧ (takeCandidate s).dir.roundTimer = none
    ∧ (takeCandidate s).dir.yielded = s.dir.yielded ∧ (takeCandidate s).dir.entries = s.dir.entries
    ∧ ∀ n ∈ s.dir.yielded, (takeCandidate s).dir.candidate ≠ some n := by
  rcases takeCandidate_cases s with ⟨c, -, -, hy, ht⟩ | ⟨-, ht⟩ <;> rw [ht]
  · rw [handOverPlain_dir]
    exact ⟨rfl, rfl, rfl, rfl, fun n hn h => hy (Option.some.inj h ▸ hn)⟩
  · exact ⟨rfl, rfl, rfl, rfl, fun n _ h => by cases h⟩

/-- The choice of a number leaves no indication cleared. -/
theorem takeCandidate_shown (s : State) (k : Indication) (h : s.shows k) : (takeCandidate s).shows k := by
  rcases takeCandidate_cases s with ⟨c, -, -, -, ht⟩ | ⟨-, ht⟩ <;> rw [ht]
  · exact (handOverPlain_steady _ _).shown k h
  · exact (raise_shows _ _ _).2 (.inr h)

/-! ## Acceptance and dispatch (R21, R24) -/

/-- Of the DIR, acceptance and dispatch change the entries alone. -/
theorem acceptFrame_dir (n : Nat) (f : Frame) (s : State) :
    (acceptFrame n f s).dir = { s.dir with entries := (acceptFrame n f s).dir.entries } := by
  have purged : ∀ m (t : State), (purge m t).dir = { t.dir with entries := (purge m t).dir.entries } := fun m t => by
    unfold purge
    split
    · rw [purgeViews_dir]
      rfl
    · rfl
  have purgedUid : ∀ t : State, (purgeUid f.uid t).dir = { t.dir with entries := (purgeUid f.uid t).dir.entries } := fun t => by
    unfold purgeUid
    split
    · exact purged _ t
    · rfl
  have installed : ∀ t : State, (install n f t).dir = { t.dir with entries := (install n f t).dir.entries } := fun t => rfl
  have accepted : (accept n f s).2.dir = { s.dir with entries := (accept n f s).2.dir.entries } := by
    unfold accept
    split
    · split
      · rfl
      · split
        · rw [installed, purgedUid, purged]
        · rfl
    · rfl
    · rw [installed, purgedUid]
  unfold acceptFrame
  split
  · rfl
  · rename_i he
    rw [he] at accepted
    rw [dispatch_dir]
    exact accepted

/-- A frame whose number nobody holds enters its sender (R21). -/
theorem acceptFrame_enters (n : Nat) (f : Frame) (s : State) (he : s.entry n = none) (hn : n < s.dir.entries.length) :
    (acceptFrame n f s).entry n = some f.entry := by
  have hlen : ∀ m (t : State), (purge m t).dir.entries.length = t.dir.entries.length := fun m t => by
    unfold purge
    split
    · rw [purgeViews_dir]
      exact List.length_set
    · rfl
  have hl : n < (purgeUid f.uid s).dir.entries.length := by
    unfold purgeUid
    split
    · rwa [hlen]
    · exact hn
  have ha : accept n f s = (.entered, install n f (purgeUid f.uid s)) := by simp only [accept, he]
  simp only [acceptFrame, ha, State.entry, dispatch_dir, install, raise_dir, setEntry, place]
  simp [hl]

/-- The passage from `s` to `t` sends nothing and touches no intent: of transmitter, slots and own-report state, at most the missed
list differs. -/
structure Silent (s t : State) : Prop where
  sct : t.sct = s.sct
  slots : t.slots = s.slots
  org : { t.org with missed := [] } = { s.org with missed := [] }

namespace Silent

variable {s t u : State}

theorem refl (s : State) : Silent s s := ⟨rfl, rfl, rfl⟩

theorem of_eq (hs : t.sct = s.sct) (hx : t.slots = s.slots) (ho : t.org = s.org) : Silent s t := ⟨hs, hx, by rw [ho]⟩

theorem trans (h : Silent s t) (k : Silent t u) : Silent s u := ⟨k.sct.trans h.sct, k.slots.trans h.slots, k.org.trans h.org⟩

end Silent

theorem recordGap_silent (n : Nat) (s : State) (h : s.dir.station ≠ .member) : Silent s (recordGap n s) := by
  unfold recordGap
  split
  · exact .refl s
  · have hq := orgRequest_outside { s with org := { s.org with missed := lastN Config.missedDepth (s.org.missed ++ [n]) } } h
    rw [hq]
    exact ⟨rfl, rfl, rfl⟩

theorem storeReport_silent (n : Nat) (u : Uid) (r : Report) (s : State) (h : s.dir.station ≠ .member) :
    Silent s (storeReport n u r s) := by
  have examined : ∀ t : State, t.dir.station ≠ .member → examineMissed r t = t := fun t ht => if_neg fun hm => ht hm.1
  have staged : Silent s (stageReport n u r s) := .of_eq rfl rfl rfl
  have hst : (stageReport n u r s).dir.station ≠ .member := h
  unfold storeReport
  split
  · rw [examined _ hst]
    exact staged
  · split
    · have gap : Silent s (recordGap n (stageReport n u r s)) := staged.trans (recordGap_silent n _ hst)
      have hgap : (recordGap n (stageReport n u r s)).dir.station ≠ .member := by simpa using h
      dsimp only
      split
      · rw [examined _ hgap]
        exact gap
      · rw [examined _ hst]
        exact staged
    · exact .refl s

/-- A peer intent meets no intent of a part of which none stands. -/
theorem compareIntents_idle (u : Uid) (p : Nat) (ps : List Pair) (s : State) (h : ∀ i x, ¬ s.standsIn i x) :
    compareIntents u p ps s = s := by
  have met : ∀ i, compareIntent u p ps s i = s := fun i => by
    unfold compareIntent
    split
    · rename_i x hx
      rw [if_neg]
      exact fun hc => h i x ⟨hx, (Bool.and_eq_true_iff.1 hc).1⟩
    · rfl
  unfold compareIntents
  induction List.range Config.slots with
  | nil => rfl
  | cons i l ih => rw [List.foldl_cons, met, ih]

/-- Outside MEMBER, with no intent standing, a frame accepted sends nothing. -/
theorem acceptFrame_silent (n : Nat) (f : Frame) (s : State) (hm : s.dir.station ≠ .member) (hi : ∀ i x, ¬ s.standsIn i x) :
    Silent s (acceptFrame n f s) := by
  have dispatched : ∀ how (t : State), t.dir.station ≠ .member → (∀ i x, ¬ t.standsIn i x) → Silent t (dispatch n how f t) := by
    intro how t hm hi
    unfold dispatch
    split
    · split
      · exact .of_eq (purgeViews_sct ..) (purgeViews_slots ..) (purgeViews_org ..)
      · exact .refl t
    · split
      · exact storeReport_silent n _ _ t hm
      · exact .refl t
    · split
      · rw [compareIntents_idle _ _ _ _ fun i x h => hi i x ⟨by simpa [State.slot] using h.1, h.2⟩]
        exact .of_eq (storeIntent_sct ..) (storeIntent_slots ..) (storeIntent_org ..)
      · exact .refl t
    · split
      · exact .of_eq (releaseIntent_sct ..) (releaseIntent_slots ..) (releaseIntent_org ..)
      · exact .refl t
  have hs : Silent s (accept n f s).2 := .of_eq (accept_sct ..) (accept_slots ..) (accept_org ..)
  have hst := (accept_steady n f s).station
  have hsl : ∀ i, (accept n f s).2.slot i = s.slot i := fun i => by rw [State.slot, hs.slots, State.slot]
  unfold acceptFrame
  split
  · exact .refl s
  · rename_i how t _ he
    rw [he] at hs hst hsl
    exact hs.trans (dispatched how t (hst ▸ hm) fun i x h => hi i x ⟨(hsl i).symm.trans h.1, h.2⟩)

/-! ## Intents lost by renumbering (R156) -/

/-- A slot after its part has renumbered. -/
def Slot.renumbered (x : Slot) : Slot :=
  if x.intent.stands then { x with intent := .lost .renumbered x.intent.priority x.intent.pairs } else x

theorem renumbered_stands (x : Slot) : x.renumbered.intent.stands = false := by
  unfold Slot.renumbered
  split
  · rfl
  · exact Bool.eq_false_iff.2 ‹_›

theorem loseIntent_slot (i k : Nat) (s : State) :
    (loseIntent i .renumbered s).slot k = if k = i then (s.slot k).map Slot.renumbered else s.slot k := by
  cases hx : s.slot i with
  | none =>
    rw [show loseIntent i .renumbered s = s by simp only [loseIntent, hx]]
    split
    · rename_i hk
      rw [hk, hx]
      rfl
    · rfl
  | some x =>
    by_cases hs : x.intent.stands = true
    · rw [loseIntent_standing i .renumbered s x ⟨hx, hs⟩]
      obtain ⟨hat, helse⟩ := losing_slot s i x .renumbered hx
      split
      · rename_i hk
        subst hk
        rw [hx]
        exact hat.trans (congrArg some (if_pos hs).symm)
      · exact helse k ‹_›
    · rw [show loseIntent i .renumbered s = s by simp only [loseIntent, hx, hs]; rfl]
      split
      · rename_i hk
        rw [hk, hx]
        exact congrArg some (if_neg hs).symm
      · rfl

/-- The loss, one slot after the other, of the intents of the first `m` slots. -/
theorem loseIntents_slot (m k : Nat) (s : State) :
    ((List.range m).foldl (fun t i => loseIntent i .renumbered t) s).slot k
      = if k < m then (s.slot k).map Slot.renumbered else s.slot k := by
  induction m with
  | zero => rfl
  | succ m ih =>
    rw [List.range_succ, List.foldl_append, List.foldl_cons, List.foldl_nil, loseIntent_slot, ih]
    by_cases hk : k = m
    · simp [hk]
    · simp [hk, show k < m + 1 ↔ k < m by omega]

theorem loseIntents_shows (m i : Nat) (x : Slot) (s : State) (hi : i < m) (hx : s.standsIn i x) :
    ((List.range m).foldl (fun t i => loseIntent i .renumbered t) s).shows .intentLost := by
  induction m with
  | zero => cases hi
  | succ m ih =>
    rw [List.range_succ, List.foldl_append, List.foldl_cons, List.foldl_nil]
    by_cases him : i = m
    · subst him
      have hst : ((List.range i).foldl (fun t i => loseIntent i .renumbered t) s).standsIn i x :=
        ⟨by rw [loseIntents_slot, if_neg (Nat.lt_irrefl i), hx.1], hx.2⟩
      rw [loseIntent_standing i .renumbered _ x hst]
      exact (raise_shows _ _ _).2 (.inl rfl)
    · exact (loseIntent_steady _ _ _).shown _ (ih (by omega))

theorem loseAllIntents_slot (s : State) (i : Nat) (x : Slot) (hi : i < 8) (hx : s.standsIn i x) :
    (loseAllIntents s).slot i = some { x with intent := .lost .renumbered x.intent.priority x.intent.pairs } :=
  (loseIntents_slot 8 i s).trans (by rw [if_pos hi, hx.1, Option.map_some, Slot.renumbered, if_pos hx.2])

theorem loseAllIntents_stands (s : State) (hl : s.slots.length = 8) (i : Nat) (x : Slot) : ¬ (loseAllIntents s).standsIn i x := by
  rintro ⟨hx, hs⟩
  have hi : i < 8 := by
    by_contra hi
    rw [show (loseAllIntents s).slot i = s.slot i from (loseIntents_slot 8 i s).trans (if_neg hi)] at hx
    exact hi (hl ▸ (List.getElem?_eq_some_iff.1 hx).1)
  rw [show (loseAllIntents s).slot i = (s.slot i).map Slot.renumbered from (loseIntents_slot 8 i s).trans (if_pos hi)] at hx
  obtain ⟨y, -, rfl⟩ := Option.map_eq_some_iff.1 hx
  simp [renumbered_stands] at hs

/-! ## A number given up (R28, R32) -/

/-- The DIR has given up number `n`: it is yielded, no candidate, and no round is counted or timed. -/
def Dir.GaveUp (x : Dir) (n : Nat) : Prop := n ∈ x.yielded ∧ x.candidate ≠ some n ∧ x.rounds = 0 ∧ x.roundTimer = none

theorem takeCandidate_gaveUp (s : State) (n : Nat) (h : n ∈ s.dir.yielded) : (takeCandidate s).dir.GaveUp n := by
  obtain ⟨hr, ht, hy, -, hc⟩ := takeCandidate_dir s
  exact ⟨hy ▸ h, hc n h, hr, ht⟩

theorem acceptFrame_gaveUp (k : Nat) (f : Frame) (s : State) (n : Nat) (h : s.dir.GaveUp n) : (acceptFrame k f s).dir.GaveUp n := by
  rw [acceptFrame_dir]
  exact h

/-- The state in which a joining part that yields `n` chooses again. -/
def State.yielding (s : State) (n : Nat) : State :=
  { s with dir := { s.dir with yielded := if s.dir.yielded.contains n then s.dir.yielded else s.dir.yielded ++ [n], roundTimer := none } }

theorem yieldNumber_eq (n : Nat) (s : State) : yieldNumber n s = takeCandidate (s.yielding n) := rfl

theorem mem_yielding (s : State) (n c : Nat) : c ∈ (s.yielding n).dir.yielded ↔ c = n ∨ c ∈ s.dir.yielded := by
  simp only [State.yielding]
  split
  · rename_i h
    have hn : n ∈ s.dir.yielded := by simpa using h
    exact ⟨.inr, fun h => h.elim (fun e => e ▸ hn) id⟩
  · simp [or_comm]

/-- The state in which a member that renumbers from `n` chooses again. -/
def State.renumbering (s : State) (strap : BitVec 3) (n : Nat) : State :=
  let t := raise .numberChange (clearSct (orgStop (dropReport n (setEntry n none (loseAllIntents s)))))
  { t with dir := { t.dir with station := .joining, preferred := t.preferredNumber strap, yielded := [n],
                               roundTimer := none, noNumberTimer := none } }

theorem renumber_eq (strap : BitVec 3) (n : Nat) (s : State) : renumber strap n s = takeCandidate (s.renumbering strap n) := rfl

theorem renumber_gaveUp (strap : BitVec 3) (n : Nat) (s : State) : (renumber strap n s).dir.GaveUp n :=
  takeCandidate_gaveUp _ n (List.mem_singleton.2 rfl)

theorem renumbering_slots (s : State) (strap : BitVec 3) (n : Nat) : (s.renumbering strap n).slots = (loseAllIntents s).slots := by
  simp [State.renumbering, clearSct, setService, setTxQueue]

theorem renumbering_sct (s : State) (strap : BitVec 3) (n : Nat) :
    (s.renumbering strap n).sct = { s.sct with queue := [], service := none } := by
  simp [State.renumbering, clearSct, setService, setTxQueue]

theorem renumbering_org (s : State) (strap : BitVec 3) (n : Nat) :
    (s.renumbering strap n).org = { s.org with holdDown := none, refresh := none, pendingChange := false } := by
  simp [State.renumbering, clearSct, setService, setTxQueue, orgStop]

theorem renumbering_entries (s : State) (strap : BitVec 3) (n : Nat) :
    (s.renumbering strap n).dir.entries = s.dir.entries.set n none := by
  simp [State.renumbering, clearSct, setService, setTxQueue, setEntry]

theorem renumbering_entry (s : State) (strap : BitVec 3) (n c : Nat) (h : c ≠ n) : (s.renumbering strap n).entry c = s.entry c := by
  simp [State.entry, place, renumbering_entries, List.getElem?_set_ne h.symm]

theorem renumbering_shows (s : State) (strap : BitVec 3) (n : Nat) (k : Indication) (h : k = .numberChange ∨ (loseAllIntents s).shows k) :
    (s.renumbering strap n).shows k := by
  have hn : (s.renumbering strap n).ntf = (raise .numberChange (loseAllIntents s)).ntf := by
    simp [State.renumbering, clearSct, setService, setTxQueue, orgStop, setEntry, raise]
  rw [State.shows, hn]
  exact (raise_shows .numberChange k _).2 h

/-- Where the choice of a number leads from an empty transmitter in JOINING: to a candidate, its CLAIM all there is to send, or to
NO_NUMBER, with nothing to send. -/
def ChoiceEnds (s t : State) : Prop :=
  (∃ c, t.dir.station = .joining ∧ t.dir.candidate = some c ∧ c < 48 ∧ c ∉ s.dir.yielded ∧ s.entry c = none ∧ t.sct.queue = [.claim c 1])
    ∨ t.dir.station = .noNumber ∧ t.dir.candidate = none ∧ t.sct.queue = [] ∧ ∀ c, c < 48 → s.entry c ≠ none ∨ c ∈ s.dir.yielded

theorem takeCandidate_ends (s : State) (hj : s.dir.station = .joining) (hq : s.sct.queue = []) (hv : s.sct.service = none) :
    ChoiceEnds s (takeCandidate s) ∧ (takeCandidate s).sct.service = none := by
  rcases takeCandidate_cases s with ⟨c, hlt, he, hy, ht⟩ | ⟨hheld, ht⟩ <;> rw [ht]
  · have hqueue : (handOverPlain (.claim c 1) (s.choosing c)).sct.queue = [.claim c 1] := by
      have hjoining : (s.choosing c).transmits = true := (transmits_iff _).2 (.inl hj)
      rw [handOverPlain_queue _ _ hjoining, show (s.choosing c).sct.queue = [] from hq]
      rfl
    refine ⟨.inl ⟨c, by rw [handOverPlain_dir]; exact hj, by rw [handOverPlain_dir]; rfl, hlt, hy, he, hqueue⟩, ?_⟩
    exact (handOverPlain_steady _ _).service.trans hv
  · exact ⟨.inr ⟨rfl, rfl, rfl, hheld⟩, rfl⟩

/-- Where a renumbering from `n` leads: JOINING with a number that nobody holds, or NO_NUMBER; the transmitter keeps nothing but the
CLAIM. -/
def RenumberEnds (n : Nat) (s t : State) : Prop :=
  (∃ c, t.dir.station = .joining ∧ t.dir.candidate = some c ∧ c < 48 ∧ c ≠ n ∧ s.entry c = none ∧ t.sct.queue = [.claim c 1])
    ∨ t.dir.station = .noNumber ∧ t.dir.candidate = none ∧ t.sct.queue = [] ∧ ∀ c, c < 48 → c ≠ n → s.entry c ≠ none

theorem renumber_ends (strap : BitVec 3) (n : Nat) (s : State) :
    RenumberEnds n s (renumber strap n s) ∧ (renumber strap n s).sct.service = none := by
  have hsct := renumbering_sct s strap n
  have hy : ∀ c, c ∈ (s.renumbering strap n).dir.yielded ↔ c = n := fun c => List.mem_singleton
  have hj : (s.renumbering strap n).dir.station = .joining := rfl
  have hentry := renumbering_entry s strap n
  rw [renumber_eq]
  generalize s.renumbering strap n = w at *
  obtain ⟨h, hv⟩ := takeCandidate_ends w hj (by rw [hsct]) (by rw [hsct])
  refine ⟨h.imp (fun ⟨c, hst, hc, hlt, hny, he, hqueue⟩ => ?_) (fun ⟨hst, hc, hqueue, hheld⟩ => ⟨hst, hc, hqueue, fun c hlt hcn => ?_⟩), hv⟩
  · have hcn : c ≠ n := fun h => hny ((hy c).2 h)
    exact ⟨c, hst, hc, hlt, hcn, (hentry c hcn).symm.trans he, hqueue⟩
  · rw [← hentry c hcn]
    exact (hheld c hlt).resolve_right fun h => hcn ((hy c).1 h)

/-! ## A frame taken from the receive queue (R20, R21) -/

theorem exec_takeReceivedFrame (strap : BitVec 3) (s : State) (f : Frame) (rest : List Frame) (h : s.offers f rest)
    (ha : s.active = true) : exec (.takeReceivedFrame strap) s = .next (takeFrame strap f (s.withRxQueue rest)) := by
  refine congrArg Host.Outcome.next ((live_of_running _ s h.1).trans ?_)
  simp only [takeOldest, ha, if_true, h.2]
  rfl

/-- A frame of a number in use and of a known mode passes the checks 1 to 3 of R20 but for a JOINING CLAIM that outranks nobody. -/
theorem discards_false (s : State) (f : Frame) (hn : f.number? < 48) (hm : f.modeKnown)
    (h : s.dir.station = .joining → f.isClaimMode 1 = true → ¬ s.ownUid < f.uid) : s.discards f = false := by
  have hmode : (f.body.isClaim && !f.isClaimMode modeJoining && !f.isClaimMode modeDefending) = false := by
    unfold Frame.modeKnown at hm
    cases hb : f.body with
    | claim r m =>
      simp only [hb] at hm
      rcases hm with hm | hm <;> simp [Frame.isClaimMode, hb, hm]
    | _ => rfl
  have hlt : decide (Config.stations ≤ f.number?) = false := decide_eq_false (by simpa [Config.stations] using hn)
  rw [State.discards, hlt, hmode]
  simp only [Bool.or_self, Bool.false_or, Bool.and_eq_false_iff, decide_eq_false_iff_not, modeJoining]
  by_cases hj : s.dir.station = .joining
  · by_cases hc : f.isClaimMode 1 = true
    · exact .inr (h hj hc)
    · exact .inl (.inl (.inr (by simpa using hc)))
  · exact .inl (.inl (.inl hj))

theorem conflicts_outside (s : State) (f : Frame) (h : s.dir.station ≠ .joining) : s.conflicts f = false := by
  simp [State.conflicts, h]

/-- The own number heard: what the rule of section 2.5 does. -/
theorem takeFrame_own (strap : BitVec 3) (f : Frame) (s : State) (u : Uid) (hd : s.discards f = false) (hc : s.conflicts f = false)
    (he : s.entry f.number? = some (.own u)) : takeFrame strap f s = ownNumberRule strap f.number? f s := by
  simp [takeFrame, hd, hc, he]

theorem ownNumberRule_defends (strap : BitVec 3) (n : Nat) (f : Frame) (s : State) (h : f.isClaimMode 1 = true ∨ s.ownUid < f.uid) :
    ownNumberRule strap n f s = defend n s := by
  refine if_neg fun ⟨hm, hu⟩ => ?_
  rcases h with h | h
  · exact absurd (h.symm.trans hm) (by decide)
  · exact absurd (BitVec.lt_trans h hu) (BitVec.lt_irrefl _)

theorem ownNumberRule_renumbers (strap : BitVec 3) (n : Nat) (f : Frame) (s : State) (hm : f.isClaimMode 1 = false) (hu : f.uid < s.ownUid) :
    ownNumberRule strap n f s = acceptFrame n f (renumber strap n s) := if_pos ⟨hm, hu⟩

/-- Within the hold-down a defence leaves its report pending (R31, R65). -/
theorem defend_heldDown (n : Nat) (s : State) (hm : s.dir.station = .member) (hh : s.org.holdDown.isSome = true) :
    defend n s = { handOverPlain (.claim n 2) s with
      org := { (handOverPlain (.claim n 2) s).org with pendingChange := true } } := by
  simp only [defend, orgRequest, handOverPlain_dir, hm, if_true, originateHeldDown, handOverPlain_org, hh, modeDefending]

/-- Outside the hold-down a defence originates the report (R31, R65). -/
theorem defend_originates (n : Nat) (s : State) (hm : s.dir.station = .member) (hh : s.org.holdDown = none) :
    defend n s = originate (handOverPlain (.claim n 2) s) := by
  simp [defend, orgRequest, hm, originateHeldDown, hh, modeDefending]

/-- The report that an origination leaves in the staging tables (R66). -/
theorem originate_stages (n : Nat) (s : State) (hn : s.ownNumber = n) (hlt : n < s.tdb.staging.length) :
    place (originate s).tdb.staging n = some { uid := s.ownUid, report := s.ownReport } := by
  simp [originate, stageReport, hn, place, hlt]

theorem ownNumber_member (s : State) (n : Nat) (hm : s.dir.station = .member) (hc : s.dir.candidate = some n) : s.ownNumber = n := by
  simp [State.ownNumber, hm, hc]

theorem ownNumber_outside (s : State) (h : s.dir.station ≠ .member) : s.ownNumber = 255 := by
  unfold State.ownNumber
  split
  · rename_i hm _
    exact absurd hm h
  · rfl

/-! ## Yielding a candidate (R28) -/

/-- Where a yield of `n` leads: JOINING with another candidate, its CLAIM handed over and the frame in service kept, or NO_NUMBER, with
nothing to send. -/
def YieldEnds (n : Nat) (s t : State) : Prop :=
  (t.dir.station = .joining ∧ t.sct.service = s.sct.service
      ∧ ∃ c, t.dir.candidate = some c ∧ c < 48 ∧ s.entry c = none ∧ c ∉ s.dir.yielded
        ∧ (s.sct.queue.length < 8 ∨ s.sct.queue.any Body.isClaim = true ∨ s.sct.queue.any Body.isReport = true →
            .claim c 1 ∈ t.sct.queue)
        ∧ (s.sct.queue.countP Body.isClaim ≤ 1 → ∀ r m, .claim r m ∈ t.sct.queue → r = c ∧ m = 1))
    ∨ t.dir.station = .noNumber ∧ t.dir.candidate = none ∧ t.sct.queue = [] ∧ t.sct.service = none
      ∧ ∀ c, c < 48 → s.entry c ≠ none ∨ c = n ∨ c ∈ s.dir.yielded

theorem yieldNumber_ends (n : Nat) (s : State) (hj : s.dir.station = .joining) : YieldEnds n s (yieldNumber n s) := by
  rw [yieldNumber_eq]
  rcases takeCandidate_cases (s.yielding n) with ⟨c, hlt, he, hy, ht⟩ | ⟨hheld, ht⟩ <;> rw [ht]
  · have hjoining : ((s.yielding n).choosing c).transmits = true := (transmits_iff _).2 (.inl hj)
    have hq : (handOverPlain (.claim c 1) ((s.yielding n).choosing c)).sct.queue = (enqueue s.sct.queue (.claim c 1)).1 :=
      handOverPlain_queue _ _ hjoining
    refine .inl ⟨by rw [handOverPlain_dir]; exact hj, (handOverPlain_steady _ _).service, c, by rw [handOverPlain_dir]; rfl, hlt, he,
      fun h => hy ((mem_yielding s n c).2 (.inr h)), fun h => ?_, fun h r m hin => ?_⟩
    · rw [hq]
      exact mem_enqueue_claim _ c 1 h
    · rw [hq] at hin
      exact Body.claim.inj (enqueue_claim_alone _ c 1 h _ hin rfl)
  · exact .inr ⟨rfl, rfl, rfl, rfl, fun c hlt => (hheld c hlt).imp_right (mem_yielding s n c).1⟩

section

variable {s : State} {strap : BitVec 3} {f : Frame} {n : Nat}

/-- A conflict in JOINING: the candidate is yielded, and the frame goes on by the entry under its number. -/
theorem takeFrame_conflict (hn : f.number? = n) (hlt : n < 48) (hm : f.modeKnown) (hc : s.dir.candidate = some n)
    (hj : s.dir.station = .joining) (hjoin : f.isClaimMode 1 = true → f.uid < s.ownUid) (hu : f.uid ≠ s.ownUid) :
    (∀ u, s.entry n = some (.own u) → takeFrame strap f s = ownNumberRule strap n f (yieldNumber n s))
      ∧ ((∀ u, s.entry n ≠ some (.own u)) → takeFrame strap f s = acceptFrame n f (yieldNumber n s)) := by
  have hd : s.discards f = false := discards_false s f (hn ▸ hlt) hm fun _ h hlt => BitVec.lt_irrefl _ (BitVec.lt_trans hlt (hjoin h))
  have hconf : s.conflicts f = true := by
    simp only [State.conflicts, hj, hn, hc, decide_true, Bool.true_and]
    split
    · exact decide_eq_true (hjoin ‹_›)
    · exact decide_eq_true hu
  have he : (yieldNumber n s).entry n = s.entry n := by
    rw [yieldNumber_eq, State.entry, (takeCandidate_dir _).2.2.2.1]
    rfl
  simp only [takeFrame, hd, hn, hconf, if_true, he, Bool.false_eq_true, if_false]
  refine ⟨fun u h => by rw [h], fun h => ?_⟩
  split
  · rename_i u hown
    exact absurd hown (h u)
  · rfl

theorem takeFrame_conflict_gaveUp (hn : f.number? = n) (hlt : n < 48) (hm : f.modeKnown) (hc : s.dir.candidate = some n)
    (hj : s.dir.station = .joining) (hjoin : f.isClaimMode 1 = true → f.uid < s.ownUid) (hu : f.uid ≠ s.ownUid) :
    (takeFrame strap f s).dir.GaveUp n := by
  have hyield : (yieldNumber n s).dir.GaveUp n := takeCandidate_gaveUp (s.yielding n) n ((mem_yielding s n n).2 (.inl rfl))
  obtain ⟨hown, helse⟩ := takeFrame_conflict (strap := strap) hn hlt hm hc hj hjoin hu
  by_cases h : ∃ u, s.entry n = some (.own u)
  · obtain ⟨u, h⟩ := h
    rw [hown u h, ownNumberRule]
    split
    · exact acceptFrame_gaveUp n f _ n (renumber_gaveUp strap n _)
    · rw [defend_dir]
      exact hyield
  · rw [helse fun u hu => h ⟨u, hu⟩]
    exact acceptFrame_gaveUp n f _ n hyield

/-- The acceptance of the frame leaves a part that has yielded where the yield led it. -/
theorem acceptFrame_yieldEnds (k : Nat) (t : State) (h : YieldEnds n s t) : YieldEnds n s (acceptFrame k f t) := by
  have hst := acceptFrame_steady k f t
  have hcand : (acceptFrame k f t).dir.candidate = t.dir.candidate := by rw [acceptFrame_dir]
  have hclaim : ∀ r m, .claim r m ∈ (acceptFrame k f t).sct.queue ↔ .claim r m ∈ t.sct.queue := fun r m => by
    rw [← mem_claims, ← mem_claims, acceptFrame_claims]
  rcases h with ⟨hjoin, hsv, c, hc, hlt, he, hy, hin, halone⟩ | ⟨hno, hc, hq, hsv, hheld⟩
  · exact .inl ⟨hst.station.trans hjoin, hst.service.trans hsv, c, hcand.trans hc, hlt, he, hy, fun h => (hclaim c 1).2 (hin h),
      fun h r m hm => halone h r m ((hclaim r m).1 hm)⟩
  · have hidle : t.transmits = false := by simp [State.transmits, hno]
    exact .inr ⟨hst.station.trans hno, hcand.trans hc, (hst.idle hidle).trans hq, hst.service.trans hsv, hheld⟩

/-! ## Defending and renumbering (R31, R32) -/

/-- A member that hears its own number used goes by the rule of section 2.5. -/
theorem takeFrame_member (u : Uid) (hn : f.number? = n) (hlt : n < 48) (hm : f.modeKnown) (hst : s.dir.station = .member)
    (he : s.entry n = some (.own u)) : takeFrame strap f s = ownNumberRule strap n f s := by
  subst hn
  have hj : s.dir.station ≠ .joining := by rw [hst]; decide
  exact takeFrame_own strap f s u (discards_false s f hlt hm fun h => absurd h hj) (conflicts_outside s f hj) he

/-- A defence out of the hold-down puts the own report into the staging tables (R31, R66). -/
theorem defend_stages (hm : s.dir.station = .member) (hc : s.dir.candidate = some n) (hh : s.org.holdDown = none)
    (hlt : n < s.tdb.staging.length) :
    ∃ r, place (defend n s).tdb.staging n = some { uid := s.ownUid, report := r } ∧ r.seq = s.org.seq
      ∧ (defend n s).org.seq = s.org.seq + 1 ∧ (defend n s).org.holdDown = some 500 := by
  have hseq : (handOverPlain (.claim n 2) s).ownReport.seq = s.org.seq := congrArg Org.seq (handOverPlain_org _ s)
  have huid : (handOverPlain (.claim n 2) s).ownUid = s.ownUid := congrArg (fun p => p.working.uid) (handOverPlain_psr _ s)
  have hown : (handOverPlain (.claim n 2) s).ownNumber = n :=
    ownNumber_member _ n (by rw [handOverPlain_dir, hm]) (by rw [handOverPlain_dir, hc])
  rw [defend_originates n s hm hh]
  refine ⟨_, (originate_stages n _ hown (by rwa [handOverPlain_tdb])).trans (by rw [huid]), hseq, ?_, ?_⟩
  · simp [originate, Org.originated]
  · simp [originate, Org.originated, Config.holdDownMs]

/-- What a member that has renumbered from `n` on hearing `f` is left with: a new candidate with its CLAIM all there is to send, or
NO_NUMBER with nothing to send; the sender entered; the intents lost; the timers of the own report stopped. -/
structure RenumberedOn (n : Nat) (f : Frame) (s t : State) : Prop where
  ends : RenumberEnds n s t
  gaveUp : t.dir.GaveUp n
  yielded : t.dir.yielded = [n]
  outside : t.dir.station ≠ .member
  sender : t.entry n = some f.entry
  service : t.sct.service = none
  slots : t.slots = (loseAllIntents s).slots
  holdDown : t.org.holdDown = none
  refresh : t.org.refresh = none
  seq : t.org.seq = s.org.seq
  shown : ∀ k, k = .numberChange ∨ (loseAllIntents s).shows k → t.shows k

theorem acceptFrame_renumber (hs : s.sized) (hlt : n < 48) : RenumberedOn n f s (acceptFrame n f (renumber strap n s)) := by
  obtain ⟨hentries, -, -, -, -, -, -, hslots, -⟩ := hs
  have hdir := takeCandidate_dir (s.renumbering strap n)
  have hout := renumber_ends strap n s
  have hgave := renumber_gaveUp strap n s
  have hslot : (renumber strap n s).slots = (loseAllIntents s).slots := (takeCandidate_slots (s.renumbering strap n)).trans (renumbering_slots s strap n)
  have horg := (takeCandidate_org (s.renumbering strap n)).trans (renumbering_org s strap n)
  have hshow : ∀ k, k = .numberChange ∨ (loseAllIntents s).shows k → (renumber strap n s).shows k := fun k h =>
    takeCandidate_shown (s.renumbering strap n) k (renumbering_shows s strap n k h)
  rw [← renumber_eq strap n s] at hdir horg
  have hent : (renumber strap n s).dir.entries = s.dir.entries.set n none := hdir.2.2.2.1.trans (renumbering_entries s strap n)
  generalize renumber strap n s = w at *
  obtain ⟨hout, hsv⟩ := hout
  have hnm : w.dir.station ≠ .member := by
    rcases hout with ⟨c, hst, -⟩ | ⟨hst, -⟩ <;> rw [hst] <;> decide
  have hst := acceptFrame_steady n f w
  have hsil := acceptFrame_silent n f w hnm fun i x h => loseAllIntents_stands s hslots i x ⟨by simpa [State.slot, hslot] using h.1, h.2⟩
  have hcand : (acceptFrame n f w).dir.candidate = w.dir.candidate := by rw [acceptFrame_dir]
  have horg' := hsil.org
  rw [horg] at horg'
  exact {
    ends := by rwa [RenumberEnds, hst.station, hcand, hsil.sct]
    gaveUp := acceptFrame_gaveUp n f w n hgave
    yielded := (congrArg Dir.yielded (acceptFrame_dir n f w)).trans hdir.2.2.1
    outside := hst.station ▸ hnm
    sender := acceptFrame_enters n f w (by simp [State.entry, place, hent, hentries, hlt]) (by rwa [hent, List.length_set, hentries])
    service := hst.service.trans hsv
    slots := hsil.slots.trans hslot
    holdDown := congrArg Org.holdDown horg'
    refresh := congrArg Org.refresh horg'
    seq := (congrArg Org.seq horg' :)
    shown := fun k h => hst.shown k (hshow k h) }

end

/-- Settles O21: yield, discard, defence within and out of the hold-down, renumbering. -/
theorem joiningYieldsMemberDefendsOrRenumbers : Obligations.JoiningYieldsMemberDefendsOrRenumbers := by
  intro s strap f rest n hoff hsized hn hlt hm hc
  have taken : s.dir.station = .joining ∨ s.dir.station = .member →
      exec (.takeReceivedFrame strap) s = .next (takeFrame strap f (s.withRxQueue rest)) := fun h =>
    exec_takeReceivedFrame strap s f rest hoff (active_of_transmits s ((transmits_iff s).2 h))
  refine ⟨fun hj hjoin hu => ?_, fun hj hjoin hu => ?_, fun u hst he hhear hh => ?_, fun u hst he hhear hh => ?_, fun u hst he hmode hu => ?_⟩
  · obtain ⟨hy, hcand, hrounds, htimer⟩ :=
      takeFrame_conflict_gaveUp (s := s.withRxQueue rest) (strap := strap) hn hlt hm hc hj hjoin hu
    refine ⟨_, taken (.inl hj), hy, hcand, hrounds, htimer, fun hown => ?_⟩
    rw [(takeFrame_conflict (s := s.withRxQueue rest) (strap := strap) hn hlt hm hc hj hjoin hu).2 hown]
    exact acceptFrame_yieldEnds n _ (yieldNumber_ends n (s.withRxQueue rest) hj)
  · rw [taken (.inl hj)]
    have hd : (s.withRxQueue rest).discards f = true := by
      simp [State.discards, hj, hn, hc, modeJoining, hjoin, hu]
    rw [takeFrame, hd]
    rfl
  · rw [taken (.inr hst), takeFrame_member (s := s.withRxQueue rest) u hn hlt hm hst he, ownNumberRule_defends strap n f (s.withRxQueue rest) hhear,
      defend_heldDown n (s.withRxQueue rest) hst hh]
  · obtain ⟨r, hstage, hseq, hnext, hhold⟩ := defend_stages (s := s.withRxQueue rest) hst hc hh (by rw [← hsized.2.1] at hlt; exact hlt)
    refine ⟨_, r, taken (.inr hst), ?_⟩
    rw [takeFrame_member (s := s.withRxQueue rest) u hn hlt hm hst he, ownNumberRule_defends strap n f (s.withRxQueue rest) hhear]
    exact ⟨defend_dir .., defend_slots .., hstage, hseq, hnext, hhold⟩
  · refine ⟨_, taken (.inr hst), ?_⟩
    rw [takeFrame_member (s := s.withRxQueue rest) u hn hlt hm hst he, ownNumberRule_renumbers strap n f (s.withRxQueue rest) hmode hu]
    have h := acceptFrame_renumber (s := s.withRxQueue rest) (strap := strap) (f := f) (n := n) hsized hlt
    obtain ⟨-, hcand, hrounds, htimer⟩ := h.gaveUp
    refine ⟨?_, hrounds, htimer, ownNumber_outside _ h.outside, h.yielded, hcand, h.shown _ (.inl rfl), h.sender, h.service, h.holdDown,
      h.refresh, h.seq, fun i x hi hx => ⟨(congrArg (·[i]?) h.slots).trans (loseAllIntents_slot (s.withRxQueue rest) i x hi hx),
        h.shown _ (.inr (loseIntents_shows 8 i x (s.withRxQueue rest) hi hx))⟩⟩
    rcases h.ends with ⟨c, hjoin, hc', hlt', -, he', hq⟩ | ⟨hno, hc', hq, hheld⟩
    · exact .inl ⟨c, hjoin, hc', hlt', he', hq⟩
    · refine .inr ⟨hno, hc', hq, fun c hlt' => ?_⟩
      by_cases hcn : c = n
      · rw [hcn, he]
        exact Option.some_ne_none _
      · exact hheld c hlt' hcn

end Sys2Proof.Machine
end

section
/-! # The law of the directory -/

namespace Sys2Proof.Machine

/-! ## The parts of the law, block by block -/

/-- The law of the directory of a part whose unique ID is `u`, read from the block alone (R19): a unique ID stands under at most one
number, the own entry in MEMBER under the candidate, and no peer has the own unique ID. -/
structure Dir.Law (x : Dir) (u : Uid) : Prop where
  once : ∀ n m e f, place x.entries n = some e → place x.entries m = some f → e.uid = f.uid → n = m
  own : ∀ n w, place x.entries n = some (.own w) → w = u ∧ x.station = .member ∧ x.candidate = some n
  peer : ∀ n w l, place x.entries n = some (.peer w l) → w ≠ u

/-- The working unique ID is that of store words 0 and 1, which no write in progress names (R175, R178, R180). -/
structure Psr.Identified (p : Psr) : Prop where
  stored : p.working.uid = storedUid p.store
  spared : ∀ w, p.busy = some w → 2 ≤ w.word

theorem directoryLaw_iff (s : State) :
    s.directoryLaw ↔ s.dir.Law s.ownUid ∧ (∀ f ∈ s.scr.rxQueue, f.uid ≠ s.ownUid) ∧ s.psr.Identified :=
  ⟨fun ⟨once, own, peer, hq, hu, hb⟩ => ⟨⟨once, own, peer⟩, hq, hu, hb⟩,
    fun ⟨⟨once, own, peer⟩, hq, hu, hb⟩ => ⟨once, own, peer, hq, hu, hb⟩⟩

/-- A passage that leaves the parameter store alone and lets no frame join the receive queue keeps the law when it keeps that of the
directory. -/
theorem directoryLaw_of_dir {s t : State} (hq : t.scr.rxQueue ⊆ s.scr.rxQueue) (hp : t.psr = s.psr)
    (hd : s.dir.Law s.ownUid → t.dir.Law s.ownUid) (h : s.directoryLaw) : t.directoryLaw := by
  obtain ⟨hl, hf, hi⟩ := (directoryLaw_iff s).1 h
  have hu : t.ownUid = s.ownUid := congrArg (fun p => p.working.uid) hp
  exact (directoryLaw_iff t).2 ⟨hu ▸ hd hl, fun f hm => hu ▸ hf f (hq hm), hp ▸ hi⟩

/-- A passage that touches neither receiver nor directory nor store keeps the law. -/
theorem directoryLaw_of_blocks {s t : State} (hd : t.dir = s.dir) (hr : t.scr = s.scr) (hp : t.psr = s.psr) (h : s.directoryLaw) :
    t.directoryLaw :=
  directoryLaw_of_dir (by rw [hr]; exact List.Subset.refl _) hp (fun hl => hd ▸ hl) h

/-! ## Changes of a lawful directory -/

namespace Dir.Law

variable {x y : Dir} {u : Uid}

/-- Entries may go, and the own entry with the station state it needs. -/
theorem of_fewer (h : x.Law u) (hs : ∀ n e, place y.entries n = some e → place x.entries n = some e)
    (ho : ∀ n w, place y.entries n = some (.own w) → y.station = .member ∧ y.candidate = some n) : y.Law u where
  once := fun n m e f he hf => h.once n m e f (hs n e he) (hs m f hf)
  own := fun n w he => ⟨(h.own n w (hs n _ he)).1, ho n w he⟩
  peer := fun n w l he => h.peer n w l (hs n _ he)

/-- An empty directory is lawful in every station state. -/
theorem of_empty (h : ∀ n, place x.entries n = none) : x.Law u :=
  ⟨fun n _ _ _ he => (by cases (h n).symm.trans he), fun n _ he => (by cases (h n).symm.trans he),
    fun n _ _ he => (by cases (h n).symm.trans he)⟩

/-- Outside MEMBER there is no own entry, so the station state may change. -/
theorem of_outside (h : x.Law u) (hx : x.station ≠ .member) (he : y.entries = x.entries) : y.Law u :=
  h.of_fewer (fun n e hn => by rwa [he] at hn) fun n w hn => absurd (h.own n w (by rwa [he] at hn)).2.1 hx

/-- An entry may be emptied. -/
theorem cleared (h : x.Law u) (n : Nat) : Dir.Law { x with entries := x.entries.set n none } u := by
  have hs : ∀ m e, place (x.entries.set n none) m = some e → place x.entries m = some e := fun m e hm =>
    (place_set_eq_some hm).elim (fun ⟨_, hn⟩ => by cases hn) And.right
  exact h.of_fewer hs fun m w hm => (h.own m w (hs m _ hm)).2

/-- With the own entry emptied the station state may change. -/
theorem of_ownCleared {n : Nat} {w : Uid} (h : x.Law u) (hn : place x.entries n = some (.own w)) (he : y.entries = x.entries.set n none) :
    y.Law u := by
  refine of_fewer (h.cleared n) (fun m e hm => by rwa [he] at hm) fun m v hm => ?_
  rw [he] at hm
  rcases place_set_eq_some hm with ⟨_, hm⟩ | ⟨hmn, hm⟩
  · cases hm
  · exact absurd (Option.some.inj ((h.own m v hm).2.2.symm.trans (h.own n w hn).2.2)) hmn

/-- A peer may be entered under a number when its unique ID stands under no other. -/
theorem entered {n : Nat} {v : Uid} {l : Nat} (h : x.Law u) (hv : v ≠ u)
    (hfree : ∀ k e, place x.entries k = some e → e.uid = v → k = n) :
    Dir.Law { x with entries := x.entries.set n (some (.peer v l)) } u where
  once := fun k m e f he hf huid => by
    rcases place_set_eq_some he with ⟨rfl, hx⟩ | ⟨_, he'⟩ <;> rcases place_set_eq_some hf with ⟨rfl, hy⟩ | ⟨_, hf'⟩
    · rfl
    · cases hx
      exact (hfree m f hf' huid.symm).symm
    · cases hy
      exact hfree k e he' huid
    · exact h.once k m e f he' hf' huid
  own := fun k w he => by
    rcases place_set_eq_some he with ⟨_, hx⟩ | ⟨_, he'⟩
    · cases hx
    · exact h.own k w he'
  peer := fun k w m he => by
    rcases place_set_eq_some he with ⟨_, hx⟩ | ⟨_, he'⟩
    · cases hx
      exact hv
    · exact h.peer k w m he'

/-- Outside MEMBER nobody has the own unique ID. -/
theorem uid_ne_own {n : Nat} {e : DirEntry} (h : x.Law u) (hx : x.station ≠ .member) (he : place x.entries n = some e) : e.uid ≠ u := by
  cases e with
  | peer w l => exact h.peer n w l he
  | own w => exact absurd (h.own n w he).2.1 hx

/-- Entry to MEMBER under the candidate (R30). -/
theorem joined {n : Nat} (h : x.Law u) (hx : x.station ≠ .member) (he : y.entries = x.entries.set n (some (.own u)))
    (hs : y.station = .member) (hc : y.candidate = some n) : y.Law u := by
  have cases_of : ∀ {k e}, place y.entries k = some e → k = n ∧ e = .own u ∨ place x.entries k = some e := fun {k e} hk => by
    rw [he] at hk
    rcases place_set_eq_some hk with ⟨hkn, hk⟩ | ⟨_, hk⟩
    · exact .inl ⟨hkn, (Option.some.inj hk).symm⟩
    · exact .inr hk
  refine ⟨fun k m e f hk hm huid => ?_, fun k w hk => ?_, fun k w l hk => ?_⟩
  · rcases cases_of hk with ⟨rfl, rfl⟩ | hk <;> rcases cases_of hm with ⟨rfl, rfl⟩ | hm
    · rfl
    · exact absurd huid.symm (h.uid_ne_own hx hm)
    · exact absurd huid (h.uid_ne_own hx hk)
    · exact h.once k m e f hk hm huid
  · rcases cases_of hk with ⟨rfl, hw⟩ | hk
    · exact ⟨DirEntry.own.inj hw, hs, hc⟩
    · exact absurd (h.own k w hk).2.1 hx
  · rcases cases_of hk with ⟨_, hw⟩ | hk
    · cases hw
    · exact h.peer k w l hk

/-- A millisecond changes no unique ID (R19). -/
theorem tick (h : x.Law u) (muted : Bool) : (x.tick muted).Law u := by
  have held : ∀ {n e}, place (x.tick muted).entries n = some e → ∃ d, place x.entries n = some d ∧ e = d.tick := fun {n e} hn => by
    obtain ⟨d, hd, rfl⟩ := Option.map_eq_some_iff.1 ((place_map DirEntry.tick x.entries n).symm.trans hn)
    exact ⟨d, hd, rfl⟩
  have huid : ∀ d : DirEntry, d.tick.uid = d.uid := fun d => by cases d <;> rfl
  refine ⟨fun n m e f he hf heq => ?_, fun n w he => ?_, fun n w l he => ?_⟩
  · obtain ⟨d, hd, rfl⟩ := held he
    obtain ⟨d', hd', rfl⟩ := held hf
    exact h.once n m d d' hd hd' (by rwa [huid, huid] at heq)
  · obtain ⟨d, hd, ht⟩ := held he
    cases d with
    | peer v l => cases ht
    | own v =>
      cases ht
      exact h.own n w hd
  · obtain ⟨d, hd, ht⟩ := held he
    cases d with
    | peer v l =>
      cases ht
      exact h.peer n w _ hd
    | own v => cases ht

end Dir.Law

/-! ## Purge and acceptance (R21, R23) -/

/-- What a purge does: the entry of a peer goes with its views; under another number there is nothing to purge. -/
theorem purge_cases (n : Nat) (s : State) :
    (∃ u l, s.entry n = some (.peer u l) ∧ purge n s = purgeViews n u (setEntry n none s))
      ∨ (∀ u l, s.entry n ≠ some (.peer u l)) ∧ purge n s = s := by
  unfold purge
  split
  · rename_i u l he
    exact .inl ⟨u, l, he, rfl⟩
  · rename_i hne
    exact .inr ⟨fun u l he => hne u l he, rfl⟩

/-- The number found for a unique ID holds it (R19). -/
theorem numberOf_holds {s : State} {u : Uid} {k : Nat} (h : s.numberOf u = some k) : ∃ e, s.entry k = some e ∧ e.uid = u := by
  obtain ⟨hk, hx, -⟩ := List.findIdx?_eq_some_iff_getElem.1 h
  have hx' : (s.dir.entries[k]).map DirEntry.uid = some u := by simpa using hx
  obtain ⟨e, he, hu⟩ := Option.map_eq_some_iff.1 hx'
  exact ⟨e, (place_some _ _ _).2 (by rw [List.getElem?_eq_getElem hk, he]), hu⟩

/-- Without such a number nobody has the unique ID (R19). -/
theorem numberOf_none {s : State} {u : Uid} {k : Nat} {e : DirEntry} (h : s.numberOf u = none) (he : s.entry k = some e) : e.uid ≠ u := by
  have hn := List.findIdx?_eq_none_iff.1 h (some e) (List.mem_of_getElem? ((place_some _ _ _).1 he))
  simpa using hn

theorem purge_dirLaw (n : Nat) (s : State) (u : Uid) (h : s.dir.Law u) : (purge n s).dir.Law u := by
  rcases purge_cases n s with ⟨v, l, -, hp⟩ | ⟨-, hp⟩ <;> rw [hp]
  · rw [purgeViews_dir]
    exact h.cleared n
  · exact h

theorem purgeUid_dirLaw (v : Uid) (s : State) (u : Uid) (h : s.dir.Law u) : (purgeUid v s).dir.Law u := by
  unfold purgeUid
  split
  · exact purge_dirLaw _ s u h
  · exact h

/-- After the purge of a peer's unique ID nobody has it (R21). -/
theorem purgeUid_frees {v u : Uid} {s : State} (h : s.dir.Law u) (hv : v ≠ u) {k : Nat} {e : DirEntry}
    (he : (purgeUid v s).entry k = some e) : e.uid ≠ v := by
  unfold purgeUid at he
  split at he
  · rename_i m hm
    obtain ⟨d, hd, hdv⟩ := numberOf_holds hm
    rcases purge_cases m s with ⟨w, l, -, hp⟩ | ⟨hne, -⟩
    · rw [hp, State.entry, purgeViews_dir] at he
      rcases place_set_eq_some he with ⟨_, he⟩ | ⟨hkm, he⟩
      · cases he
      · exact fun hev => hkm (h.once k m e d he hd (hev.trans hdv.symm))
    · cases d with
      | peer w l => exact absurd hd (hne w l)
      | own w => exact absurd (hdv.symm.trans (h.own m w hd).1) hv
  · exact numberOf_none ‹_› he

/-- A peer installed where its unique ID has been purged. -/
theorem install_dirLaw (n : Nat) (f : Frame) (s : State) (u : Uid) (h : s.dir.Law u) (hf : f.uid ≠ u) :
    (install n f (purgeUid f.uid s)).dir.Law u :=
  (purgeUid_dirLaw f.uid s u h).entered hf fun _ _ he huid => absurd huid (purgeUid_frees h hf he)

theorem acceptFrame_dirLaw (n : Nat) (f : Frame) (s : State) (u : Uid) (h : s.dir.Law u) (hf : f.uid ≠ u) :
    (acceptFrame n f s).dir.Law u := by
  have accepted : (accept n f s).2.dir.Law u := by
    unfold accept
    split
    · rename_i v l he
      split
      · rename_i hv
        exact h.entered hf fun k e hk huid => h.once k n e _ hk he (huid.trans hv.symm)
      · split
        · exact install_dirLaw n f _ u (purge_dirLaw n s u h) hf
        · exact h
    · exact h
    · exact install_dirLaw n f s u h hf
  unfold acceptFrame
  split
  · exact h
  · rename_i he
    rw [he] at accepted
    rw [dispatch_dir]
    exact accepted

/-! ## Joining, renumbering, membership -/

/-- The choice of a number enters nobody (R26). -/
theorem takeCandidate_entries (s : State) : (takeCandidate s).dir.entries = s.dir.entries := by
  obtain ⟨-, -, -, he, -⟩ := takeCandidate_dir s
  exact he

theorem enterJoining_dirLaw (strap : BitVec 3) (ys : List Nat) (s : State) (u : Uid) (h : s.dir.Law u) (hs : s.dir.station ≠ .member) :
    (enterJoining strap ys s).dir.Law u := h.of_outside hs (takeCandidate_entries _)

theorem yieldNumber_dirLaw (n : Nat) (s : State) (u : Uid) (h : s.dir.Law u) (hs : s.dir.station = .joining) :
    (yieldNumber n s).dir.Law u := by
  rw [yieldNumber_eq]
  exact h.of_outside (by rw [hs]; decide) (takeCandidate_entries (s.yielding n))

theorem renumber_dirLaw (strap : BitVec 3) (n : Nat) (s : State) (u w : Uid) (h : s.dir.Law u) (hn : s.entry n = some (.own w)) :
    (renumber strap n s).dir.Law u := by
  refine h.of_ownCleared hn ?_
  rw [renumber_eq, takeCandidate_entries, renumbering_entries]

/-- Only the candidate of a part in JOINING is in conflict (R28). -/
theorem conflicts_candidate {s : State} {f : Frame} (h : s.conflicts f = true) :
    s.dir.station = .joining ∧ s.dir.candidate = some f.number? := by
  simp only [State.conflicts, Bool.and_eq_true, decide_eq_true_eq] at h
  obtain ⟨hc, -⟩ := h
  exact hc

theorem takeFrame_dirLaw (strap : BitVec 3) (f : Frame) (s : State) (u : Uid) (h : s.dir.Law u) (hf : f.uid ≠ u) :
    (takeFrame strap f s).dir.Law u := by
  unfold takeFrame
  dsimp only
  split
  · exact h
  · have hy : (if s.conflicts f = true then yieldNumber f.number? s else s).dir.Law u := by
      split
      · exact yieldNumber_dirLaw _ s u h (conflicts_candidate ‹_›).1
      · exact h
    generalize (if s.conflicts f = true then yieldNumber f.number? s else s) = t at hy
    split
    · rename_i w hw
      unfold ownNumberRule
      split
      · exact acceptFrame_dirLaw _ f _ u (renumber_dirLaw strap _ _ u w hy hw) hf
      · rw [defend_dir]
        exact hy
    · exact acceptFrame_dirLaw _ f _ u hy hf

theorem takeOldest_keepsDirectory (strap : BitVec 3) (s : State) (h : s.directoryLaw) : (takeOldest strap s).directoryLaw := by
  unfold takeOldest
  split
  · split
    · rename_i f rest hq
      have hf : f.uid ≠ s.ownUid := ((directoryLaw_iff s).1 h).2.1 f (by simp [hq])
      refine directoryLaw_of_dir (s := s) ?_ (by rw [takeFrame_psr]) (fun hl => takeFrame_dirLaw strap f _ _ hl hf) h
      rw [takeFrame_scr, hq]
      exact List.subset_cons_self f rest
    · exact h
  · exact h

theorem roundExpired_keepsDirectory (s : State) (h : s.directoryLaw) : (roundExpired s).directoryLaw := by
  refine directoryLaw_of_dir (by rw [roundExpired_scr]; exact List.Subset.refl _) (roundExpired_psr s) (fun hl => ?_) h
  unfold roundExpired
  split
  · rename_i n hj _ _
    have hout : s.dir.station ≠ .member := by rw [hj]; decide
    split
    · rw [handOverPlain_dir]
      exact hl.of_outside hout rfl
    · refine hl.joined (n := n) hout ?_ ?_ ?_ <;> rw [enterMember, originate_dir] <;> rfl
  · exact hl

theorem noNumberExpired_keepsDirectory (strap : BitVec 3) (s : State) (h : s.directoryLaw) : (noNumberExpired strap s).directoryLaw := by
  refine directoryLaw_of_dir (by rw [noNumberExpired_scr]; exact List.Subset.refl _) (noNumberExpired_psr strap s) (fun hl => ?_) h
  unfold noNumberExpired
  split
  · rename_i hst _
    exact enterJoining_dirLaw strap [] s _ hl (by rw [hst]; decide)
  · exact hl

theorem startStation_keepsDirectory (strap : BitVec 3) (p : List Byte) (s : State) (h : s.directoryLaw) :
    (startStation strap p s).directoryLaw := by
  refine directoryLaw_of_dir (by rw [startStation_scr]; exact List.Subset.refl _) (startStation_psr strap p s) (fun hl => ?_) h
  unfold startStation
  split
  · rename_i hst
    exact enterJoining_dirLaw strap [] s _ hl (by rw [hst]; decide)
  · exact hl

/-! ## The receive queue -/

theorem claimCompleted_dirLaw (r : Nat) (s : State) (u : Uid) (h : s.dir.Law u) : (claimCompleted r s).dir.Law u := by
  rw [claimCompleted_eq]
  split
  · exact ⟨h.once, h.own, h.peer⟩
  · exact h

theorem resolveAttempt_dirLaw (c : Bool) (v : Service) (s : State) (u : Uid) (h : s.dir.Law u) : (resolveAttempt c v s).dir.Law u := by
  cases c with
  | false => exact (failAttempt_dir v s).symm ▸ h
  | true =>
    show (completeAttempt v s).dir.Law u
    unfold completeAttempt
    dsimp only
    split
    · exact claimCompleted_dirLaw _ _ u h
    · rw [completionReport_dir]
      exact h
    · exact h

theorem decideAttempt_keepsDirectory (c : Bool) (s : State) (h : s.directoryLaw) : (decideAttempt c s).directoryLaw := by
  refine directoryLaw_of_dir (by rw [decideAttempt_scr]; exact List.Subset.refl _) (decideAttempt_psr c s) (fun hl => ?_) h
  unfold decideAttempt
  split
  · split
    · exact hl
    · exact resolveAttempt_dirLaw c _ s _ hl
    · exact hl
  · exact hl

theorem endSend_keepsDirectory (s : State) (h : s.directoryLaw) : (endSend s).directoryLaw := by
  refine directoryLaw_of_dir (by rw [endSend_scr]; exact List.Subset.refl _) (endSend_psr s) (fun hl => ?_) h
  unfold endSend
  split
  · split
    · exact resolveAttempt_dirLaw _ _ s _ hl
    · exact hl
    · exact hl
  · exact hl

/-- Only a peer's frame joins the receive queue (R5, R6). -/
theorem routeEpisode_keepsDirectory (e : Episode) (s : State) (h : s.directoryLaw) : (routeEpisode e s).directoryLaw := by
  unfold routeEpisode
  split
  · exact decideAttempt_keepsDirectory _ s h
  · rename_i bytes f
    split
    · split
      · exact decideAttempt_keepsDirectory _ s h
      · exact h
    · rename_i hf
      unfold receiveFrame
      split
      · split
        · obtain ⟨hl, hq, hi⟩ := (directoryLaw_iff s).1 h
          refine (directoryLaw_iff _).2 ⟨hl, fun g hg => ?_, hi⟩
          rcases List.mem_append.1 hg with hg | hg
          · exact hq g hg
          · exact List.mem_singleton.1 hg ▸ hf
        · exact h
      · exact h

theorem setChannel_keepsDirectory (x : Scr) (s : State) (hx : x.rxQueue = s.scr.rxQueue) (h : s.directoryLaw) :
    (setChannel x s).directoryLaw :=
  directoryLaw_of_dir (by rw [setChannel_scr, hx]; exact List.Subset.refl _) (setChannel_psr x s) (fun hl => (setChannel_dir x s).symm ▸ hl) h

theorem endEpisode_keepsDirectory (levels : List Bool) (s : State) (h : s.directoryLaw) : (endEpisode levels s).directoryLaw := by
  unfold endEpisode
  split
  · exact routeEpisode_keepsDirectory _ _ (setChannel_keepsDirectory _ s (record_keeps _ _).1 h)
  · exact h

theorem startFrame_keepsDirectory (s : State) (h : s.directoryLaw) : (startFrame s).directoryLaw := by
  have hgap : (stopGap s).directoryLaw := directoryLaw_of_blocks (stopGap_dir s) (stopGap_scr s) (stopGap_psr s) h
  unfold startFrame
  split
  · exact h
  · dsimp only
    split
    · exact hgap
    · exact setChannel_keepsDirectory (stopGap s).scr.frameStart _ rfl hgap

theorem endCarrier_keepsDirectory (s : State) (h : s.directoryLaw) : (endCarrier s).directoryLaw := by
  refine directoryLaw_of_dir ?_ (endCarrier_psr s) (fun hl => (endCarrier_dir s).symm ▸ hl) h
  unfold endCarrier
  split
  · dsimp only
    split
    · split <;> exact List.Subset.refl _
    · exact List.Subset.refl _
  · exact List.Subset.refl _

theorem darkExpired_keepsDirectory (s : State) (h : s.directoryLaw) : (darkExpired s).directoryLaw := by
  unfold darkExpired
  split
  · exact setChannel_keepsDirectory _ s rfl h
  · exact h

/-! ## The parameter store (R175, R177, R180) -/

/-- A passage that leaves directory and receive queue alone keeps the law when the store stays identified with the same unique ID. -/
theorem directoryLaw_of_psr {s t : State} (hd : t.dir = s.dir) (hr : t.scr = s.scr) (hu : t.ownUid = s.ownUid)
    (hi : s.psr.Identified → t.psr.Identified) (h : s.directoryLaw) : t.directoryLaw := by
  obtain ⟨hl, hq, hp⟩ := (directoryLaw_iff s).1 h
  exact (directoryLaw_iff t).2 ⟨by rwa [hd, hu], by rwa [hr, hu], hi hp⟩

theorem loadWord_keepsDirectory (s : State) (h : s.directoryLaw) : (loadWord s).directoryLaw := by
  unfold loadWord Psr.readNext
  split
  · split <;> exact directoryLaw_of_psr (t := setPsr _ s) rfl rfl rfl (fun hi => ⟨hi.stored, hi.spared⟩) h
  · exact h

theorem releaseReset_keepsDirectory (s : State) (h : s.directoryLaw) : (releaseReset s).directoryLaw := by
  unfold releaseReset
  split
  · exact directoryLaw_of_psr (t := s.released) rfl rfl rfl (fun hi => ⟨hi.stored, hi.spared⟩) h
  · exact h

/-- A word from 2 on has no part in the unique ID (R175). -/
theorem storedUid_set (store : List StoreWord) (n : Nat) (w : StoreWord) (h : 2 ≤ n) : storedUid (store.set n w) = storedUid store := by
  have read : ∀ m, m < 2 → dataRead (store.set n w) m = dataRead store m := fun m hm => by
    rw [dataRead, List.getElem?_set_ne (by omega), dataRead]
  rw [storedUid, read 0 (by decide), read 1 (by decide), storedUid]

theorem endStoreWrite_keepsDirectory (s : State) (h : s.directoryLaw) : (endStoreWrite s).directoryLaw := by
  unfold endStoreWrite
  split
  · rename_i w hw
    exact directoryLaw_of_psr (s := s) (t := setPsr _ s) rfl rfl rfl
      (fun hi => ⟨hi.stored.trans (storedUid_set _ _ _ (hi.spared w hw)).symm, fun _ hb => by cases hb⟩) h
  · exact h

/-- WRITE STORE WORD names no word of the unique ID (R180). -/
theorem writeStoreWord_keepsDirectory (p : List Byte) (s : State) (h : s.directoryLaw) : (writeStoreWord p s).directoryLaw := by
  unfold writeStoreWord
  dsimp only
  split
  · exact h
  · rename_i hn
    split
    · exact h
    · split
      · exact h
      · refine directoryLaw_of_psr (s := s) (t := setPsr _ s) rfl rfl rfl (fun hi => ⟨hi.stored, fun w hw => ?_⟩) h
        cases hw
        exact Nat.le_of_not_lt fun hlt => hn (.inr hlt)

/-- What a load's end leaves of the blocks the law reads (R177, R179). -/
theorem endLoad_blocks (s : State) (hl : s.loadRuns = true) :
    (endLoad s).psr = s.psr.loaded ∧ (endLoad s).dir.entries = s.dir.entries ∧ (endLoad s).scr.rxQueue = s.scr.rxQueue := by
  simp only [endLoad, hl, if_true]
  by_cases hf : s.psr.firstLoad = true <;> by_cases hu : s.psr.loaded.hasFault = true <;>
    simp [hf, hu, enterFaulted, setStation, seedGenerator, setPsr]

theorem endLoad_keepsDirectory (s : State) (h : s.directoryLaw) : (endLoad s).directoryLaw := by
  by_cases hl : s.loadRuns = true
  · obtain ⟨hp, he, hq⟩ := endLoad_blocks s hl
    obtain ⟨hd, hf, hi⟩ := (directoryLaw_iff s).1 h
    have hst : s.dir.station ≠ .member := by
      simp only [State.loadRuns, Bool.and_eq_true, decide_eq_true_eq] at hl
      rw [hl.1]
      decide
    have hu : (endLoad s).ownUid = s.ownUid := by
      rw [State.ownUid, hp]
      exact hi.stored.symm
    refine (directoryLaw_iff _).2 ⟨hu ▸ hd.of_outside hst he, by rwa [hq, hu], ?_⟩
    rw [hp]
    exact ⟨rfl, hi.spared⟩
  · rwa [endLoad, if_neg hl]

/-! ## Resets, a millisecond -/

theorem deviceReset_dirLaw (u : Uid) : Dir.deviceReset.Law u := .of_empty fun n => place_replicate_none 48 n

theorem deviceReset_directoryLaw (s : State) : (deviceReset s).directoryLaw :=
  (directoryLaw_iff _).2 ⟨deviceReset_dirLaw _, fun _ hf => absurd hf List.not_mem_nil, rfl, fun _ hb => by cases hb⟩

theorem restartBlocks_keepsDirectory (s : State) (h : s.directoryLaw) : (restartBlocks s).directoryLaw := by
  obtain ⟨-, -, hi⟩ := (directoryLaw_iff s).1 h
  exact (directoryLaw_iff _).2 ⟨deviceReset_dirLaw _, fun _ hf => absurd hf List.not_mem_nil, hi.stored, hi.spared⟩

theorem restart_keepsDirectory (p : List Byte) (s : State) (h : s.directoryLaw) : (restart p s).directoryLaw := by
  have hr := restartBlocks_keepsDirectory (respondOk cmdRestart [] s) h
  unfold restart
  split
  · exact h
  · split
    · exact h
    · dsimp only
      split
      · exact directoryLaw_of_blocks (catchUpAll_dir _) (catchUpAll_scr _) (catchUpAll_psr _) hr
      · exact hr

theorem tickAll_keepsDirectory (s : State) (h : s.directoryLaw) : (tickAll s).directoryLaw := by
  obtain ⟨hl, hq, hi⟩ := (directoryLaw_iff s).1 h
  refine (directoryLaw_iff _).2 ⟨hl.tick _, ?_, hi.stored, fun w hw => ?_⟩
  · have hrx : (tickAll s).scr.rxQueue = s.scr.rxQueue := by
      show (s.scr.tick _).rxQueue = _
      unfold Scr.tick
      split <;> rfl
    rwa [hrx]
  · obtain ⟨v, hv, rfl⟩ := Option.map_eq_some_iff.1 hw
    exact hi.spared v hv

/-! ## Every row, every step -/

theorem live_keepsDirectory (f : State → State) (s : State) (hf : s.directoryLaw → (f s).directoryLaw) (h : s.directoryLaw) :
    (live f s).directoryLaw := by
  unfold live
  split
  · exact h
  · exact hf h

/-- A row outside device reset that touches none of the blocks the law reads. -/
theorem live_directoryLaw (f : State → State) (s : State) (hd : (f s).dir = s.dir) (hr : (f s).scr = s.scr) (hp : (f s).psr = s.psr)
    (h : s.directoryLaw) : (live f s).directoryLaw := live_keepsDirectory f s (directoryLaw_of_blocks hd hr hp) h

/-- A command transaction changes the port alone, but for what the command does with its payload (R161). -/
theorem takeCommand_keepsDirectory (c : Byte) (agrees : List Byte → Bool) (rest : List Byte) (act : List Byte → State → State) (s : State)
    (ha : ∀ p u, State.directoryLaw u → (act p u).directoryLaw) (h : s.directoryLaw) : (takeCommand c agrees rest act s).directoryLaw := by
  have hz : (clockZeros (rest.length + 1) s).directoryLaw := h
  unfold takeCommand endTransaction
  dsimp only
  split
  · exact hz
  · split
    · exact hz
    · split
      · exact hz
      · split
        · exact ha _ _ hz
        · exact hz

/-- A command that touches none of the blocks the law reads. -/
theorem takeCommand_directoryLaw (c : Byte) (agrees : List Byte → Bool) (rest : List Byte) (act : List Byte → State → State) (s : State)
    (hd : ∀ p u, (act p u).dir = u.dir) (hr : ∀ p u, (act p u).scr = u.scr) (hp : ∀ p u, (act p u).psr = u.psr) (h : s.directoryLaw) :
    (takeCommand c agrees rest act s).directoryLaw :=
  takeCommand_keepsDirectory c agrees rest act s (fun p u => directoryLaw_of_blocks (hd p u) (hr p u) (hp p u)) h

/-- Every row keeps the law of the directory, in every state that obeys it. -/
theorem exec_keepsDirectory (c : Instr) (s t : State) (h : s.directoryLaw) (hn : exec c s = .next t) : t.directoryLaw := by
  cases c <;> cases hn
  case deviceReset => exact deviceReset_directoryLaw s
  case resetRelease => exact releaseReset_keepsDirectory s h
  case loadEnd => exact live_keepsDirectory _ s (endLoad_keepsDirectory s) h
  case pinSample mute lol => exact live_directoryLaw _ s (samplePins_dir ..) (samplePins_scr ..) (samplePins_psr ..) h
  case frameStart => exact live_keepsDirectory _ s (startFrame_keepsDirectory s) h
  case carrierEnd => exact live_keepsDirectory _ s (endCarrier_keepsDirectory s) h
  case episodeEnd levels => exact live_keepsDirectory _ s (endEpisode_keepsDirectory levels s) h
  case darkTimerExpiry => exact live_keepsDirectory _ s (darkExpired_keepsDirectory s) h
  case takeIntoService => exact live_directoryLaw _ s (takeService_dir s) (takeService_scr s) (takeService_psr s) h
  case quietGapExpiry => exact live_directoryLaw _ s (enterSend_dir s) (enterSend_scr s) (enterSend_psr s) h
  case sendEnd => exact live_keepsDirectory _ s (endSend_keepsDirectory s) h
  case echoCheckClose => exact live_directoryLaw _ s (closeEcho_dir s) (closeEcho_scr s) (closeEcho_psr s) h
  case takeReceivedFrame strap => exact live_keepsDirectory _ s (takeOldest_keepsDirectory strap s) h
  case peerLifetimeExpiry n =>
    exact live_keepsDirectory _ s (directoryLaw_of_dir (by rw [purge_scr]; exact List.Subset.refl _) (purge_psr n s) (purge_dirLaw n s _)) h
  case claimRoundTimerExpiry => exact live_keepsDirectory _ s (roundExpired_keepsDirectory s) h
  case noNumberTimerExpiry strap => exact live_keepsDirectory _ s (noNumberExpired_keepsDirectory strap s) h
  case traceWordSend d => exact live_directoryLaw _ s (sendWord_dir ..) (sendWord_scr ..) (sendWord_psr ..) h
  case traceSyncMatch heard => exact live_directoryLaw _ s (matchSync_dir ..) (matchSync_scr ..) (matchSync_psr ..) h
  case traceWordJudgement d levels => exact live_directoryLaw _ s (judgeHeard_dir ..) (judgeHeard_scr ..) (judgeHeard_psr ..) h
  case huntTimerExpiry d => exact live_directoryLaw _ s (huntExpired_dir ..) (huntExpired_scr ..) (huntExpired_psr ..) h
  case qualifierTimerExpiry d => exact live_directoryLaw _ s (qualifierExpired_dir ..) (qualifierExpired_scr ..) (qualifierExpired_psr ..) h
  case holdDownExpiry => exact live_directoryLaw _ s (holdDownExpired_dir s) (holdDownExpired_scr s) (holdDownExpired_psr s) h
  case refreshTimerExpiry => exact live_directoryLaw _ s (refreshExpired_dir s) (refreshExpired_scr s) (refreshExpired_psr s) h
  case epochTimerExpiry => exact live_directoryLaw _ s (epochExpired_dir s) (epochExpired_scr s) (epochExpired_psr s) h
  case peerIntentLifetimeExpiry p => exact live_directoryLaw _ s (expireIntent_dir ..) (expireIntent_scr ..) (expireIntent_psr ..) h
  case settlement => exact live_directoryLaw _ s (settle_dir s) (settle_scr s) (settle_psr s) h
  case windowTimerExpiry i => exact live_directoryLaw _ s (windowExpired_dir ..) (windowExpired_scr ..) (windowExpired_psr ..) h
  case intentRefreshExpiry i => exact live_directoryLaw _ s (refreshIntent_dir ..) (refreshIntent_scr ..) (refreshIntent_psr ..) h
  case storeBusyExpiry => exact live_keepsDirectory _ s (endStoreWrite_keepsDirectory s) h
  case readResponse n => exact directoryLaw_of_blocks (readResponse_dir n s) (readResponse_scr n s) (readResponse_psr n s) h
  case ignoredTransaction bits =>
    exact directoryLaw_of_blocks (ignoreTransaction_dir bits s) (ignoreTransaction_scr bits s) (ignoreTransaction_psr bits s) h
  case unknownCommand c rest => exact directoryLaw_of_blocks (refuseUnknown_dir c rest s) (refuseUnknown_scr c rest s) (refuseUnknown_psr c rest s) h
  case readStatus rest => exact takeCommand_directoryLaw _ _ rest _ s readStatus_dir readStatus_scr readStatus_psr h
  case readDirectoryEntry rest =>
    exact takeCommand_directoryLaw _ _ rest _ s readDirectoryEntry_dir readDirectoryEntry_scr readDirectoryEntry_psr h
  case readDegree rest => exact takeCommand_directoryLaw _ _ rest _ s readDegree_dir readDegree_scr readDegree_psr h
  case readReport rest => exact takeCommand_directoryLaw _ _ rest _ s readReport_dir readReport_scr readReport_psr h
  case readPeerIntent rest => exact takeCommand_directoryLaw _ _ rest _ s readPeerIntent_dir readPeerIntent_scr readPeerIntent_psr h
  case writeNodeReport rest => exact takeCommand_directoryLaw _ _ rest _ s writeNodeReport_dir writeNodeReport_scr writeNodeReport_psr h
  case writeSpanReport rest => exact takeCommand_directoryLaw _ _ rest _ s writeSpanReport_dir writeSpanReport_scr writeSpanReport_psr h
  case clearLatch rest => exact takeCommand_directoryLaw _ _ rest _ s clearLatch_dir clearLatch_scr clearLatch_psr h
  case submit rest => exact takeCommand_directoryLaw _ _ rest _ s submit_dir submit_scr submit_psr h
  case cancel rest => exact takeCommand_directoryLaw _ _ rest _ s cancel_dir cancel_scr cancel_psr h
  case releaseSlot rest => exact takeCommand_directoryLaw _ _ rest _ s releaseSlot_dir releaseSlot_scr releaseSlot_psr h
  case readSlot rest => exact takeCommand_directoryLaw _ _ rest _ s readSlot_dir readSlot_scr readSlot_psr h
  case commitIntent rest => exact takeCommand_directoryLaw _ _ rest _ s commitIntent_dir commitIntent_scr commitIntent_psr h
  case withdraw rest => exact takeCommand_directoryLaw _ _ rest _ s withdraw_dir withdraw_scr withdraw_psr h
  case forceEpoch rest => exact takeCommand_directoryLaw _ _ rest _ s forceEpoch_dir forceEpoch_scr forceEpoch_psr h
  case start rest strap => exact takeCommand_keepsDirectory _ _ rest _ s (startStation_keepsDirectory strap) h
  case restart rest => exact takeCommand_keepsDirectory _ _ rest _ s restart_keepsDirectory h
  case mute rest => exact takeCommand_directoryLaw _ _ rest _ s muteCommand_dir muteCommand_scr muteCommand_psr h
  case clearMute rest => exact takeCommand_directoryLaw _ _ rest _ s clearMuteCommand_dir clearMuteCommand_scr clearMuteCommand_psr h
  case setEnables rest => exact takeCommand_directoryLaw _ _ rest _ s setEnables_dir setEnables_scr setEnables_psr h
  case clearIndications rest => exact takeCommand_directoryLaw _ _ rest _ s clearIndications_dir clearIndications_scr clearIndications_psr h
  case readStoreWord rest => exact takeCommand_directoryLaw _ _ rest _ s readStoreWord_dir readStoreWord_scr readStoreWord_psr h
  case writeStoreWord rest => exact takeCommand_keepsDirectory _ _ rest _ s writeStoreWord_keepsDirectory h
  case loadWordRead => exact live_keepsDirectory _ s (loadWord_keepsDirectory s) h
  case epochTransferEnd => exact live_directoryLaw _ s (endTransfer_dir s) (endTransfer_scr s) (endTransfer_psr s) h

/-- Settles O53: a row keeps the law, and so does an idle millisecond. -/
theorem stepKeepsTheDirectoryLaw : Obligations.StepKeepsTheDirectoryLaw := by
  intro s t _ h hn
  unfold step at hn
  split at hn
  · rename_i rest _
    exact exec_keepsDirectory _ { s with pending := rest } t h hn
  · cases hn
    exact live_keepsDirectory _ s (tickAll_keepsDirectory s) h

end Sys2Proof.Machine
end

section
/-! # Purge, claim rounds, the choice of a number -/

namespace Sys2Proof.Machine

/-! ## The end of a lifetime (R22, R23, R83, R84) -/

/-- A dropped report leaves its place empty, and dirty set where there was one. -/
theorem dropReport_eq (n : Nat) (s : State) : dropReport n s = { s with
    tdb := { s.tdb with staging := s.tdb.staging.set n none, dirty := s.tdb.dirty || (place s.tdb.staging n).isSome } } := by
  unfold dropReport
  split
  · rename_i h
    rw [h, Bool.or_true]
  · rename_i h
    rw [Bool.eq_false_iff.2 h, Bool.or_false, set_none_of_place_none _ _ (by simpa using h)]

/-- A table of which no entry passes the test is left by its filter. -/
theorem map_filter_of_none {α : Type} (c : Option α → Bool) (l : List (Option α)) (h : l.any c = false) :
    (l.map fun x => if c x then none else x) = l :=
  (List.map_congr_left fun x hx => if_neg (List.any_eq_false.1 h x hx)).trans l.map_id

/-- The intents of a unique ID leave their places empty, and dirty set where there was one. -/
theorem dropIntentsOf_eq (u : Uid) (s : State) : dropIntentsOf u s = { s with
    tdb := { s.tdb with stagingIntents := s.tdb.stagingIntents.map fun x => if isIntentOf u x then none else x
                        dirty := s.tdb.dirty || s.tdb.stagingIntents.any (isIntentOf u) } } := by
  unfold dropIntentsOf
  split
  · rename_i h
    rw [h, Bool.or_true]
  · rename_i h
    rw [Bool.eq_false_iff.2 h, Bool.or_false, map_filter_of_none _ _ (Bool.eq_false_iff.2 h)]

/-- The purge of a peer (R23). -/
theorem purge_peer (n : Nat) (s : State) (u : Uid) (l : Nat) (h : s.entry n = some (.peer u l)) :
    purge n s = purgeViews n u (setEntry n none s) := by simp only [purge, h]

/-- Settles O23: the purge and the removal, with dirty set only where something is removed. -/
theorem lifetimesEndInPurge : Obligations.LifetimesEndInPurge := by
  refine ⟨fun s n u l hr he => ?_, fun s p e hr he => ?_⟩
  · refine congrArg Host.Outcome.next ((live_of_running _ s hr).trans ?_)
    rw [purge_peer n s u l he, purgeViews, dropIntentsOf_eq, dropReport_eq]
    rfl
  · refine congrArg Host.Outcome.next ((live_of_running _ s hr).trans ?_)
    have hp : place s.tdb.stagingIntents p = some e := (place_some _ _ _).2 he
    rw [expireIntent, hp]
    rfl

/-! ## Claim rounds (R27, R30) -/

/-- With the mute flag set no round is timed (R27). -/
theorem roundExpired_muted (s : State) (h : s.sct.mute = true) : roundExpired s = s := by
  simp [roundExpired, State.timesRound, h]

/-- With the mute flag clear, a round that ends in JOINING leads to the next or into MEMBER (R27, R30). -/
theorem roundExpired_timed (s : State) (n timer : Nat) (hj : s.dir.station = .joining) (hc : s.dir.candidate = some n)
    (ht : s.dir.roundTimer = some timer) (hm : s.sct.mute = false) : roundExpired s =
      if s.dir.rounds + 1 < 3 then
        handOverPlain (.claim n 1) { s with dir := { s.dir with rounds := s.dir.rounds + 1, roundTimer := none } }
      else enterMember n s := by
  simp only [roundExpired, hj, hc, State.timesRound, ht, hm, Option.isSome_some, Bool.not_false, Bool.and_self, Config.claimRounds, modeJoining]

/-- The state of a part that has just become MEMBER under `n`, before it originates its report (R30). -/
def State.joinedAs (s : State) (n : Nat) : State :=
  raise .numberChange { s with dir := { s.dir with
    station := .member, candidate := some n, rounds := 3, roundTimer := none, entries := s.dir.entries.set n (some (.own s.ownUid)) } }

theorem enterMember_eq (n : Nat) (s : State) : enterMember n s = originate (s.joinedAs n) := rfl

/-- An origination leaves the staging tables dirty (R66). -/
theorem originate_dirty (s : State) : (originate s).tdb.dirty = true := by simp [originate, stageReport]

/-- The own-report state after an origination (R66). -/
theorem originate_org (s : State) : (originate s).org =
    { seq := s.org.seq + 1, missed := [], holdDown := some 500, refresh := some (1000 * s.psr.working.refresh), pendingChange := false } := by
  simp [originate, stageReport, Org.originated, Config.holdDownMs]

/-- Settles O24: no round under mute, the next CLAIM, membership. -/
theorem thirdRoundMakesMember : Obligations.ThirdRoundMakesMember := by
  intro s n timer hr hj hc ht
  have expires : exec .claimRoundTimerExpiry s = .next (roundExpired s) := congrArg Host.Outcome.next (live_of_running _ s hr)
  rw [expires]
  refine ⟨fun hm => by rw [roundExpired_muted s hm], fun hm hrounds => ?_, fun hm hrounds hs hn => ?_⟩
  · rw [roundExpired_timed s n timer hj hc ht hm, if_pos (by omega)]
  · rw [roundExpired_timed s n timer hj hc ht hm, if_neg (by omega), enterMember_eq]
    obtain ⟨hentries, hstaging, -⟩ := hs
    have hnum : (s.joinedAs n).ownNumber = n := ownNumber_member _ n rfl rfl
    have hdir : (originate (s.joinedAs n)).dir = (s.joinedAs n).dir := originate_dir _
    refine ⟨_, (s.joinedAs n).ownReport, rfl, by rw [hdir]; rfl, ownNumber_member _ n (by rw [hdir]; rfl) (by rw [hdir]; rfl), ?_, ?_,
      by rw [hdir]; rfl, by rw [hdir]; rfl, originate_stages n _ hnum (by rwa [← hstaging] at hn), rfl, originate_dirty _, originate_org _⟩
    · rw [State.entry, hdir]
      exact place_set_self _ _ _ (by rwa [hentries])
    · exact (originate_steady _).shown _ ((raise_shows _ _ _).2 (.inl rfl))

/-! ## The first number not held (R26, R29, R167) -/

/-- With nothing yielded the choice falls on the first number not held, from the preferred one on (R26). -/
theorem chooseNumber_first (s : State) (p k : Nat) (hp : s.dir.preferred = p % 48) (hy : s.dir.yielded = []) (hk : k < 48)
    (hheld : ∀ j, j < k → s.entry ((p + j) % 48) ≠ none) (hfree : s.entry ((p + k) % 48) = none) :
    s.chooseNumber = some ((p + k) % 48) := by
  have hwrap : ∀ j, (s.dir.preferred + j) % 48 = (p + j) % 48 := fun j => by omega
  rw [State.chooseNumber, numbersFrom, List.find?_map, Option.map_eq_some_iff]
  refine ⟨k, List.find?_range_eq_some.2 ⟨?_, List.mem_range.2 hk, fun j hj => ?_⟩, hwrap k⟩
  · simp [hy, hwrap, hfree, Config.stations]
  · simp [hy, hwrap, Option.isSome_iff_ne_none, hheld j hj, Config.stations]

/-- The state in which a part that enters JOINING with nothing yielded chooses its candidate (R26). -/
def State.entering (s : State) (strap : BitVec 3) : State :=
  { s with dir := { s.dir with station := .joining, preferred := s.preferredNumber strap, yielded := [],
                               roundTimer := none, noNumberTimer := none } }

theorem enterJoining_eq (strap : BitVec 3) (s : State) : enterJoining strap [] s = takeCandidate (s.entering strap) := rfl

/-- The directory of a part that enters JOINING with candidate `c`, nothing yielded (R26). -/
def State.joiningDir (s : State) (strap : BitVec 3) (c : Nat) : Dir :=
  { s.dir with station := .joining, candidate := some c, rounds := 0, yielded := [],
               preferred := (s.psr.working.base + strap.toNat) % 48, roundTimer := none, noNumberTimer := none }

/-- Entry to JOINING with a number free: the first from the preferred one on is claimed (R26). -/
theorem enterJoining_claims (strap : BitVec 3) (s : State) (k : Nat) (hk : k < 48)
    (hheld : ∀ j, j < k → s.entry ((s.psr.working.base + strap.toNat + j) % 48) ≠ none)
    (hfree : s.entry ((s.psr.working.base + strap.toNat + k) % 48) = none) :
    enterJoining strap [] s = handOverPlain (.claim ((s.psr.working.base + strap.toNat + k) % 48) 1)
      { s with dir := s.joiningDir strap ((s.psr.working.base + strap.toNat + k) % 48) } := by
  have hchoice : (s.entering strap).chooseNumber = some ((s.psr.working.base + strap.toNat + k) % 48) :=
    chooseNumber_first _ _ k rfl rfl hk hheld hfree
  rw [enterJoining_eq, takeCandidate, hchoice]
  rfl

/-- Entry to JOINING with every number held: NO_NUMBER (R29). -/
theorem enterJoining_full (strap : BitVec 3) (s : State) (h : ∀ k, k < 48 → s.entry k ≠ none) :
    enterJoining strap [] s = enterNoNumber (s.entering strap) := by
  rcases takeCandidate_cases (s.entering strap) with ⟨c, hlt, he, -⟩ | ⟨-, ht⟩
  · exact absurd he (h c hlt)
  · exact ht

/-- START, where the port answers (R167). -/
theorem exec_start (s : State) (strap : BitVec 3) (h : s.listens) :
    exec (.start [0] strap) s = .next (startStation strap [] (clockZeros 2 s)) :=
  congrArg Host.Outcome.next (takeCommand_empty cmdStart (startStation strap) s h)

/-- In STANDBY it enters JOINING and answers OK (R167). -/
theorem exec_start_standby (s : State) (strap : BitVec 3) (h : s.listens) (hst : s.dir.station = .standby) :
    exec (.start [0] strap) s = .next (respondOk cmdStart [] (enterJoining strap [] (clockZeros 2 s))) := by
  rw [exec_start s strap h, startStation, clockZeros_dir, if_pos hst]

theorem exec_noNumberTimerExpiry (s : State) (strap : BitVec 3) (timer : Nat) (hr : s.inReset = false) (hst : s.dir.station = .noNumber)
    (ht : s.dir.noNumberTimer = some timer) : exec (.noNumberTimerExpiry strap) s = .next (enterJoining strap [] s) := by
  refine congrArg Host.Outcome.next ((live_of_running _ s hr).trans ?_)
  simp only [noNumberExpired, hst, ht]

/-- Settles O25: a number free, none free, and START outside STANDBY. -/
theorem joiningClaimsTheFirstFreeNumber : Obligations.JoiningClaimsTheFirstFreeNumber := by
  intro s strap hr
  refine ⟨fun k hk hheld hfree => ?_, fun hfull hl hst => ?_, fun hl hst => ?_⟩
  · refine ⟨s.joiningDir strap ((s.psr.working.base + strap.toNat + k) % 48), rfl, fun hl hst => ?_, fun timer hst ht => ?_⟩
    · rw [exec_start_standby s strap ⟨hr, hl⟩ hst, enterJoining_claims strap (clockZeros 2 s) k hk hheld hfree]
      exact congrArg (fun t => Host.Outcome.next (respondOk cmdStart [] t)) (handOverPlain_clockZeros
        (.claim ((s.psr.working.base + strap.toNat + k) % 48) 1) 2
        { s with dir := s.joiningDir strap ((s.psr.working.base + strap.toNat + k) % 48) })
    · rw [exec_noNumberTimerExpiry s strap timer hr hst ht, enterJoining_claims strap s k hk hheld hfree]
  · rw [exec_start_standby s strap ⟨hr, hl⟩ hst, enterJoining_full strap (clockZeros 2 s) hfull]
    refine ⟨_, rfl, rfl, rfl, ?_, (raise_shows _ _ _).2 (.inl rfl), rfl, rfl, rfl⟩
    show some (1000 * (4 * s.psr.working.refresh)) = some (4000 * s.psr.working.refresh)
    rw [← Nat.mul_assoc]
  · rw [exec_start s strap ⟨hr, hl⟩, startStation, clockZeros_dir, if_neg hst]
    rfl

end Sys2Proof.Machine
end

section
/-! # A frame accepted by number and unique ID -/

namespace Sys2Proof.Machine

/-! ## The active view stands (R93) -/

theorem sameView_refl (s : State) : s.sameView s := ⟨rfl, rfl, rfl, rfl⟩

theorem sameView_trans {s t u : State} (h : s.sameView t) (k : t.sameView u) : s.sameView u :=
  ⟨k.1.trans h.1, k.2.1.trans h.2.1, k.2.2.1.trans h.2.2.1, k.2.2.2.trans h.2.2.2⟩

/-- A change of the staging tables leaves the active view. -/
theorem sameView_of_tdb {s t : State} (reports : List (Option StationReport)) (intents : List (Option StagedIntent)) (dirty : Bool)
    (h : t.tdb = { s.tdb with staging := reports, stagingIntents := intents, dirty := dirty }) : s.sameView t := by
  rw [State.sameView, h]
  exact ⟨rfl, rfl, rfl, rfl⟩

/-! ## What a purge leaves (R21, R23) -/

/-- A filter of a table leaves what fails its test. -/
theorem not_of_filtered {α : Type} {l : List (Option α)} {c : Option α → Bool} {p : Nat} {e : α}
    (h : place (l.map fun x => if c x then none else x) p = some e) : c (some e) = false := by
  have hs := (place_some _ _ _).1 h
  rw [List.getElem?_map, Option.map_eq_some_iff] at hs
  obtain ⟨y, -, he⟩ := hs
  split at he
  · cases he
  · subst he
    exact Bool.eq_false_iff.2 ‹_›

/-- An emptied place is empty, whether it lies in the table or not. -/
theorem place_set_none {α : Type} (l : List (Option α)) (p : Nat) : place (l.set p none) p = none := by
  by_contra h
  obtain ⟨e, he⟩ := Option.ne_none_iff_exists'.1 h
  rcases place_set_eq_some he with ⟨_, hn⟩ | ⟨hp, _⟩
  · cases hn
  · exact hp rfl

/-- The staging tables after a purge of the views of `u` under `n` (R23). -/
theorem purgeViews_tdb (n : Nat) (u : Uid) (s : State) : (purgeViews n u s).tdb = { s.tdb with
    staging := s.tdb.staging.set n none
    stagingIntents := s.tdb.stagingIntents.map fun x => if isIntentOf u x then none else x
    dirty := s.tdb.dirty || (place s.tdb.staging n).isSome || s.tdb.stagingIntents.any (isIntentOf u) } := by
  rw [purgeViews, dropIntentsOf_eq, dropReport_eq]
  rfl

theorem purgeViews_report (n : Nat) (u : Uid) (s : State) : place (purgeViews n u s).tdb.staging n = none := by
  rw [purgeViews_tdb]
  exact place_set_none _ n

theorem purgeViews_intent (n : Nat) (u : Uid) (s : State) (p : Nat) (e : StagedIntent)
    (h : place (purgeViews n u s).tdb.stagingIntents p = some e) : e.entry.uid ≠ u := by
  rw [purgeViews_tdb] at h
  simpa [isIntentOf] using not_of_filtered h

/-- The passage from `s` to `t` takes reports and intents from the staging tables and puts none there. -/
structure Purges (s t : State) : Prop where
  reports : ∀ k, place s.tdb.staging k = none → place t.tdb.staging k = none
  intents : ∀ p e, place t.tdb.stagingIntents p = some e → place s.tdb.stagingIntents p = some e
  rooms : ∀ p : Nat, s.tdb.stagingIntents[p]? = some none → t.tdb.stagingIntents[p]? = some none
  view : s.sameView t

theorem Purges.of_tdb {s t : State} (h : t.tdb = s.tdb) : Purges s t :=
  ⟨fun _ hk => by rwa [h], fun _ _ hp => by rwa [h] at hp, fun _ hp => by rwa [h], by rw [State.sameView, h]; exact ⟨rfl, rfl, rfl, rfl⟩⟩

theorem Purges.trans {s t u : State} (h : Purges s t) (k : Purges t u) : Purges s u :=
  ⟨fun n => k.reports n ∘ h.reports n, fun p e => h.intents p e ∘ k.intents p e, fun p => k.rooms p ∘ h.rooms p, sameView_trans h.view k.view⟩

theorem purgeViews_purges (n : Nat) (u : Uid) (s : State) : Purges s (purgeViews n u s) where
  reports := fun k hk => by
    rw [purgeViews_tdb]
    by_cases hkn : n = k
    · exact hkn ▸ place_set_none _ n
    · exact (place_set_ne _ n k none hkn).trans hk
  intents := fun p e hp => by
    rw [purgeViews_tdb] at hp
    exact place_of_filtered hp
  rooms := fun p hp => by simp [purgeViews_tdb, hp]
  view := sameView_of_tdb _ _ _ (purgeViews_tdb n u s)

theorem purge_purges (n : Nat) (s : State) : Purges s (purge n s) := by
  rcases purge_cases n s with ⟨u, l, -, hp⟩ | ⟨-, hp⟩ <;> rw [hp]
  · exact .trans (t := setEntry n none s) (.of_tdb rfl) (purgeViews_purges n u _)
  · exact .of_tdb rfl

theorem purgeUid_purges (u : Uid) (s : State) : Purges s (purgeUid u s) := by
  unfold purgeUid
  split
  · exact purge_purges _ s
  · exact .of_tdb rfl

/-- A purge touches no entry but that of its number. -/
theorem purge_entry_ne (n k : Nat) (s : State) (h : k ≠ n) : (purge n s).entry k = s.entry k := by
  rcases purge_cases n s with ⟨u, l, -, hp⟩ | ⟨-, hp⟩ <;> rw [hp]
  rw [State.entry, purgeViews_dir]
  exact place_set_ne _ n k none h.symm

/-- It empties the entry of a peer. -/
theorem purge_entry_peer (n : Nat) (s : State) (u : Uid) (l : Nat) (h : s.entry n = some (.peer u l)) : (purge n s).entry n = none := by
  rw [purge_peer n s u l h, State.entry, purgeViews_dir]
  exact place_set_none _ n

/-- The own entry is no peer's. -/
theorem purge_own (n : Nat) (s : State) (u : Uid) (h : s.entry n = some (.own u)) : purge n s = s := by simp only [purge, h]

theorem purge_empty (n : Nat) (s : State) (h : s.entry n = none) : purge n s = s := by simp only [purge, h]

/-- The number found for a unique ID is not moved by the purge of a number that holds another (R19). -/
theorem purge_numberOf (n : Nat) (s : State) (u : Uid) (h : ∀ e, s.entry n = some e → e.uid ≠ u) :
    (purge n s).numberOf u = s.numberOf u := by
  rcases purge_cases n s with ⟨v, l, he, hp⟩ | ⟨-, hp⟩ <;> rw [hp]
  have hvu : v ≠ u := h _ he
  have hset : (s.dir.entries.set n none).map (fun e => (e.map DirEntry.uid) == some u)
      = s.dir.entries.map fun e => (e.map DirEntry.uid) == some u := by
    rw [List.map_set]
    apply List.ext_getElem?
    intro k
    by_cases hk : n = k
    · subst hk
      have hn := (place_some _ _ _).1 he
      obtain ⟨hlt, hat⟩ := List.getElem?_eq_some_iff.1 hn
      simp [hlt, hat, DirEntry.uid, hvu]
    · rw [List.getElem?_set_ne hk]
  have hfind := congrArg (List.findIdx? id) hset
  rw [List.findIdx?_map, List.findIdx?_map] at hfind
  rw [State.numberOf, purgeViews_dir]
  exact hfind

/-! ## A station entered (R21) -/

/-- The own number is read from the DIR alone (R25). -/
theorem ownNumber_congr {s t : State} (h : t.dir = s.dir) : t.ownNumber = s.ownNumber := by rw [State.ownNumber, h, State.ownNumber]

/-- The state in which the sender of `f` has just been entered under `n`: what stood there is purged, and what it held elsewhere. -/
def State.entered (s : State) (n : Nat) (f : Frame) : State := install n f (purgeUid f.uid (purge n s))

/-- The sender of `f` may be entered under `n`: nobody is there, or a peer of a higher unique ID (R21). -/
def State.admits (s : State) (n : Nat) (f : Frame) : Prop := s.entry n = none ∨ ∃ u l, s.entry n = some (.peer u l) ∧ f.uid < u

theorem acceptFrame_admitted (n : Nat) (f : Frame) (s : State) (h : s.admits n f) :
    acceptFrame n f s = dispatch n .entered f (s.entered n f) := by
  have ha : accept n f s = (.entered, s.entered n f) := by
    rcases h with he | ⟨u, l, he, hu⟩
    · simp only [accept, he, State.entered, purge_empty n s he]
    · have hne : u ≠ f.uid := fun e => BitVec.lt_irrefl u (e ▸ hu)
      simp only [accept, he, if_neg hne, if_pos hu, State.entered]
  simp only [acceptFrame, ha]

theorem acceptFrame_known (n : Nat) (f : Frame) (s : State) (l : Nat) (h : s.entry n = some (.peer f.uid l)) :
    acceptFrame n f s = dispatch n .known f (setEntry n (some f.entry) s) := by
  simp only [acceptFrame, accept, h, if_true]

theorem acceptFrame_outranked (n : Nat) (f : Frame) (s : State) (u : Uid) (l : Nat) (h : s.entry n = some (.peer u l)) (hu : u < f.uid) :
    acceptFrame n f s = s := by
  have hne : u ≠ f.uid := fun e => BitVec.lt_irrefl u (e ▸ hu)
  have hlt : ¬ f.uid < u := fun h => BitVec.lt_irrefl u (BitVec.lt_trans hu h)
  simp only [acceptFrame, accept, h, if_neg hne, if_neg hlt]

section

variable {s : State} {n : Nat} {f : Frame}

/-- What stands under a number that admits a station is not its own. -/
theorem State.admits.uid_ne (h : s.admits n f) {e : DirEntry} (he : s.entry n = some e) : e.uid ≠ f.uid := by
  rcases h with hn | ⟨u, l, hp, hu⟩
  · cases hn.symm.trans he
  · cases hp.symm.trans he
    exact fun e => BitVec.lt_irrefl u ((show u = f.uid from e) ▸ hu)

/-- Where a station is held elsewhere, its entry there is purged before it is entered; otherwise only what stood under the number. -/
theorem entered_eq (h : s.admits n f) :
    (∃ k, s.numberOf f.uid = some k ∧ k ≠ n ∧ s.entered n f = install n f (purge k (purge n s)))
      ∨ s.numberOf f.uid = none ∧ s.entered n f = install n f (purge n s) := by
  have hnum := purge_numberOf n s f.uid fun e he => h.uid_ne he
  unfold State.entered purgeUid
  rw [hnum]
  cases hk : s.numberOf f.uid with
  | none => exact .inr ⟨rfl, rfl⟩
  | some k =>
    obtain ⟨e, he, hu⟩ := numberOf_holds hk
    exact .inl ⟨k, rfl, fun hkn => h.uid_ne (hkn ▸ he) hu, rfl⟩

theorem install_entry_self (t : State) (h : n < t.dir.entries.length) : (install n f t).entry n = some f.entry :=
  place_set_self _ n _ h

theorem install_entry_ne (t : State) {k : Nat} (h : k ≠ n) : (install n f t).entry k = t.entry k := place_set_ne _ n k _ h.symm

theorem entered_entry_self (hs : s.sized) (hn : n < 48) : (s.entered n f).entry n = some f.entry := by
  obtain ⟨hl, -⟩ := ((purge_steady n s).trans (purgeUid_steady f.uid _)).sized hs
  exact install_entry_self _ (by rwa [hl])

/-- Only the number entered and the number held before change their entries. -/
theorem entered_entry_other (h : s.admits n f) {k : Nat} (hk : k ≠ n) (hnum : s.numberOf f.uid ≠ some k) :
    (s.entered n f).entry k = s.entry k := by
  rcases entered_eq h with ⟨j, hj, -, ht⟩ | ⟨-, ht⟩ <;> rw [ht, install_entry_ne _ hk]
  · rw [purge_entry_ne j k _ fun e => hnum (e ▸ hj), purge_entry_ne n k s hk]
  · exact purge_entry_ne n k s hk

/-- The state before the installation, where the station is held elsewhere. -/
theorem entered_moved (h : s.admits n f) {k : Nat} (hnum : s.numberOf f.uid = some k) :
    k ≠ n ∧ s.entered n f = install n f (purge k (purge n s)) ∧ (purge n s).entry k = s.entry k := by
  rcases entered_eq h with ⟨j, hj, hjn, ht⟩ | ⟨hnone, -⟩
  · cases hj.symm.trans hnum
    exact ⟨hjn, ht, purge_entry_ne n k s hjn⟩
  · cases hnone.symm.trans hnum

/-- A peer that moves leaves nothing behind: no entry, no report, no intent (R21, R23). -/
theorem entered_leaves (h : s.admits n f) {k l : Nat} (hnum : s.numberOf f.uid = some k) (he : s.entry k = some (.peer f.uid l)) :
    (s.entered n f).entry k = none ∧ place (s.entered n f).tdb.staging k = none
      ∧ ∀ p e, place (s.entered n f).tdb.stagingIntents p = some e → e.entry.uid ≠ f.uid := by
  obtain ⟨hkn, ht, hk⟩ := entered_moved h hnum
  rw [ht, install_entry_ne _ hkn, install_tdb]
  refine ⟨purge_entry_peer k _ f.uid l (hk.trans he), ?_⟩
  rw [purge_peer k (purge n s) f.uid l (hk.trans he)]
  exact ⟨purgeViews_report k _ _, purgeViews_intent k _ _⟩

/-- The own entry stands, whatever the frame claims to be. -/
theorem entered_entry_own (h : s.admits n f) {k : Nat} {u : Uid} (hnum : s.numberOf f.uid = some k) (he : s.entry k = some (.own u)) :
    (s.entered n f).entry k = s.entry k := by
  obtain ⟨hkn, ht, hk⟩ := entered_moved h hnum
  rw [ht, install_entry_ne _ hkn, purge_own k _ u (hk.trans he), hk]

theorem entered_purges (s : State) (n : Nat) (f : Frame) : Purges s (s.entered n f) :=
  ((purge_purges n s).trans (purgeUid_purges f.uid _)).trans (.of_tdb (install_tdb n f _))

/-- A peer displaced leaves nothing behind (R21, R23). -/
theorem entered_displaces {u : Uid} {l : Nat} (he : s.entry n = some (.peer u l)) :
    place (s.entered n f).tdb.staging n = none
      ∧ ∀ p e, place (s.entered n f).tdb.stagingIntents p = some e → e.entry.uid ≠ u := by
  have hrest : Purges (purge n s) (s.entered n f) := (purgeUid_purges f.uid _).trans (.of_tdb (install_tdb n f _))
  have hp := purge_peer n s u l he
  refine ⟨hrest.reports n ?_, fun p e h => ?_⟩
  · rw [hp]
    exact purgeViews_report n u _
  · have hin := hrest.intents p e h
    rw [hp] at hin
    exact purgeViews_intent n u _ p e hin

theorem entered_shows (s : State) (n : Nat) (f : Frame) : (s.entered n f).shows .peerChange := (raise_shows _ _ _).2 (.inl rfl)

theorem entered_ownNumber (s : State) (n : Nat) (f : Frame) : (s.entered n f).ownNumber = s.ownNumber := by
  have purged : ∀ m (t : State), (purge m t).ownNumber = t.ownNumber := fun m t => by
    rcases purge_cases m t with ⟨u, l, -, hp⟩ | ⟨-, hp⟩ <;> rw [hp]
    exact (ownNumber_congr (purgeViews_dir m u _)).trans (setEntry_ownNumber m none t)
  unfold State.entered purgeUid
  split
  · exact (purged _ _).trans (purged n s)
  · exact purged n s

theorem entered_sized (hs : s.sized) : (s.entered n f).sized :=
  (((purge_steady n s).trans (purgeUid_steady f.uid _)).trans (install_steady n f _)).sized hs

end

/-! ## Reports staged (R66, R73 to R75) -/

/-- Of the topology database the passage from `s` to `t` changes at most the staged reports under the numbers `K`, and dirty, which it
does not clear. -/
structure Stages (K : List Nat) (s t : State) : Prop where
  tdb : t.tdb = { s.tdb with staging := t.tdb.staging, dirty := t.tdb.dirty }
  others : ∀ k, k ∉ K → place t.tdb.staging k = place s.tdb.staging k
  dirty : s.tdb.dirty = true → t.tdb.dirty = true

namespace Stages

variable {K : List Nat} {s t u : State}

theorem of_tdb (h : t.tdb = s.tdb) : Stages K s t := ⟨by rw [h], fun _ _ => by rw [h], fun hd => by rwa [h]⟩

theorem trans (h : Stages K s t) (k : Stages K t u) : Stages K s u :=
  ⟨by rw [k.tdb, h.tdb], fun n hn => (k.others n hn).trans (h.others n hn), k.dirty ∘ h.dirty⟩

theorem view (h : Stages K s t) : s.sameView t := sameView_of_tdb _ s.tdb.stagingIntents _ h.tdb

theorem intents (h : Stages K s t) : t.tdb.stagingIntents = s.tdb.stagingIntents := by rw [h.tdb]

end Stages

theorem stageReport_stages {K : List Nat} (n : Nat) (u : Uid) (r : Report) (s : State) (h : n ∈ K) : Stages K s (stageReport n u r s) :=
  ⟨rfl, fun k hk => place_set_ne _ n k _ fun e => hk (e ▸ h), fun _ => rfl⟩

theorem orgRequest_stages {K : List Nat} (s : State) (h : s.ownNumber ∈ K) : Stages K s (orgRequest s) := by
  have originated : Stages K s (originate s) :=
    (stageReport_stages s.ownNumber s.ownUid s.ownReport s h).trans (.of_tdb (handOverPlain_tdb (.report s.ownReport) _))
  unfold orgRequest
  split
  · unfold originateHeldDown
    split
    · exact .of_tdb rfl
    · exact originated
  · exact .of_tdb rfl

theorem recordGap_stages {K : List Nat} (n : Nat) (s : State) (h : s.ownNumber ∈ K) : Stages K s (recordGap n s) := by
  unfold recordGap
  split
  · exact .of_tdb rfl
  · exact Stages.trans (t := { s with org := { s.org with missed := lastN Config.missedDepth (s.org.missed ++ [n]) } }) (.of_tdb rfl)
      (orgRequest_stages _ h)

theorem examineMissed_stages {K : List Nat} (r : Report) (s : State) (h : s.ownNumber ∈ K) : Stages K s (examineMissed r s) := by
  unfold examineMissed
  split
  · exact orgRequest_stages s h
  · exact .of_tdb rfl

theorem storeReport_stages {K : List Nat} (n : Nat) (u : Uid) (r : Report) (s : State) (hn : n ∈ K) (ho : s.ownNumber ∈ K) :
    Stages K s (storeReport n u r s) := by
  have staged : Stages K s (stageReport n u r s) := stageReport_stages n u r s hn
  unfold storeReport
  split
  · exact staged.trans (examineMissed_stages r _ ho)
  · split
    · dsimp only
      split
      · have hgap : (recordGap n (stageReport n u r s)).ownNumber = s.ownNumber := ownNumber_congr (recordGap_dir n _)
        exact (staged.trans (recordGap_stages n _ ho)).trans (examineMissed_stages r _ (hgap ▸ ho))
      · exact staged.trans (examineMissed_stages r _ ho)
    · exact .of_tdb rfl

/-- The first report of a station is stored (R73). -/
theorem storeReport_first (n : Nat) (u : Uid) (r : Report) (s : State) (h : place s.tdb.staging n = none) (ho : n ≠ s.ownNumber)
    (hl : n < s.tdb.staging.length) :
    place (storeReport n u r s).tdb.staging n = some { uid := u, report := r } ∧ (storeReport n u r s).tdb.dirty = true := by
  have hr : reportUnder s.tdb.staging n = none := by rw [reportUnder, h, Option.map_none]
  have hx : Stages [s.ownNumber] (stageReport n u r s) (examineMissed r (stageReport n u r s)) :=
    examineMissed_stages r _ (List.mem_singleton.2 rfl)
  simp only [storeReport, hr]
  exact ⟨(hx.others n (by simpa using ho)).trans (place_set_self _ n _ hl), hx.dirty rfl⟩

/-! ## Intents stored (R81) -/

/-- What storing an INTENT adds to the staging table is that intent alone. -/
theorem storeIntent_holds (e : PeerIntent) (s : State) (p : Nat) (x : StagedIntent)
    (h : place (storeIntent e s).tdb.stagingIntents p = some x) : place s.tdb.stagingIntents p = some x ∨ x.entry = e := by
  have set_holds : ∀ q (d : Bool), place (setStagedIntent q (some { entry := e, left := 1000 * s.psr.working.lifetime }) d s).tdb.stagingIntents p
      = some x → place s.tdb.stagingIntents p = some x ∨ x.entry = e := fun q d hq => by
    rcases place_set_eq_some hq with ⟨_, hx⟩ | ⟨_, hx⟩
    · cases hx
      exact .inr rfl
    · exact .inl hx
  unfold storeIntent at h
  dsimp only at h
  split at h
  · exact set_holds _ _ h
  · split at h
    · exact set_holds _ _ h
    · exact .inl h

/-- With a place empty an INTENT is stored, its lifetime started (R81, R83). -/
theorem storeIntent_stores (e : PeerIntent) (s : State) (q : Nat) (h : s.tdb.stagingIntents[q]? = some none) :
    ∃ p, place (storeIntent e s).tdb.stagingIntents p = some { entry := e, left := 1000 * s.psr.working.lifetime } := by
  unfold storeIntent
  dsimp only
  split
  · rename_i p hp
    exact ⟨p, place_set_self _ p _ (List.findIdx?_eq_some_iff_getElem.1 hp).1⟩
  · split
    · rename_i p hp
      exact ⟨p, place_set_self _ p _ (List.findIdx?_eq_some_iff_getElem.1 hp).1⟩
    · rename_i hfull
      have hq := List.findIdx?_eq_none_iff.1 hfull none (List.mem_of_getElem? h)
      cases hq

theorem storeIntent_view (e : PeerIntent) (s : State) : s.sameView (storeIntent e s) := by
  unfold storeIntent
  dsimp only
  split
  · exact sameView_of_tdb _ _ _ rfl
  · split
    · exact sameView_of_tdb _ _ _ rfl
    · exact sameView_refl s

theorem storeIntent_reports (e : PeerIntent) (s : State) : (storeIntent e s).tdb.staging = s.tdb.staging := by
  unfold storeIntent
  dsimp only
  split
  · rfl
  · split <;> rfl

theorem releaseIntent_purges (u : Uid) (id : Nat) (s : State) : Purges s (releaseIntent u id s) := by
  unfold releaseIntent
  split
  · rename_i p _
    refine ⟨fun _ h => h, fun q e hq => ?_, fun q hq => ?_, sameView_of_tdb _ _ _ rfl⟩
    · rcases place_set_eq_some hq with ⟨_, hx⟩ | ⟨_, hx⟩
      · cases hx
      · exact hx
    · obtain ⟨hlt, -⟩ := List.getElem?_eq_some_iff.1 hq
      by_cases hpq : p = q
      · simp [setStagedIntent, hpq, hlt]
      · simp [setStagedIntent, List.getElem?_set_ne hpq, hq]
  · exact .of_tdb rfl

/-! ## Dispatch (R24) -/

/-- Dispatch leaves the active view. -/
theorem dispatch_view (n : Nat) (how : Acceptance) (f : Frame) (s : State) : s.sameView (dispatch n how f s) := by
  unfold dispatch
  split
  · split
    · exact (purgeViews_purges n f.uid s).view
    · exact sameView_refl s
  · split
    · exact (storeReport_stages (K := [n, s.ownNumber]) n _ _ s (by simp) (by simp)).view
    · exact sameView_refl s
  · split
    · rw [State.sameView, compareIntents_tdb]
      exact storeIntent_view _ s
    · exact sameView_refl s
  · split
    · exact (releaseIntent_purges _ _ s).view
    · exact sameView_refl s

/-- A staged report under another number than the sender's and the own stands, or goes. -/
theorem dispatch_reports (n : Nat) (how : Acceptance) (f : Frame) (s : State) (k : Nat) (hn : k ≠ n) (ho : k ≠ s.ownNumber)
    (h : place s.tdb.staging k = none) : place (dispatch n how f s).tdb.staging k = none := by
  unfold dispatch
  split
  · split
    · exact (purgeViews_purges n f.uid s).reports k h
    · exact h
  · split
    · exact ((storeReport_stages (K := [n, s.ownNumber]) n _ _ s (by simp) (by simp)).others k (by simp [hn, ho])).trans h
    · exact h
  · split
    · rw [compareIntents_tdb, (storeIntent_reports _ s)]
      exact h
    · exact h
  · split
    · exact (releaseIntent_purges _ _ s).reports k h
    · exact h

/-- A staged intent that dispatch adds is the one of the frame. -/
theorem dispatch_intents (n : Nat) (how : Acceptance) (f : Frame) (s : State) (p : Nat) (e : StagedIntent)
    (h : place (dispatch n how f s).tdb.stagingIntents p = some e) :
    place s.tdb.stagingIntents p = some e ∨ e.entry.uid = f.uid ∧ ∃ pr ps, f.body = .intent e.entry.id pr ps := by
  unfold dispatch at h
  split at h
  · split at h
    · exact .inl ((purgeViews_purges n f.uid s).intents p e h)
    · exact .inl h
  · split at h
    · rw [(storeReport_stages (K := [n, s.ownNumber]) n _ _ s (by simp) (by simp)).intents] at h
      exact .inl h
    · exact .inl h
  · rename_i id pr ps hb
    split at h
    · rw [compareIntents_tdb] at h
      refine (storeIntent_holds _ s p e h).imp_right fun he => ?_
      rw [he]
      exact ⟨rfl, pr, ps, hb⟩
    · exact .inl h
  · split at h
    · exact .inl ((releaseIntent_purges _ _ s).intents p e h)
    · exact .inl h

/-! ## Frames taken (R20, R21) -/

/-- A CLAIM of neither mode of R187 fails check 2 of R20. -/
theorem unknownMode_iff (f : Frame) :
    (f.body.isClaim && !f.isClaimMode modeJoining && !f.isClaimMode modeDefending) = true ↔ ¬ f.modeKnown := by
  unfold Frame.modeKnown Frame.isClaimMode
  cases f.body <;> simp [Body.isClaim]

/-- The checks 1 to 3 of R20. -/
theorem discards_iff (s : State) (f : Frame) : s.discards f = true ↔ 48 ≤ f.number? ∨ ¬ f.modeKnown
    ∨ (s.dir.station = .joining ∧ f.isClaimMode 1 = true ∧ s.dir.candidate = some f.number? ∧ s.ownUid < f.uid) := by
  rw [State.discards, Bool.or_eq_true, Bool.or_eq_true, unknownMode_iff, or_assoc]
  simp only [Bool.and_eq_true, decide_eq_true_eq, and_assoc]
  rfl

theorem takeFrame_discarded (strap : BitVec 3) (f : Frame) (s : State) (h : s.discards f = true) : takeFrame strap f s = s := by
  simp [takeFrame, h]

theorem number?_claim {f : Frame} {r m : Nat} (h : f.body = .claim r m) : f.number? = r := by simp [Frame.number?, h]

/-- Frames that use a number too high and CLAIMs of an unknown mode fail the checks 1 and 2 of R20. -/
theorem discards_of_kind (s : State) (f : Frame) (h : (∃ r m, f.body = .claim r m ∧ (48 ≤ r ∨ (m ≠ 1 ∧ m ≠ 2)))
    ∨ 48 ≤ f.number ∧ ((∃ r, f.body = .report r) ∨ (∃ id p ps, f.body = .intent id p ps) ∨ ∃ id, f.body = .release id)) :
    s.discards f = true := by
  rw [discards_iff]
  rcases h with ⟨r, m, hb, hr | hm⟩ | ⟨hn, hb⟩
  · exact .inl (hr.trans_eq (number?_claim hb).symm)
  · refine .inr (.inl ?_)
    simpa [Frame.modeKnown, hb, modeJoining, modeDefending] using hm
  · refine .inl ?_
    rcases hb with ⟨r, hb⟩ | ⟨id, p, ps, hb⟩ | ⟨id, hb⟩ <;> simpa [Frame.number?, hb] using hn

section

variable {s : State} {n : Nat} {f : Frame}

/-- A frame of a number that is neither the part's own nor its candidate goes to acceptance (R20, R21). -/
theorem takeFrame_accepts (strap : BitVec 3) (hn : f.number? = n) (hlt : n < 48) (hm : f.modeKnown)
    (hc : s.dir.station = .joining → s.dir.candidate ≠ some n) (hown : ∀ u, s.entry n ≠ some (.own u)) :
    takeFrame strap f s = acceptFrame n f s := by
  have hd : s.discards f = false := by
    rw [Bool.eq_false_iff, Ne, discards_iff]
    rintro (h | h | ⟨hj, -, h, -⟩)
    · omega
    · exact h hm
    · exact hc hj (hn ▸ h)
  have hconf : s.conflicts f = false := by
    rw [Bool.eq_false_iff]
    intro h
    obtain ⟨hj, hcand⟩ := conflicts_candidate h
    exact hc hj (hn ▸ hcand)
  -- `hown` rules out the arm of the own number
  simp only [takeFrame, hd, hconf, hn, Bool.false_eq_true, if_false]

theorem exec_takeReceivedFrame_accepts (strap : BitVec 3) {rest : List Frame} (ho : s.offers f rest) (ha : s.active = true)
    (hn : f.number? = n) (hlt : n < 48) (hm : f.modeKnown) (hc : s.dir.station = .joining → s.dir.candidate ≠ some n)
    (hown : ∀ u, s.entry n ≠ some (.own u)) :
    exec (.takeReceivedFrame strap) s = .next (acceptFrame n f (s.withRxQueue rest)) := by
  rw [exec_takeReceivedFrame strap s f rest ho ha]
  exact congrArg _ (takeFrame_accepts (s := s.withRxQueue rest) strap hn hlt hm hc hown)

/-- A unique ID is lower than another, or it is the same. -/
theorem uid_lt_or_eq {u v : Uid} (h : u ≤ v) : u < v ∨ u = v := by
  rw [BitVec.le_def] at h
  rcases Nat.lt_or_eq_of_le h with h | h
  · exact .inl (BitVec.lt_def.2 h)
  · exact .inr (BitVec.eq_of_toNat_eq h)

/-- A JOINING or DEFENDING CLAIM of a station just entered does no more (R24). -/
theorem dispatch_claim_entered {m r : Nat} (hb : f.body = .claim r m) (t : State) : dispatch n .entered f t = t := by
  simp [dispatch, hb]

/-- A known peer's CLAIM is its restart (R24): its report and its intents go. -/
theorem dispatch_claim_known {m r : Nat} (hb : f.body = .claim r m) (t : State) : dispatch n .known f t = purgeViews n f.uid t := by
  simp [dispatch, hb]

/-- What a CLAIM for the number `n` leaves of a part that holds the peer `u` there, of no lower unique ID (R21, R24). -/
structure ClaimTakes (n : Nat) (f : Frame) (u : Uid) (s t : State) : Prop where
  entry : t.entry n = some (.peer f.uid f.lifetimeMs)
  shown : t.shows .peerChange
  report : place t.tdb.staging n = none
  intents : ∀ p e, place t.tdb.stagingIntents p = some e → e.entry.uid ≠ u
  moved : ∀ k, f.uid ≠ u → s.numberOf f.uid = some k → t.entry k = none ∨ t.entry k = s.entry k ∧ ∃ w, s.entry k = some (.own w)
  others : f.uid = u → ∀ k, k ≠ n → t.entry k = s.entry k
  view : s.sameView t
  slots : t.slots = s.slots
  sct : t.sct = s.sct
  org : t.org = s.org

/-- The claim of the peer that holds the number. -/
theorem restarted_claimTakes (hs : s.sized) (hn : n < 48) :
    ClaimTakes n f f.uid s (purgeViews n f.uid (setEntry n (some f.entry) s)) where
  entry := by
    rw [State.entry, purgeViews_dir]
    exact place_set_self _ n _ (by rwa [hs.1])
  shown := (raise_shows _ _ _).2 (.inl rfl)
  report := purgeViews_report n _ _
  intents := purgeViews_intent n _ _
  moved := fun _ h => absurd rfl h
  others := fun _ k hk => by
    rw [State.entry, purgeViews_dir]
    exact place_set_ne _ n k _ hk.symm
  view := (purgeViews_purges n f.uid _).view
  slots := purgeViews_slots ..
  sct := purgeViews_sct ..
  org := purgeViews_org ..

/-- The claim of a peer of a lower unique ID. -/
theorem entered_claimTakes {u : Uid} {l : Nat} (hs : s.sized) (hn : n < 48) (he : s.entry n = some (.peer u l)) (hu : f.uid < u) :
    ClaimTakes n f u s (s.entered n f) where
  entry := entered_entry_self hs hn
  shown := entered_shows s n f
  report := (entered_displaces he).1
  intents := (entered_displaces he).2
  moved := fun k _ hk => by
    have hadm : s.admits n f := .inr ⟨u, l, he, hu⟩
    obtain ⟨e, hek, hue⟩ := numberOf_holds hk
    cases e with
    | peer w l' =>
      cases (show w = f.uid from hue)
      exact .inl (entered_leaves hadm hk hek).1
    | own w => exact .inr ⟨entered_entry_own hadm hk hek, w, hek⟩
  others := fun h => absurd (h ▸ hu) (BitVec.lt_irrefl _)
  view := (entered_purges s n f).view
  slots := by simp [State.entered]
  sct := by simp [State.entered]
  org := by simp [State.entered]

theorem acceptFrame_claimTakes {u : Uid} {l m : Nat} (hs : s.sized) (hn : n < 48) (hb : f.body = .claim n m)
    (he : s.entry n = some (.peer u l)) (hu : f.uid ≤ u) : ClaimTakes n f u s (acceptFrame n f s) := by
  rcases uid_lt_or_eq hu with hlt | rfl
  · rw [acceptFrame_admitted n f s (.inr ⟨u, l, he, hlt⟩), dispatch_claim_entered hb]
    exact entered_claimTakes hs hn he hlt
  · rw [acceptFrame_known n f s l he, dispatch_claim_known hb]
    exact restarted_claimTakes hs hn

/-! ## The report and the intent of a station just entered (R24, R71, R80) -/

/-- Its well-formed report is stored where none is held, or where a peer was displaced. -/
theorem entered_report_stored {r : Report} (hs : s.sized) (hn : n < 48) (hadm : s.admits n f) (hb : f.body = .report r)
    (hw : r.wellFormed = true) (ho : n ≠ s.ownNumber) (hfree : place s.tdb.staging n = none ∨ s.entry n ≠ none) :
    place (dispatch n .entered f (s.entered n f)).tdb.staging n = some { uid := f.uid, report := r.clamped }
      ∧ (dispatch n .entered f (s.entered n f)).tdb.dirty = true := by
  have hempty : place (s.entered n f).tdb.staging n = none := by
    rcases hadm with hnone | ⟨u, l, he, -⟩
    · exact (entered_purges s n f).reports n (hfree.resolve_right fun h => h hnone)
    · exact (entered_displaces he).1
  have hnum : (s.entered n f).ownNumber = s.ownNumber := entered_ownNumber s n f
  obtain ⟨-, hlen, -⟩ := entered_sized (n := n) (f := f) hs
  simp only [dispatch, hb, hw, if_true]
  exact storeReport_first n f.uid r.clamped _ hempty (by rwa [hnum]) (by rwa [hlen])

/-- Its well-formed intent is stored where a place is empty. -/
theorem entered_intent_stored {id pr q : Nat} {ps : List Pair} (hb : f.body = .intent id pr ps) (hw : intentWellFormed id pr ps = true)
    (hq : s.tdb.stagingIntents[q]? = some none) :
    ∃ p, place (dispatch n .entered f (s.entered n f)).tdb.stagingIntents p
      = some { entry := { uid := f.uid, id := id, priority := pr, pairs := ps }, left := 1000 * s.psr.working.lifetime } := by
  have hlife : (s.entered n f).psr = s.psr := by simp [State.entered]
  simp only [dispatch, hb, hw, if_true, compareIntents_tdb, ← hlife]
  exact storeIntent_stores _ _ q ((entered_purges s n f).rooms q hq)

/-- What the acceptance of a frame that uses the number `n` leaves, whatever its kind (R21, R24). -/
structure Accepted (n : Nat) (f : Frame) (s t : State) : Prop where
  entry : t.entry n = some (.peer f.uid f.lifetimeMs)
  view : s.sameView t
  others : ∀ k, k ≠ n → s.numberOf f.uid ≠ some k → t.entry k = s.entry k
  displaced : ∀ u l p e, s.entry n = some (.peer u l) → f.uid < u → place t.tdb.stagingIntents p = some e → e.entry.uid ≠ u

theorem known_accepted {l : Nat} (hs : s.sized) (hn : n < 48) (he : s.entry n = some (.peer f.uid l)) :
    Accepted n f s (acceptFrame n f s) := by
  rw [acceptFrame_known n f s l he]
  refine ⟨?_, dispatch_view n .known f (setEntry n (some f.entry) s), fun k hk _ => ?_, fun u l' p e he' hu _ => ?_⟩
  · rw [State.entry, dispatch_dir]
    exact place_set_self _ n _ (by rwa [hs.1])
  · rw [State.entry, dispatch_dir]
    exact place_set_ne _ n k _ hk.symm
  · cases he.symm.trans he'
    exact absurd hu (BitVec.lt_irrefl _)

theorem entered_accepted (hs : s.sized) (hn : n < 48) (hadm : s.admits n f) : Accepted n f s (acceptFrame n f s) := by
  have hentry : ∀ k, (dispatch n .entered f (s.entered n f)).entry k = (s.entered n f).entry k := fun k => by
    rw [State.entry, dispatch_dir, State.entry]
  rw [acceptFrame_admitted n f s hadm]
  refine ⟨(hentry n).trans (entered_entry_self hs hn), sameView_trans (entered_purges s n f).view (dispatch_view ..),
    fun k hk hnum => (hentry k).trans (entered_entry_other hadm hk hnum), fun u l p e he hu hp => ?_⟩
  rcases dispatch_intents n _ f _ p e hp with hin | ⟨heq, -⟩
  · exact (entered_displaces he).2 p e hin
  · rw [heq]
    exact fun h => BitVec.lt_irrefl _ (h ▸ hu)

/-- What a station that moves leaves behind, whatever its frame (R21). -/
theorem entered_dispatch_leaves (hadm : s.admits n f) {k l : Nat} (hk : k ≠ n) (hnum : s.numberOf f.uid = some k)
    (he : s.entry k = some (.peer f.uid l)) :
    (dispatch n .entered f (s.entered n f)).entry k = none
      ∧ (k ≠ s.ownNumber → place (dispatch n .entered f (s.entered n f)).tdb.staging k = none)
      ∧ ∀ p e, place (dispatch n .entered f (s.entered n f)).tdb.stagingIntents p = some e → e.entry.uid = f.uid →
          ∃ pr ps, f.body = .intent e.entry.id pr ps := by
  obtain ⟨hgone, hreport, hintents⟩ := entered_leaves hadm hnum he
  refine ⟨by rw [State.entry, dispatch_dir]; exact hgone, fun ho => dispatch_reports n _ f _ k hk ?_ hreport, fun p e hp hu => ?_⟩
  · rwa [entered_ownNumber]
  · rcases dispatch_intents n _ f _ p e hp with hin | ⟨-, hbody⟩
    · exact absurd hu (hintents p e hin)
    · exact hbody

end

theorem lifetimeMs_bounds (f : Frame) : 4000 ≤ f.lifetimeMs ∧ f.lifetimeMs ≤ 240000
    ∧ (4 ≤ f.lifetime → f.lifetime ≤ 240 → f.lifetimeMs = 1000 * f.lifetime) := by
  obtain ⟨hlo, hhi⟩ := clamp_bounds 4 240 f.lifetime (by decide)
  refine ⟨?_, ?_, fun h₁ h₂ => ?_⟩ <;> unfold Frame.lifetimeMs
  · omega
  · omega
  · rw [clamp_id 4 240 _ h₁ h₂]

/-- Settles O20: lifetimes, discards, CLAIMs, and frames of every kind. -/
theorem framesAreAcceptedByNumberAndUid : Obligations.FramesAreAcceptedByNumberAndUid := by
  refine ⟨lifetimeMs_bounds, fun s strap f rest ho ha hk => ?_, fun s strap f rest n m ho hs ha hc hb hn hm => ?_,
    fun s strap f rest n ho hs ha hc hnum hn hm => ?_⟩
  · rw [exec_takeReceivedFrame strap s f rest ho ha, takeFrame_discarded strap f _ (discards_of_kind _ f hk)]
  · have hmode : f.modeKnown := by simpa [Frame.modeKnown, hb, modeJoining, modeDefending] using hm
    have taken := exec_takeReceivedFrame_accepts strap ho ha (number?_claim hb) hn hmode hc
    refine ⟨fun he hnone => ?_, fun u l he hu => ?_, fun u l he hu => ?_⟩
    · have hadm : (s.withRxQueue rest).admits n f := .inl he
      rw [taken (by simp [he]), acceptFrame_admitted n f _ hadm, dispatch_claim_entered hb]
      rcases entered_eq hadm with ⟨k, hk, -⟩ | ⟨-, ht⟩
      · cases hnone.symm.trans hk
      · rw [ht, purge_empty n (s.withRxQueue rest) he]
        rfl
    · rw [taken (by simp [he]), acceptFrame_outranked n f (s.withRxQueue rest) u l he hu]
    · have h := acceptFrame_claimTakes (s := s.withRxQueue rest) hs hn hb he hu
      exact ⟨_, taken (by simp [he]), h.entry, h.shown, h.report, h.intents, h.moved, h.others, h.view, h.slots, h.sct, h.org⟩
  · have taken := exec_takeReceivedFrame_accepts strap ho ha hnum hn hm hc
    refine ⟨fun u l he hu => ?_, fun hor => ?_⟩
    · rw [taken (by simp [he]), acceptFrame_outranked n f (s.withRxQueue rest) u l he hu]
    · have hown : ∀ u, s.entry n ≠ some (.own u) := fun w h => by
        rcases hor with he | ⟨u, l, he, -⟩ <;> cases he.symm.trans h
      have acc : Accepted n f (s.withRxQueue rest) (acceptFrame n f (s.withRxQueue rest)) := by
        rcases hor with he | ⟨u, l, he, hu⟩
        · exact entered_accepted (s := s.withRxQueue rest) hs hn (.inl he)
        · rcases uid_lt_or_eq hu with hlt | rfl
          · exact entered_accepted (s := s.withRxQueue rest) hs hn (.inr ⟨u, l, he, hlt⟩)
          · exact known_accepted (s := s.withRxQueue rest) hs hn he
      refine ⟨_, taken hown, acc.entry, acc.view, acc.others, acc.displaced, fun hnew => ?_⟩
      have hadm : (s.withRxQueue rest).admits n f := by
        rcases hor with he | ⟨u, l, he, hu⟩
        · exact .inl he
        · refine .inr ⟨u, l, he, (uid_lt_or_eq hu).resolve_right ?_⟩
          rintro rfl
          exact hnew l he
      rw [acceptFrame_admitted n f _ hadm]
      exact ⟨(dispatch_steady ..).shown _ (entered_shows _ n f),
        fun k l hk hnum he => entered_dispatch_leaves (s := s.withRxQueue rest) hadm hk hnum he,
        fun r hb hw hno hfree => entered_report_stored (s := s.withRxQueue rest) hs hn hadm hb hw hno hfree,
        fun id pr ps q hb hw hq => entered_intent_stored (s := s.withRxQueue rest) hb hw hq⟩

end Sys2Proof.Machine
end

section
/-! # The equipped set at the end of a load -/

namespace Sys2Proof.Machine

/-- A fold over the degrees, each step at its own, does to a degree what its own step does. -/
theorem foldl_range_at (f : State → Nat → State) (hf : ∀ s k d, k ≠ d → (f s k).degrees[d]? = s.degrees[d]?) (s : State) {n d : Nat}
    (h : d < n) : ∃ u, u = (List.range d).foldl f s ∧ u.degrees[d]? = s.degrees[d]?
      ∧ ((List.range n).foldl f s).degrees[d]? = (f u d).degrees[d]? := by
  have elsewhere : ∀ (l : List Nat) (u : State), d ∉ l → (l.foldl f u).degrees[d]? = u.degrees[d]? := fun l => by
    induction l with
    | nil => exact fun u _ => rfl
    | cons k l ih =>
      intro u hd
      obtain ⟨hk, hl⟩ := not_or.1 (mt List.mem_cons.2 hd)
      rw [List.foldl_cons, ih _ hl, hf u k d (Ne.symm hk)]
  obtain ⟨m, rfl⟩ := Nat.exists_eq_add_of_lt h
  refine ⟨_, rfl, elsewhere _ s (by simp), ?_⟩
  rw [show d + m + 1 = d + (m + 1) by omega, List.range_add, List.foldl_append, List.range_succ_eq_map, List.map_cons, List.foldl_cons]
  exact elsewhere _ _ (by simp)

/-- R39: what a load's end makes of the degree `x`, by whether it is in the equipped set and by its filtered level. -/
def Degree.FitsLoad (fitted : Bool) (lol : Option Bool) (x y : Degree) : Prop :=
  (fitted = true →
      (x.trace = .unequipped → lol = some true → y.trace = .dark)
      ∧ (x.trace = .unequipped → lol ≠ some true → y.trace = .searching none ∧ y.receiver = .hunt 13)
      ∧ (x.trace ≠ .unequipped → y.trace = x.trace ∧ y.receiver = x.receiver))
    ∧ (fitted = false → y.trace = .unequipped ∧ y.txWord = none ∨ x.trace = .unequipped ∧ y = x)

theorem applyEquipped_elsewhere (s : State) (k d : Nat) (h : k ≠ d) : (applyEquipped s k).degrees[d]? = s.degrees[d]? := by
  unfold applyEquipped
  split
  · next x hx =>
    have hk := (List.getElem?_eq_some_iff.1 hx).1
    split <;> simp [changeDegree_degrees _ _ _ hk, h]
  · rfl

theorem applyEquipped_at (s : State) (d : Nat) (x : Degree) (hx : s.degrees[d]? = some x) :
    ∃ y, (applyEquipped s d).degrees[d]? = some y ∧ x.FitsLoad (s.psr.working.equipped.getLsbD d) (s.lolLevel d) y := by
  have hd := (List.getElem?_eq_some_iff.1 hx).1
  have taken : ∀ y, (changeDegree d y s).degrees[d]? = some y := fun y => by simp [changeDegree_degrees _ _ _ hd, hd]
  simp only [applyEquipped, hx]
  split
  · next hf ht =>
    refine ⟨_, taken _, fun _ => ⟨fun _ hl => ?_, fun _ hl => ?_, fun hn => absurd ht hn⟩, fun h => by rw [hf] at h; cases h⟩
    · rw [if_pos hl]; rfl
    · rw [if_neg hl]; exact ⟨rfl, rfl⟩
  · next hf hn =>
    exact ⟨x, hx, fun _ => ⟨fun h => absurd h hn, fun h => absurd h hn, fun _ => ⟨rfl, rfl⟩⟩, fun h => by rw [hf] at h; cases h⟩
  · next hf ht => exact ⟨x, hx, fun h => (by rw [hf] at h; cases h), fun _ => .inr ⟨ht, rfl⟩⟩
  · next hf _ => exact ⟨_, taken _, fun h => (by rw [hf] at h; cases h), fun _ => .inl ⟨rfl, rfl⟩⟩

/-- A word that begins leaves trace state and receiver, and an unequipped degree whole (R36). -/
theorem sendWord_at (d : Nat) (s : State) (x : Degree) (hx : s.degrees[d]? = some x) : ∃ y, (sendWord d s).degrees[d]? = some y
    ∧ y.trace = x.trace ∧ y.receiver = x.receiver ∧ (x.trace = .unequipped → y = x) := by
  have hd := (List.getElem?_eq_some_iff.1 hx).1
  simp only [sendWord, hx]
  split
  · next hs =>
    refine ⟨_, List.getElem?_set_self hd, rfl, rfl, fun ht => ?_⟩
    simp [ht, Trace.equipped] at hs
  · exact ⟨x, hx, rfl, rfl, fun _ => rfl⟩

theorem sendWord_elsewhere (s : State) (k d : Nat) (h : k ≠ d) : (sendWord k s).degrees[d]? = s.degrees[d]? := by
  unfold sendWord
  split
  · split
    · exact List.getElem?_set_ne h
    · rfl
  · rfl

/-- The first words that begin at the end of a load keep what the load made of a degree. -/
theorem Degree.FitsLoad.sent {fitted : Bool} {lol : Option Bool} {x y z : Degree} (h : x.FitsLoad fitted lol y) (ht : z.trace = y.trace)
    (hr : z.receiver = y.receiver) (hz : y.trace = .unequipped → z = y) : x.FitsLoad fitted lol z := by
  obtain ⟨hin, hout⟩ := h
  refine ⟨fun hf => by rw [ht, hr]; exact hin hf, fun hf => ?_⟩
  rcases hout hf with ⟨hy, hw⟩ | ⟨hx, rfl⟩
  · rw [hz hy]
    exact .inl ⟨hy, hw⟩
  · exact .inr ⟨hx, hz hx⟩

theorem applyLoad_at (s : State) (d : Nat) (x : Degree) (h : d < 8) (hx : s.degrees[d]? = some x) :
    ∃ y, (applyLoad s).degrees[d]? = some y ∧ x.FitsLoad (s.psr.working.equipped.getLsbD d) (s.lolLevel d) y := by
  obtain ⟨u, rfl, hu, hd⟩ := foldl_range_at applyEquipped applyEquipped_elsewhere s h
  have hpsr := foldl_keeps applyEquipped State.psr (fun t k => applyEquipped_psr t k) (List.range d) s
  have hpins := foldl_keeps applyEquipped State.pins (fun t k => applyEquipped_pins t k) (List.range d) s
  have hat := applyEquipped_at _ d x (hu.trans hx)
  rw [hpsr, State.lolLevel, hpins] at hat
  rw [applyLoad, foldl_keeps decideHeldExpiry State.degrees fun t k => decideHeldExpiry_degrees t k, show Config.degrees = 8 from rfl, hd]
  exact hat

theorem enterStandby_at (s : State) (d : Nat) (y : Degree) (h : d < 8) (hy : s.degrees[d]? = some y) :
    ∃ z, (enterStandby s).degrees[d]? = some z ∧ z.trace = y.trace ∧ z.receiver = y.receiver ∧ (y.trace = .unequipped → z = y) := by
  obtain ⟨u, -, hu, hd⟩ := foldl_range_at (fun s d => sendWord d s) sendWord_elsewhere
    { s with tdb := { s.tdb with epochTimer := some (s.psr.working.epoch * Config.epochUnitMs) } } h
  rw [enterStandby, beginWords, show Config.degrees = 8 from rfl, hd]
  exact sendWord_at d u y (hu.trans hy)

/-- At a load's end the equipped set is applied with the parameters just loaded, and the station state is entered after it (R39, R179). -/
theorem endLoad_applies (s : State) (hl : s.loadRuns = true) : ∃ u, u.psr.working = loadParams s.psr.store ∧ u.pins = s.pins
    ∧ u.degrees = s.degrees ∧ (endLoad s = enterFaulted (applyLoad u) ∨ endLoad s = enterStandby (applyLoad u)) := by
  rw [endLoad, if_pos hl]
  dsimp only
  generalize hu : (if s.psr.firstLoad = true then seedGenerator (setPsr s.psr.loaded s) else setPsr s.psr.loaded s) = u
  have hkeeps : u.psr.working = loadParams s.psr.store ∧ u.pins = s.pins ∧ u.degrees = s.degrees := by
    subst hu
    split <;> exact ⟨rfl, rfl, rfl⟩
  obtain ⟨hpsr, hpins, hdegrees⟩ := hkeeps
  split
  · exact ⟨setStation .faulted u, hpsr, hpins, hdegrees, .inl rfl⟩
  · exact ⟨setStation .standby u, hpsr, hpins, hdegrees, .inr rfl⟩

/-- Settles O6: the equipped set is applied to every degree, and where the load leads to STANDBY the first words begin after it. -/
theorem equippedSetTakesEffectAtLoadEnd : Obligations.EquippedSetTakesEffectAtLoadEnd := by
  intro s d x ⟨hr, hst, hload⟩ h hx
  obtain ⟨u, hpsr, hpins, hdegrees, hend⟩ := endLoad_applies s (by simp [State.loadRuns, hst, hload])
  obtain ⟨y, hy, hfit⟩ := applyLoad_at u d x h (hdegrees ▸ hx)
  rw [hpsr, State.lolLevel, hpins] at hfit
  have hexec : exec .loadEnd s = .next (endLoad s) := congrArg Host.Outcome.next (live_of_running endLoad s hr)
  rcases hend with hend | hend <;> rw [hend] at hexec
  · exact ⟨_, y, hexec, by rw [enterFaulted_degrees]; exact hy, hfit⟩
  · obtain ⟨z, hz, ht, hrec, hkept⟩ := enterStandby_at _ d y h hy
    exact ⟨_, z, hexec, hz, hfit.sent ht hrec hkept⟩

end Sys2Proof.Machine
end

section
/-! # Degree tracing: what HUNT finds, what a judgement does, what a word carries (R34 to R42) -/

namespace Sys2Proof.Machine

/-! ## The levels of a trace line (R34) -/

theorem manchester_append (a b : List Bool) : manchester (a ++ b) = manchester a ++ manchester b := List.flatMap_append

@[simp] theorem manchester_length (bits : List Bool) : (manchester bits).length = 2 * bits.length := by
  induction bits with
  | nil => rfl
  | cons b bits ih => simp [manchester, bitLevels] at ih ⊢; omega

@[simp] theorem syncBits_length : syncBits.length = 16 := rfl

/-- Lists that end alike end one another exactly when what stands before their common end does. -/
theorem append_suffix_append_iff {α : Type} {u v x y : List α} (h : x.length = y.length) : u ++ x <:+ v ++ y ↔ u <:+ v ∧ x = y := by
  constructor
  · rintro ⟨t, ht⟩
    obtain ⟨hv, hxy⟩ := List.append_inj' ((List.append_assoc ..).trans ht) h
    exact ⟨⟨t, hv⟩, hxy⟩
  · rintro ⟨⟨t, rfl⟩, rfl⟩
    exact ⟨t, by simp⟩

/-! ## HUNT (R37) -/

/-- The run after one more bit period with the halves `a` and `b`: nothing after a code violation, else the latest 16 bits. -/
def nextRun (run : List Bool) (a b : Bool) : List Bool := if a = b then [] else lastN 16 (run ++ [a])

theorem huntSync_cons (run : List Bool) (a b : Bool) (rest : List Bool) :
    huntSync run (a :: b :: rest) = if nextRun run a b = syncBits then some rest else huntSync (nextRun run a b) rest := by
  simp only [huntSync, nextRun, lastN, syncBits_length, List.length_append, List.length_singleton]
  split
  · exact (if_neg (by decide)).symm
  · rfl

/-- After the levels `before` HUNT holds the run `run`: of bits up to 16, those that end the run are those that end the levels. -/
def HeardRun (before run : List Bool) : Prop :=
  run.length ≤ 16 ∧ ∀ bits : List Bool, bits.length ≤ 16 → (manchester bits <:+ before ↔ bits <:+ run)

theorem heardRun_nil : HeardRun [] [] :=
  ⟨Nat.zero_le _, fun bits _ => by cases bits <;> simp [manchester, bitLevels]⟩

theorem suffix_lastN_iff {α : Type} (n : Nat) (bits l : List α) (h : bits.length ≤ n) : bits <:+ lastN n l ↔ bits <:+ l := by
  have hl : lastN n l <:+ l := List.drop_suffix _ _
  refine ⟨fun hb => hb.trans hl, fun hb => List.suffix_of_suffix_length_le hb hl ?_⟩
  have := hb.length_le
  simp only [lastN, List.length_drop]
  omega

theorem heardRun_next {before run : List Bool} (h : HeardRun before run) (a b : Bool) :
    HeardRun (before ++ [a, b]) (nextRun run a b) := by
  obtain ⟨-, hrun⟩ := h
  unfold nextRun
  refine ⟨by split; exacts [Nat.zero_le _, lastN_length _ _], fun bits hb => ?_⟩
  rcases List.eq_nil_or_concat bits with rfl | ⟨init, c, rfl⟩
  · exact iff_of_true List.nil_suffix List.nil_suffix
  rw [List.concat_eq_append] at hb ⊢
  have hinit : init.length ≤ 16 := by simp at hb; omega
  have hc : manchester [c] = [c, !c] := rfl
  rw [manchester_append, hc, append_suffix_append_iff (x := [c, !c]) (y := [a, b]) rfl, hrun init hinit]
  split
  · next hab => cases c <;> simp [← hab]
  · next hab =>
    rw [suffix_lastN_iff 16 _ _ hb, append_suffix_append_iff (x := [c]) (y := [a]) rfl]
    cases a <;> cases b <;> simp at hab ⊢

/-- The run is the sync pattern exactly when the sync pattern's levels have just been heard. -/
theorem HeardRun.sync {before run : List Bool} (h : HeardRun before run) : run = syncBits ↔ manchester syncBits <:+ before := by
  obtain ⟨hlen, hrun⟩ := h
  rw [hrun syncBits (by simp)]
  exact ⟨fun he => he ▸ List.suffix_rfl, fun hs => (hs.eq_of_length_le (by simpa using hlen)).symm⟩

/-- HUNT matches at the end of the `k` bit periods exactly when the sync pattern's levels end there, and nowhere before. -/
theorem huntSync_eq_some_nil_iff (k : Nat) {before run levels : List Bool} (h : HeardRun before run) (hl : levels.length = 2 * k) :
    huntSync run levels = some [] ↔ 0 < k ∧ manchester syncBits <:+ before ++ levels
      ∧ ∀ m, 0 < m → m < k → ¬ manchester syncBits <:+ before ++ levels.take (2 * m) := by
  induction k generalizing before run levels with
  | zero =>
    obtain rfl := List.length_eq_zero_iff.1 hl
    simp [huntSync]
  | succ k ih =>
    obtain ⟨a, b, rest, rfl⟩ : ∃ a b rest, levels = a :: b :: rest := by
      match levels, hl with
      | a :: b :: rest, _ => exact ⟨a, b, rest, rfl⟩
    have hrest : rest.length = 2 * k := by simp at hl; omega
    have hnext := heardRun_next h a b
    have hcons : before ++ a :: b :: rest = before ++ [a, b] ++ rest := by simp
    have htake : ∀ m, before ++ (a :: b :: rest).take (2 * (m + 1)) = before ++ [a, b] ++ rest.take (2 * m) := fun m => by
      simp [Nat.mul_succ]
    rw [huntSync_cons, hcons]
    split <;> rename_i hs <;> rw [hnext.sync] at hs
    · refine ⟨fun he => ?_, fun ⟨_, _, hfirst⟩ => ?_⟩
      · cases he
        exact ⟨k.succ_pos, by simpa using hs, fun m _ _ => by simp at hrest; omega⟩
      · rcases k.eq_zero_or_pos with rfl | hk
        · rw [List.length_eq_zero_iff.1 hrest]
        · exact absurd (by simpa using hs) (hfirst 1 Nat.one_pos (Nat.succ_lt_succ hk))
    · rw [ih hnext hrest]
      refine ⟨fun ⟨_, hend, hfirst⟩ => ⟨k.succ_pos, hend, fun m hm hlt => ?_⟩,
        fun ⟨_, hend, hfirst⟩ => ⟨?_, hend, fun m hm hlt => ?_⟩⟩
      · obtain ⟨m, rfl⟩ := Nat.exists_eq_succ_of_ne_zero hm.ne'
        rw [htake]
        rcases m.eq_zero_or_pos with rfl | hm
        · simpa using hs
        · exact hfirst m hm (Nat.lt_of_succ_lt_succ hlt)
      · refine Nat.pos_of_ne_zero fun hk => hs ?_
        subst hk
        simpa [List.length_eq_zero_iff.1 hrest] using hend
      · rw [← htake]
        exact hfirst (m + 1) m.succ_pos (Nat.succ_lt_succ hlt)

/-- The sync pattern ends at the bit period `k` exactly when the levels up to there end with its levels. -/
theorem syncAt_iff (levels : List Bool) (k : Nat) (h : 2 * k ≤ levels.length) :
    syncAt levels k ↔ manchester syncBits <:+ levels.take (2 * k) := by
  have hs : manchester (bitsMsb (0x1F35 : BitVec 16)) = manchester syncBits := rfl
  rw [syncAt, hs, List.suffix_iff_eq_drop, manchester_length, List.length_take, List.drop_take, Nat.min_eq_left h, syncBits_length]
  refine ⟨fun ⟨hk, ht⟩ => ?_, fun ht => ?_⟩
  · rw [← ht, Nat.mul_sub, show 2 * k - (2 * k - 2 * 16) = 32 by omega]
  · have hlen := congrArg List.length ht
    simp at hlen
    have hk : 16 ≤ k := by omega
    refine ⟨hk, ?_⟩
    rw [ht, Nat.mul_sub, show 2 * k - (2 * k - 2 * 16) = 32 by omega]

theorem exec_traceSyncMatch {s : State} {d n : Nat} {x : Degree} {levels : List Bool} (h : s.hears d x) (hx : x.receiver = .hunt n) :
    exec (.traceSyncMatch { degree := d, levels := levels }) s
      = .next (if matchesSync levels = true then { s with degrees := s.degrees.set d { x with receiver := .found } } else s) := by
  obtain ⟨hr, hd, hh, hf⟩ := h
  have hruns : s.receiverRuns x = true := by simp [State.receiverRuns, hh, hf]
  show Host.Outcome.next (live (matchSync d levels) s) = _
  rw [live_of_running _ s hr]
  simp only [matchSync, hd, hx, hruns, Bool.true_and]
  rfl

/-- HUNT's match, said of the levels heard. -/
theorem matchesSync_iff {levels : List Bool} {k : Nat} (h : levels.length = 2 * k) :
    matchesSync levels = true ↔ syncAt levels k ∧ ∀ m, m < k → ¬ syncAt levels m := by
  have hat : ∀ m, m ≤ k → (syncAt levels m ↔ manchester syncBits <:+ levels.take (2 * m)) := fun m hm => syncAt_iff levels m (by omega)
  rw [matchesSync, beq_iff_eq, huntSync_eq_some_nil_iff k heardRun_nil h, hat k le_rfl, ← h, List.take_length]
  refine ⟨fun ⟨_, hend, hfirst⟩ => ⟨hend, fun m hm hs => ?_⟩, fun ⟨hend, hfirst⟩ => ⟨?_, hend, fun m _ hm => ?_⟩⟩
  · exact hfirst m (by have := hs.1; omega) hm ((hat m hm.le).1 hs)
  · have := hend.length_le
    rw [manchester_length, syncBits_length] at this
    omega
  · exact fun hs => hfirst m hm ((hat m hm.le).2 hs)

/-! ## Judgements (R37, R40 to R42) -/

section
variable {id : Identity} {cand : Option Candidate}

/-- A good word of the candidate's identity counts one more, any other begins a candidate (R40, R42). -/
theorem countGood_same {c : Candidate} (hc : cand = some c) (h : c.id = id) : countGood cand id = { id := id, good := c.good + 1 } := by
  subst hc h
  exact if_pos rfl

theorem countGood_new (h : ∀ c, cand = some c → c.id ≠ id) : countGood cand id = { id := id, good := 1 } := by
  cases cand with
  | none => rfl
  | some c => exact if_neg (h c rfl)

/-- What a good word of the identity `id` makes of a trace state that waits for three: the third in a row makes `id` the neighbour, and
until then `wait` holds the candidate (R40, R42). -/
def Trace.counted (wait : Option Candidate → Trace) (cand : Option Candidate) (id : Identity) (number : Nat) (farEnd : Bool) : Trace :=
  if 3 ≤ (countGood cand id).good then .traced id number farEnd none 0 else wait (some (countGood cand id))

variable {wait : Option Candidate → Trace} {n : Nat} {f : Bool}

theorem counted_third {c : Candidate} (hc : cand = some c) (h : c.id = id) (hg : 2 ≤ c.good) :
    Trace.counted wait cand id n f = .traced id n f none 0 := by
  rw [Trace.counted, countGood_same hc h, if_pos (Nat.succ_le_succ hg)]

theorem counted_again {c : Candidate} (hc : cand = some c) (h : c.id = id) (hg : c.good < 2) :
    Trace.counted wait cand id n f = wait (some { id := id, good := c.good + 1 }) := by
  rw [Trace.counted, countGood_same hc h, if_neg (Nat.not_le_of_lt (Nat.succ_lt_succ hg))]

theorem counted_first (h : ∀ c, cand = some c → c.id ≠ id) : Trace.counted wait cand id n f = wait (some { id := id, good := 1 }) := by
  rw [Trace.counted, countGood_new h, if_neg (show ¬ 3 ≤ 1 by decide)]

/-- A degree that still counts toward a neighbour has lost none when what waits holds one. -/
theorem counted_nbr (h : ∀ c, (wait c).nbr ≠ none) : (Trace.counted wait cand id n f).nbr ≠ none := by
  unfold Trace.counted
  split
  · exact nofun
  · exact h _

variable {x : Degree} {r : Receiver} {nbr : Identity} {num bad : Nat} {far : Bool}

/-- A judgement by the trace state it leads to: the receiver is left in `r` unless TRACED is lost (R37). -/
theorem judge_keeps {t : Trace} {j : Judgement} (ht : x.trace.judge j = t) (hl : x.trace.nbr = none ∨ t.nbr ≠ none) :
    (x.judge j r).trace = t ∧ (x.judge j r).receiver = r := by
  refine ⟨ht, if_neg ?_⟩
  rw [ht]
  rcases hl with h | h <;> simp [lostTrace, h]

theorem judge_searching_invalid (hx : x.trace = .searching cand) :
    (x.judge .invalid r).trace = .searching none ∧ (x.judge .invalid r).receiver = r := judge_keeps (by rw [hx]; rfl) (.inl (by rw [hx]; rfl))

theorem judge_searching_valid (hx : x.trace = .searching cand) : (x.judge (.valid id n f) r).trace = .counted .searching cand id n f
    ∧ (x.judge (.valid id n f) r).receiver = r := judge_keeps (by rw [hx]; rfl) (.inl (by rw [hx]; rfl))

theorem judge_traced_invalid (hx : x.trace = .traced nbr num far cand bad) (hb : bad < 3) :
    (x.judge .invalid r).trace = .traced nbr num far none (bad + 1) ∧ (x.judge .invalid r).receiver = r :=
  judge_keeps (by rw [hx]; exact if_neg (by omega)) (.inr nofun)

/-- The fourth invalid word in a row loses the neighbour, and the receiver hunts again (R41). -/
theorem judge_traced_lost (hx : x.trace = .traced nbr num far cand bad) (hb : 3 ≤ bad) :
    (x.judge .invalid r).trace = .searching none ∧ (x.judge .invalid r).receiver = .hunt 13 := by
  have ht : x.trace.judge .invalid = .searching none := by rw [hx]; exact if_pos (by omega)
  exact ⟨ht, if_pos (by rw [ht, hx]; rfl)⟩

theorem judge_traced_neighbour (hx : x.trace = .traced nbr num far cand bad) :
    (x.judge (.valid nbr n f) r).trace = .traced nbr n f none 0 ∧ (x.judge (.valid nbr n f) r).receiver = r :=
  judge_keeps (by rw [hx]; exact if_pos rfl) (.inr nofun)

theorem judge_traced_other (hx : x.trace = .traced nbr num far cand bad) (hid : id ≠ nbr) :
    (x.judge (.valid id n f) r).trace = .counted (fun c => .traced nbr num far c 0) cand id n f
      ∧ (x.judge (.valid id n f) r).receiver = r :=
  judge_keeps (by rw [hx]; exact if_neg hid) (.inr (counted_nbr fun _ => nofun))

end

theorem exec_traceWordJudgement {s : State} {d : Nat} {x : Degree} {levels : List Bool} {j : Judgement} {r : Receiver} (h : s.hears d x)
    (hj : x.receiver.judges s.ownUid levels = some (j, r)) :
    exec (.traceWordJudgement d levels) s = .next (changeDegree d (x.judge j r) s) := by
  obtain ⟨hr, hd, hh, hf⟩ := h
  show Host.Outcome.next (live (judgeHeard d levels) s) = _
  rw [live_of_running _ s hr]
  simp [judgeHeard, hd, hj, State.receiverRuns, hh, hf]

theorem exec_huntTimerExpiry {s : State} {d n : Nat} {x : Degree} (h : s.hears d x) (hx : x.receiver = .hunt n) :
    exec (.huntTimerExpiry d) s = .next (changeDegree d (x.judge .invalid (.hunt 13)) s) := by
  obtain ⟨hr, hd, hh, hf⟩ := h
  show Host.Outcome.next (live (huntExpired d) s) = _
  rw [live_of_running _ s hr]
  simp [huntExpired, hd, hx, State.receiverRuns, hh, hf]
  rfl

/-- In LOCKED a word that begins with the sync pattern is judged by its content, any other is lost (R37). -/
theorem judges_locked_word {own : Uid} {levels : List Bool} {w : TraceWord} (hw : heardWord levels = some w) :
    Receiver.locked.judges own levels = some (if wordSync w = syncPattern then (judgeWord own w, .locked) else (.invalid, .hunt 13)) := by
  rw [Receiver.judges, hw, Option.filter_some]
  by_cases hs : wordSync w = syncPattern
  · rw [if_pos hs, if_pos (beq_iff_eq.2 hs)]
    rfl
  · rw [if_neg hs, if_neg fun he => hs (beq_iff_eq.1 he)]
    rfl

/-- Settles O27: the first sync pattern stops the hunt, and each judgement moves the trace state by its table. -/
theorem judgementsMoveTheTraceState : Obligations.JudgementsMoveTheTraceState := by
  refine ⟨fun s d n k x levels h hx hl => ?_, fun s d x c j r h hc => ?_⟩
  · have hm := matchesSync_iff hl
    rw [exec_traceSyncMatch h hx]
    exact ⟨fun hs hfirst => by rw [if_pos (hm.2 ⟨hs, hfirst⟩)], fun hs => by rw [if_neg fun he => hs (hm.1 he).1]⟩
  have hexec : exec c s = .next (changeDegree d (x.judge j r) s) := by
    rcases hc with ⟨levels, w, rfl, rfl, rfl, ⟨hx, hw⟩ | ⟨hx, hw, hs⟩⟩ | ⟨levels, w, rfl, hw, rfl, rfl, hx, hs⟩
      | ⟨levels, rfl, rfl, rfl, ⟨hx, hw⟩ | ⟨hx, hw⟩⟩ | ⟨rfl, rfl, rfl, n, hx⟩
    · exact exec_traceWordJudgement h (by rw [hx]; exact congrArg (fun e => some (judgementOf s.ownUid e)) hw)
    · exact exec_traceWordJudgement h (by rw [hx]; exact (judges_locked_word hw).trans (congrArg some (if_pos hs)))
    · exact exec_traceWordJudgement h (by rw [hx]; exact (judges_locked_word hw).trans (congrArg some (if_neg hs)))
    · exact exec_traceWordJudgement h (by rw [hx]; exact congrArg (fun e => some (judgementOf s.ownUid e)) hw)
    · exact exec_traceWordJudgement h (by rw [hx, Receiver.judges, hw]; rfl)
    · exact exec_huntTimerExpiry h hx
  obtain ⟨-, hd, -, -⟩ := h
  refine ⟨_, x.judge j r, hexec, changeDegree_degrees d _ s (List.getElem?_eq_some_iff.1 hd).1, rfl,
    fun hw => changeDegree_shows d x _ s hd hw.symm, fun cand hx => ⟨?_, ?_⟩, fun nbr num far cand bad hx => ⟨?_, ?_, ?_⟩⟩
  · rintro rfl
    exact judge_searching_invalid hx
  · rintro id n f rfl
    obtain ⟨ht, hr⟩ := judge_searching_valid (r := r) (id := id) (n := n) (f := f) hx
    rw [ht]
    exact ⟨hr, fun c => counted_third, fun c => counted_again, counted_first⟩
  · rintro rfl
    exact judge_traced_invalid hx
  · rintro rfl
    exact judge_traced_lost hx
  · rintro id n f rfl
    by_cases hid : id = nbr
    · subst hid
      obtain ⟨ht, hr⟩ := judge_traced_neighbour (r := r) (n := n) (f := f) hx
      exact ⟨hr, fun _ => ht, fun hne => absurd rfl hne⟩
    · obtain ⟨ht, hr⟩ := judge_traced_other (r := r) (n := n) (f := f) hx hid
      rw [ht]
      exact ⟨hr, fun he => absurd he hid, fun _ => ⟨fun c => counted_third, fun c => counted_again, counted_first⟩⟩

/-! ## The bits of a trace word (R34) -/

theorem bitsMsb_length {w : Nat} (x : BitVec w) : (bitsMsb x).length = w := by simp [bitsMsb]

/-- The first `k` bits of a word, read as a number, are what stands above the others. -/
theorem foldl_firstBits {w : Nat} (x : BitVec w) (k : Nat) (h : k ≤ w) :
    ((List.range k).map x.getMsbD).foldl (fun n b => 2 * n + b.toNat) 0 = x.toNat / 2 ^ (w - k) := by
  induction k with
  | zero => simp [Nat.div_eq_of_lt x.isLt]
  | succ k ih =>
    have hw : w - k = w - (k + 1) + 1 := by omega
    have hbit : (x.getMsbD k).toNat = x.toNat / 2 ^ (w - (k + 1)) % 2 := by
      rw [BitVec.getMsbD, decide_eq_true (by omega : k < w), Bool.true_and, BitVec.getLsbD, Nat.testBit_eq_decide_div_mod_eq,
        show w - 1 - k = w - (k + 1) by omega]
      rcases Nat.mod_two_eq_zero_or_one (x.toNat / 2 ^ (w - (k + 1))) with hm | hm <;> simp [hm]
    rw [List.range_succ, List.map_append, List.foldl_append, ih (by omega), hw, Nat.pow_succ, ← Nat.div_div_eq_div_mul]
    simp only [List.map_cons, List.map_nil, List.foldl_cons, List.foldl_nil, hbit]
    omega

/-- The word that its own bits spell. -/
theorem wordOfBits_bitsMsb (w : TraceWord) : wordOfBits (bitsMsb w) = some w := by
  rw [wordOfBits, if_pos (bitsMsb_length w).ge, List.take_of_length_le (bitsMsb_length w).le, bitsMsb, foldl_firstBits w 104 le_rfl]
  simp

/-- The sync field is the first 16 bits on the line (R34). -/
theorem take_bitsMsb_sync (w : TraceWord) : (bitsMsb w).take 16 = bitsMsb (wordSync w) := by
  rw [bitsMsb, bitsMsb, ← List.map_take, List.take_range]
  refine List.map_congr_left fun k hk => ?_
  have hk : k < 16 := List.mem_range.1 hk
  rw [wordSync, BitVec.getMsbD_extractLsb', decide_eq_true hk, decide_eq_true (by omega), show 104 - (88 + 16 - k) = k by omega]
  rfl

/-! ## The fields of a trace word (R34, R35, R187) -/

section
variable (uid : Uid) (number d : Nat) (f : Bool)

theorem wordSync_encodeTraceWord : wordSync (encodeTraceWord uid number d f) = 0x1F35 :=
  (BitVec.extractLsb'_append_eq_of_le (by decide)).trans BitVec.extractLsb'_append_eq_left

theorem content_encodeTraceWord : (encodeTraceWord uid number d f).extractLsb' 8 80 = traceContent uid number d f :=
  (BitVec.extractLsb'_append_eq_of_le (by decide)).trans BitVec.extractLsb'_append_eq_right

theorem crc_encodeTraceWord : (encodeTraceWord uid number d f).extractLsb' 0 8 = crc8 (bitsMsb (traceContent uid number d f)) :=
  BitVec.extractLsb'_append_eq_right

/-- Above the four flag bits stand unique ID, number and degree. -/
theorem traceContent_aboveFlags (k n : Nat) : (traceContent uid number d f).extractLsb' (k + 4) n
    = (uid ++ BitVec.ofNat 8 number ++ BitVec.ofNat 4 d).extractLsb' k n :=
  (BitVec.extractLsb'_append_eq_of_le (by omega)).trans (BitVec.extractLsb'_append_eq_of_le (by omega))

theorem uid_traceContent : (traceContent uid number d f).extractLsb' 16 64 = uid :=
  (traceContent_aboveFlags uid number d f 12 64).trans
    ((BitVec.extractLsb'_append_eq_of_le (by decide)).trans BitVec.extractLsb'_append_eq_left)

theorem number_traceContent : (traceContent uid number d f).extractLsb' 8 8 = BitVec.ofNat 8 number :=
  (traceContent_aboveFlags uid number d f 4 8).trans
    ((BitVec.extractLsb'_append_eq_of_le (by decide)).trans BitVec.extractLsb'_append_eq_right)

theorem degree_traceContent : (traceContent uid number d f).extractLsb' 4 4 = BitVec.ofNat 4 d :=
  (traceContent_aboveFlags uid number d f 0 4).trans BitVec.extractLsb'_append_eq_right

theorem flag_traceContent : (traceContent uid number d f).getLsbD 3 = f :=
  calc (traceContent uid number d f).getLsbD 3
    _ = (uid ++ BitVec.ofNat 8 number ++ BitVec.ofNat 4 d ++ BitVec.ofBool f).getLsbD 0 := BitVec.getLsbD_append
    _ = (BitVec.ofBool f).getLsbD 0 := BitVec.getLsbD_append
    _ = f := by cases f <;> rfl

end

theorem judgeWord_encodeTraceWord {uid own : Uid} {number d : Nat} {f : Bool} (hn : number < 256) (hd : d < 8) (hu : uid ≠ own) :
    judgeWord own (encodeTraceWord uid number d f) = .valid { uid := uid, degree := d } number f := by
  have hdeg : (BitVec.ofNat 4 d).toNat = d := by simp; omega
  have hnum : (BitVec.ofNat 8 number).toNat = number := by simp; omega
  simp only [judgeWord, content_encodeTraceWord, crc_encodeTraceWord, uid_traceContent, number_traceContent, degree_traceContent,
    flag_traceContent, hdeg, hnum]
  exact if_pos ⟨trivial, hd, hu⟩

theorem exec_traceWordSend {s : State} {d : Nat} {x : Degree} (hr : s.inReset = false) (ha : s.active = true)
    (hd : s.degrees[d]? = some x) (hx : x.trace ≠ .unequipped) : exec (.traceWordSend d) s = .next { s with degrees := s.degrees.set d { x with
      txWord := some (encodeTraceWord s.ownUid s.ownNumber d (decide (x.trace.code ≠ 3))) } } := by
  have he : x.trace.equipped = true ∧ x.trace.nbr.isNone = decide (x.trace.code ≠ 3) := by
    cases ht : x.trace with
    | unequipped => exact absurd ht hx
    | _ => exact ⟨rfl, rfl⟩
  show Host.Outcome.next (live (sendWord d) s) = _
  rw [live_of_running _ s hr]
  simp only [sendWord, hd, ha, he, Bool.true_and, if_true, State.buildWord]
  rfl

/-- A word is heard from its own levels (R34, R37). -/
theorem heardWord_onLine (w : TraceWord) : heardWord (manchester (bitsMsb w)) = some w := by
  rw [heardWord, manchesterBits_manchester, wordOfBits_bitsMsb]

theorem onLine_take_sync {w : TraceWord} (h : wordSync w = 0x1F35) : (manchester (bitsMsb w)).take 32 = manchester syncBits := by
  have hs : manchester (bitsMsb w) = manchester syncBits ++ manchester ((bitsMsb w).drop 16) := by
    rw [← manchester_append, show syncBits = (bitsMsb w).take 16 by rw [take_bitsMsb_sync, h]; rfl, List.take_append_drop]
  rw [hs]
  exact List.take_left' (by simp)

/-- Settles O26: the fields of a word are read back from the word, and the word from its line. -/
theorem traceWordSentIsTraceWordJudged : Obligations.TraceWordSentIsTraceWordJudged := by
  refine ⟨fun s d x => exec_traceWordSend, fun x w hw => ⟨manchester (bitsMsb w), by rw [Degree.trTx, hw]; rfl, ?_,
      heardWord_onLine w, fun hs => ?_⟩,
    fun uid own number d f hn hd hu => ⟨wordSync_encodeTraceWord uid number d f, judgeWord_encodeTraceWord hn hd hu⟩⟩
  · rw [manchester_length, bitsMsb_length]
  · refine ⟨⟨le_rfl, onLine_take_sync hs⟩, ?_⟩
    rw [heardAfterSync, ← onLine_take_sync hs, List.take_append_drop, heardWord_onLine]

end Sys2Proof.Machine
end

section
/-! # Values in their ranges, totals below their ceilings, parameters in their working ranges -/

namespace Sys2Proof.Machine

/-! ## The parts of the laws, block by block -/

/-- The values of one degree of the span monitor lie in their ranges (R48). -/
def SpmDegree.InRange (x : SpmDegree) : Prop := x.noise ≤ 1000000 ∧ 1 ≤ x.cost ∧ x.cost ≤ 4095 ∧ x.latency ≤ 65535

/-- The values of the span monitor lie in their ranges (R48). -/
structure Spm.InRange (x : Spm) : Prop where
  passNoise : x.passNoise ≤ 1000000
  regens : x.regens ≤ 15
  degrees : ∀ y ∈ x.degrees, y.InRange

/-- Every report of a table lies in its ranges (R72). -/
def ReportsInRange (table : List (Option StationReport)) : Prop := ∀ n r, place table n = some r → r.report.inRange

/-- The values of a span lie in their ranges (R92). -/
def Span.InRange (sp : Span) : Prop := sp.noise ≤ 1000000 ∧ 1 ≤ sp.cost ∧ sp.cost ≤ 4095

/-- The reports and spans of the topology database lie in their ranges (R72, R92). -/
structure Tdb.InRange (t : Tdb) : Prop where
  staging : ReportsInRange t.staging
  active : ReportsInRange t.active
  spans : ∀ sp ∈ t.spans, sp.InRange

/-- The labels of the search stay at or below the ceilings of their totals (R117). -/
structure Pen.BelowCeilings (p : Pen) : Prop where
  settled : ∀ e ∈ p.settled, e.label.belowCeilings
  frontier : ∀ e ∈ p.frontier, e.label.belowCeilings

/-- The result a slot holds: in FOUND and INVALID one, in every other state none (R95). -/
def SlotState.result? : SlotState → Option PathResult
  | .found _ _ r => some r
  | .invalid _ _ r _ => some r
  | _ => none

/-- The totals of the result a slot holds, if any, stay at or below their ceilings (R95, R117). -/
def SlotState.BelowCeilings (st : SlotState) : Prop := ∀ r, st.result? = some r → r.belowCeilings

theorem valuesInRange_iff (s : State) : s.valuesInRange ↔ s.psr.working.domain ≤ 15 ∧ s.spm.InRange ∧ s.tdb.InRange :=
  ⟨fun ⟨hd, hp, hr, hx, hs, ha, hsp⟩ => ⟨hd, ⟨hp, hr, hx⟩, ⟨hs, ha, hsp⟩⟩,
    fun ⟨hd, ⟨hp, hr, hx⟩, ⟨hs, ha, hsp⟩⟩ => ⟨hd, hp, hr, hx, hs, ha, hsp⟩⟩

theorem totalsBelowCeilings_iff (s : State) :
    s.totalsBelowCeilings ↔ s.pen.BelowCeilings ∧ ∀ st ∈ s.slots.map Slot.state, st.BelowCeilings := by
  constructor
  · rintro ⟨hs, hf, hx⟩
    refine ⟨⟨hs, hf⟩, fun st hst r hr => ?_⟩
    obtain ⟨x, hm, rfl⟩ := List.mem_map.1 hst
    obtain ⟨i, hi⟩ := List.mem_iff_getElem?.1 hm
    have h := hx i x hi
    cases hst : x.state <;> rw [hst] at h hr <;> cases hr <;> exact h
  · rintro ⟨⟨hs, hf⟩, hx⟩
    refine ⟨hs, hf, fun i x hi => ?_⟩
    have h := hx _ (List.mem_map_of_mem (List.mem_of_getElem? hi))
    cases hst : x.state <;> rw [hst] at h
    case found => exact h _ rfl
    case invalid => exact h _ rfl
    all_goals trivial

/-! ## Keeping the laws -/

/-- The passage from `s` to `t` keeps held values in their ranges, totals at or below their ceilings, and the working parameters in
their ranges. -/
structure KeepsRanges (s t : State) : Prop where
  values : s.valuesInRange → t.valuesInRange
  totals : s.totalsBelowCeilings → t.totalsBelowCeilings
  params : s.psr.working.inRange → t.psr.working.inRange

namespace KeepsRanges

variable {s t u : State}

theorem refl (s : State) : KeepsRanges s s := ⟨id, id, id⟩

theorem trans (h : KeepsRanges s t) (k : KeepsRanges t u) : KeepsRanges s u :=
  ⟨k.values ∘ h.values, k.totals ∘ h.totals, k.params ∘ h.params⟩

/-- Transitivity with the second passage first, whose end the goal names. -/
theorem after (k : KeepsRanges t u) (h : KeepsRanges s t) : KeepsRanges s u := h.trans k

/-- A fold keeps the ranges when each of its steps does. -/
theorem foldl {α : Type} (f : State → α → State) (h : ∀ s a, KeepsRanges s (f s a)) (l : List α) (s : State) :
    KeepsRanges s (l.foldl f s) := by
  induction l generalizing s with
  | nil => exact refl s
  | cons a l ih => exact (h s a).trans (ih _)

/-- A passage that leaves alone everything the laws read: span monitor, report tables and spans, search, records of the slots, working
parameters. What it leaves alone the field lemmas say. -/
theorem of_frame (h : t.spm = s.spm ∧ t.tdb.staging = s.tdb.staging ∧ t.tdb.active = s.tdb.active ∧ t.tdb.spans = s.tdb.spans
    ∧ t.pen = s.pen ∧ t.slots.map Slot.state = s.slots.map Slot.state ∧ t.psr.working = s.psr.working) : KeepsRanges s t := by
  obtain ⟨hspm, hstaging, hactive, hspans, hpen, hslots, hpsr⟩ := h
  refine ⟨fun h => ?_, fun h => ?_, fun h => hpsr ▸ h⟩
  · obtain ⟨hd, hm, hs, ha, hsp⟩ := (valuesInRange_iff s).1 h
    exact (valuesInRange_iff t).2 ⟨hpsr ▸ hd, hspm ▸ hm, ⟨hstaging ▸ hs, hactive ▸ ha, hspans ▸ hsp⟩⟩
  · obtain ⟨hp, hx⟩ := (totalsBelowCeilings_iff s).1 h
    exact (totalsBelowCeilings_iff t).2 ⟨hpen ▸ hp, hslots ▸ hx⟩

/-! ### One lemma for each block that is replaced -/

theorem withSpm (s : State) (x : Spm) (h : s.spm.InRange → x.InRange) : KeepsRanges s { s with spm := x } :=
  ⟨fun v => (valuesInRange_iff _).2 (((valuesInRange_iff s).1 v).imp_right (And.imp_left h)), id, id⟩

theorem withTdb (s : State) (x : Tdb) (h : s.valuesInRange → x.InRange) : KeepsRanges s { s with tdb := x } :=
  ⟨fun v => (valuesInRange_iff _).2 (((valuesInRange_iff s).1 v).imp_right (And.imp_right fun _ => h v)), id, id⟩

theorem withPen (s : State) (x : Pen) (h : s.pen.BelowCeilings → x.BelowCeilings) : KeepsRanges s { s with pen := x } :=
  ⟨id, fun k => (totalsBelowCeilings_iff _).2 (((totalsBelowCeilings_iff s).1 k).imp_left h), id⟩

theorem withSlots (s : State) (x : List Slot)
    (h : s.totalsBelowCeilings → ∀ st ∈ x.map Slot.state, st ∈ s.slots.map Slot.state ∨ st.BelowCeilings) :
    KeepsRanges s { s with slots := x } :=
  ⟨id, fun k => (totalsBelowCeilings_iff _).2 (((totalsBelowCeilings_iff s).1 k).imp_right fun hx st hst =>
    (h k st hst).elim (hx st) id), id⟩

end KeepsRanges

/-! ## What leaves the records of the slots alone -/

/-- A slot that takes another intent keeps its record. -/
@[simp] theorem map_state_modify_intent (l : List Slot) (i : Nat) (t : Intent) :
    (l.modify i fun x => { x with intent := t }).map Slot.state = l.map Slot.state := by
  refine List.ext_getElem? fun k => ?_
  simp only [List.getElem?_map, List.getElem?_modify]
  cases l[k]? with
  | none => rfl
  | some x => by_cases h : i = k <;> simp [h]

@[simp] theorem loseIntent_slotStates (i : Nat) (w : LostReason) (s : State) :
    (loseIntent i w s).slots.map Slot.state = s.slots.map Slot.state := by
  unfold loseIntent
  (repeat' split) <;> simp

@[simp] theorem notSent_slotStates (i p : Nat) (ps : List Pair) (s : State) :
    (notSent i p ps s).slots.map Slot.state = s.slots.map Slot.state := by
  unfold notSent
  split <;> simp

@[simp] theorem handOver_slotStates (f : Body) (s : State) : (handOver f s).slots.map Slot.state = s.slots.map Slot.state := by
  unfold handOver
  dsimp only
  (repeat' split) <;> simp

@[simp] theorem completionReport_slotStates (i p : Nat) (ps : List Pair) (s : State) :
    (completionReport i p ps s).slots.map Slot.state = s.slots.map Slot.state := by
  unfold completionReport
  (repeat' split) <;> simp

@[simp] theorem announce_slotStates (i : Nat) (s : State) : (announce i s).slots.map Slot.state = s.slots.map Slot.state := by
  unfold announce
  (repeat' split) <;> simp

@[simp] theorem reportNotSent_slotStates (f : Body) (s : State) :
    (reportNotSent f s).slots.map Slot.state = s.slots.map Slot.state := by
  unfold reportNotSent
  split <;> simp

@[simp] theorem completeAttempt_slotStates (v : Service) (s : State) :
    (completeAttempt v s).slots.map Slot.state = s.slots.map Slot.state := by
  unfold completeAttempt
  dsimp only
  split <;> simp

@[simp] theorem failAttempt_slotStates (v : Service) (s : State) :
    (failAttempt v s).slots.map Slot.state = s.slots.map Slot.state := by
  unfold failAttempt
  split <;> simp

@[simp] theorem resolveAttempt_slotStates (c : Bool) (v : Service) (s : State) :
    (resolveAttempt c v s).slots.map Slot.state = s.slots.map Slot.state := by
  unfold resolveAttempt
  split <;> simp

@[simp] theorem decideAttempt_slotStates (c : Bool) (s : State) :
    (decideAttempt c s).slots.map Slot.state = s.slots.map Slot.state := by
  unfold decideAttempt
  (repeat' split) <;> simp

@[simp] theorem muteService_slotStates (s : State) : (muteService s).slots.map Slot.state = s.slots.map Slot.state := by
  unfold muteService
  (repeat' split) <;> simp

@[simp] theorem setMute_slotStates (s : State) : (setMute s).slots.map Slot.state = s.slots.map Slot.state := by
  unfold setMute
  split <;> simp

@[simp] theorem endSend_slotStates (s : State) : (endSend s).slots.map Slot.state = s.slots.map Slot.state := by
  unfold endSend
  (repeat' split) <;> simp

@[simp] theorem closeEcho_slotStates (s : State) : (closeEcho s).slots.map Slot.state = s.slots.map Slot.state := by
  unfold closeEcho
  (repeat' split) <;> simp

@[simp] theorem routeEpisode_slotStates (e : Episode) (s : State) :
    (routeEpisode e s).slots.map Slot.state = s.slots.map Slot.state := by
  unfold routeEpisode
  (repeat' split) <;> simp

@[simp] theorem endIntent_slotStates (i : Nat) (s : State) : (endIntent i s).slots.map Slot.state = s.slots.map Slot.state := by
  unfold endIntent
  (repeat' split) <;> simp

@[simp] theorem windowExpired_slotStates (i : Nat) (s : State) :
    (windowExpired i s).slots.map Slot.state = s.slots.map Slot.state := by
  unfold windowExpired
  (repeat' split) <;> simp

@[simp] theorem refreshIntent_slotStates (i : Nat) (s : State) :
    (refreshIntent i s).slots.map Slot.state = s.slots.map Slot.state := by
  unfold refreshIntent
  (repeat' split) <;> simp

@[simp] theorem compareIntent_slotStates (u : Uid) (p : Nat) (ps : List Pair) (s : State) (i : Nat) :
    (compareIntent u p ps s i).slots.map Slot.state = s.slots.map Slot.state := by
  unfold compareIntent
  (repeat' split) <;> simp

@[simp] theorem compareIntents_slotStates (u : Uid) (p : Nat) (ps : List Pair) (s : State) :
    (compareIntents u p ps s).slots.map Slot.state = s.slots.map Slot.state :=
  foldl_keeps _ (fun s => s.slots.map Slot.state) (fun t i => compareIntent_slotStates u p ps t i) _ s

@[simp] theorem loseAllIntents_slotStates (s : State) : (loseAllIntents s).slots.map Slot.state = s.slots.map Slot.state :=
  foldl_keeps _ (fun s => s.slots.map Slot.state) (fun t i => loseIntent_slotStates i _ t) _ s

@[simp] theorem claimPath_slotStates (i p : Nat) (ps : List Pair) (s : State) :
    (claimPath i p ps s).slots.map Slot.state = s.slots.map Slot.state := by
  unfold claimPath
  simp [startClaim]

@[simp] theorem commitIntent_slotStates (p : List Byte) (s : State) :
    (commitIntent p s).slots.map Slot.state = s.slots.map Slot.state := by
  unfold commitIntent
  dsimp only
  (repeat' split) <;> simp

@[simp] theorem withdraw_slotStates (p : List Byte) (s : State) : (withdraw p s).slots.map Slot.state = s.slots.map Slot.state := by
  unfold withdraw
  dsimp only
  (repeat' split) <;> simp

/-! ## Passages that leave alone all that the laws read -/

theorem raise_keepsRanges (i : Indication) (s : State) : KeepsRanges s (raise i s) := .of_frame (by simp)
theorem raiseIf_keepsRanges (c : Bool) (i : Indication) (s : State) : KeepsRanges s (raiseIf c i s) := .of_frame (by simp)
theorem respond_keepsRanges (c : Byte) (st : Status) (cl : Bool) (p : List Byte) (s : State) :
    KeepsRanges s (respond c st cl p s) := .of_frame (by simp)
theorem respondOk_keepsRanges (c : Byte) (p : List Byte) (s : State) : KeepsRanges s (respondOk c p s) := .of_frame (by simp)
theorem handOverPlain_keepsRanges (f : Body) (s : State) : KeepsRanges s (handOverPlain f s) := .of_frame (by simp)
theorem withOrg_keepsRanges (s : State) (x : Org) : KeepsRanges s { s with org := x } := .of_frame (by simp)

/-! ## The own report -/

/-- The own report is built of values in their ranges (R62, R63). -/
theorem ownReport_inRange (s : State) (h : s.valuesInRange) : s.ownReport.inRange := by
  obtain ⟨hd, hm, -⟩ := (valuesInRange_iff s).1 h
  refine ⟨hd, hm.passNoise, hm.regens, fun l hl => ?_⟩
  obtain ⟨d, -, hl⟩ := List.mem_filterMap.1 hl
  unfold State.linkEntry at hl
  split at hl
  · next m _ hx =>
    cases hl
    obtain ⟨hn, hlo, hhi, -⟩ := hm.degrees m (List.mem_of_getElem? hx)
    exact ⟨hn, hlo, hhi⟩
  · cases hl

/-- A report written to a place of a table. -/
theorem reportsInRange_set {l : List (Option StationReport)} {x : Option StationReport} (n : Nat) (h : ReportsInRange l)
    (hx : ∀ r, x = some r → r.report.inRange) : ReportsInRange (l.set n x) := fun m r hr => by
  rcases place_set_eq_some hr with ⟨-, hr⟩ | ⟨-, hr⟩
  · exact hx r hr
  · exact h m r hr

theorem stageReport_keepsRanges (n : Nat) (u : Uid) (r : Report) (s : State) (hr : s.valuesInRange → r.inRange) :
    KeepsRanges s (stageReport n u r s) :=
  .withTdb s _ fun v =>
    have ⟨_, _, ht⟩ := (valuesInRange_iff s).1 v
    ⟨reportsInRange_set n ht.staging fun _ e => by cases e; exact hr v, ht.active, ht.spans⟩

theorem dropReport_keepsRanges (n : Nat) (s : State) : KeepsRanges s (dropReport n s) := by
  unfold dropReport
  split
  · refine .withTdb s _ fun v => ?_
    obtain ⟨-, -, ht⟩ := (valuesInRange_iff s).1 v
    exact ⟨reportsInRange_set n ht.staging fun _ e => (by cases e), ht.active, ht.spans⟩
  · exact .refl s

theorem originate_keepsRanges (s : State) : KeepsRanges s (originate s) :=
  ((stageReport_keepsRanges _ _ _ s (ownReport_inRange s)).trans (handOverPlain_keepsRanges _ _)).trans (withOrg_keepsRanges _ _)

theorem originateHeldDown_keepsRanges (s : State) : KeepsRanges s (originateHeldDown s) := by
  unfold originateHeldDown
  split
  · exact .of_frame (by simp)
  · exact originate_keepsRanges s

theorem orgRequest_keepsRanges (s : State) : KeepsRanges s (orgRequest s) := by
  unfold orgRequest
  split
  · exact originateHeldDown_keepsRanges s
  · exact .refl s

theorem orgChange_keepsRanges (s : State) : KeepsRanges s (orgChange s) := by
  unfold orgChange
  split
  · exact originateHeldDown_keepsRanges s
  · exact .refl s

theorem orgChangeIf_keepsRanges (c : Bool) (s : State) : KeepsRanges s (orgChangeIf c s) := by
  cases c
  · exact .refl s
  · exact orgChange_keepsRanges s

theorem recordGap_keepsRanges (n : Nat) (s : State) : KeepsRanges s (recordGap n s) := by
  unfold recordGap
  split
  · exact .refl s
  · exact (orgRequest_keepsRanges _).after (.of_frame (by simp))

theorem holdDownExpired_keepsRanges (s : State) : KeepsRanges s (holdDownExpired s) := by
  unfold holdDownExpired
  split
  · exact .refl s
  · split
    · exact originate_keepsRanges s
    · exact .of_frame (by simp)

theorem refreshExpired_keepsRanges (s : State) : KeepsRanges s (refreshExpired s) := by
  unfold refreshExpired
  split
  · exact .refl s
  · split
    · exact originate_keepsRanges s
    · exact .refl s

theorem examineMissed_keepsRanges (r : Report) (s : State) : KeepsRanges s (examineMissed r s) := by
  unfold examineMissed
  split
  · exact orgRequest_keepsRanges s
  · exact .refl s

/-! ## Received reports and intents -/

/-- The clamps of R72 put a report into its ranges. -/
theorem clamped_inRange (r : Report) : r.clamped.inRange := by
  refine ⟨(clamp_bounds 0 15 _ (by decide)).2, (clamp_bounds 0 1000000 _ (by decide)).2, (clamp_bounds 0 15 _ (by decide)).2, fun l hl => ?_⟩
  obtain ⟨k, -, rfl⟩ := List.mem_map.1 hl
  exact ⟨(clamp_bounds 0 1000000 _ (by decide)).2, clamp_bounds 1 4095 _ (by decide)⟩

theorem storeReport_keepsRanges (n : Nat) (u : Uid) (r : Report) (s : State) (hr : r.inRange) : KeepsRanges s (storeReport n u r s) := by
  have hs := stageReport_keepsRanges n u r s fun _ => hr
  unfold storeReport
  split
  · exact hs.trans (examineMissed_keepsRanges r _)
  · dsimp only
    split
    · split
      · exact (hs.trans (recordGap_keepsRanges n _)).trans (examineMissed_keepsRanges r _)
      · exact hs.trans (examineMissed_keepsRanges r _)
    · exact .refl s

theorem setStagedIntent_keepsRanges (p : Nat) (x : Option StagedIntent) (d : Bool) (s : State) :
    KeepsRanges s (setStagedIntent p x d s) := .of_frame ⟨rfl, rfl, rfl, rfl, rfl, rfl, rfl⟩

theorem storeIntent_keepsRanges (e : PeerIntent) (s : State) : KeepsRanges s (storeIntent e s) := by
  unfold storeIntent
  dsimp only
  split
  · exact setStagedIntent_keepsRanges _ _ _ s
  · split
    · exact setStagedIntent_keepsRanges _ _ _ s
    · exact .of_frame (by simp)

theorem releaseIntent_keepsRanges (u : Uid) (id : Nat) (s : State) : KeepsRanges s (releaseIntent u id s) := by
  unfold releaseIntent
  split
  · exact setStagedIntent_keepsRanges _ _ _ s
  · exact .refl s

theorem expireIntent_keepsRanges (p : Nat) (s : State) : KeepsRanges s (expireIntent p s) := by
  unfold expireIntent
  split
  · exact setStagedIntent_keepsRanges _ _ _ s
  · exact .refl s

theorem dropIntentsOf_keepsRanges (u : Uid) (s : State) : KeepsRanges s (dropIntentsOf u s) := by
  unfold dropIntentsOf
  split
  · exact .of_frame (by simp)
  · exact .refl s

/-! ## The receiver and the degrees -/

theorem setChannel_keepsRanges (x : Scr) (s : State) : KeepsRanges s (setChannel x s) :=
  (orgChangeIf_keepsRanges _ _).after (.of_frame (by simp))

theorem startFrame_keepsRanges (s : State) : KeepsRanges s (startFrame s) := by
  unfold startFrame
  split
  · exact .refl s
  · dsimp only
    split
    · exact .of_frame (by simp)
    · exact (setChannel_keepsRanges _ _).after (.of_frame (by simp))

theorem routeEpisode_keepsRanges (e : Episode) (s : State) : KeepsRanges s (routeEpisode e s) := .of_frame (by simp)

theorem endEpisode_keepsRanges (levels : List Bool) (s : State) : KeepsRanges s (endEpisode levels s) := by
  unfold endEpisode
  split
  · exact KeepsRanges.after (routeEpisode_keepsRanges _ _) (setChannel_keepsRanges _ s)
  · exact .refl s

theorem darkExpired_keepsRanges (s : State) : KeepsRanges s (darkExpired s) := by
  unfold darkExpired
  split
  · exact setChannel_keepsRanges _ s
  · exact .refl s

theorem changeDegree_keepsRanges (d : Nat) (x : Degree) (s : State) : KeepsRanges s (changeDegree d x s) := by
  unfold changeDegree
  split
  · exact (orgChangeIf_keepsRanges _ _).after (.of_frame (by simp))
  · exact .refl s

theorem judgeHeard_keepsRanges (d : Nat) (levels : List Bool) (s : State) : KeepsRanges s (judgeHeard d levels s) := by
  unfold judgeHeard
  split
  · split
    · split
      · exact changeDegree_keepsRanges _ _ s
      · exact .refl s
    · exact .refl s
  · exact .refl s

theorem huntExpired_keepsRanges (d : Nat) (s : State) : KeepsRanges s (huntExpired d s) := by
  unfold huntExpired
  split
  · split
    · split
      · exact changeDegree_keepsRanges _ _ s
      · exact .refl s
    · exact .refl s
  · exact .refl s

theorem lolAccepted_keepsRanges (d : Nat) (asserted : Bool) (s : State) : KeepsRanges s (lolAccepted d asserted s) := by
  unfold lolAccepted
  split
  · exact .refl s
  · split
    · split
      · exact changeDegree_keepsRanges _ _ s
      · exact changeDegree_keepsRanges _ _ s
      · exact changeDegree_keepsRanges _ _ s
      · exact .refl s
    · exact .refl s

theorem applyEquipped_keepsRanges (s : State) (d : Nat) : KeepsRanges s (applyEquipped s d) := by
  unfold applyEquipped
  split
  · split
    · exact changeDegree_keepsRanges _ _ s
    · exact .refl s
    · exact .refl s
    · exact changeDegree_keepsRanges _ _ s
  · exact .refl s

theorem catchUp_keepsRanges (s : State) (d : Nat) : KeepsRanges s (catchUp s d) := by
  unfold catchUp
  split
  · exact changeDegree_keepsRanges _ _ s
  · exact .refl s

theorem catchUpAll_keepsRanges (s : State) : KeepsRanges s (catchUpAll s) := .foldl _ catchUp_keepsRanges _ s

theorem samplePins_keepsRanges (mute : Bool) (lol : DegreeSet) (s : State) : KeepsRanges s (samplePins mute lol s) := by
  refine KeepsRanges.trans ?_ (.foldl _ (fun u x => ?_) _ _)
  · split
    · exact .of_frame (by simp)
    · exact .of_frame (by simp)
  · unfold deliverLol
    split
    · exact lolAccepted_keepsRanges _ _ u
    · exact .refl u

/-! ## The span monitor -/

/-- The values of a degree are replaced by others in their ranges. -/
theorem setSpmDegree_keepsRanges (d : Nat) (x : SpmDegree) (s : State) (hx : s.spm.InRange → x.InRange) :
    KeepsRanges s (setSpmDegree d x s) :=
  .withSpm s _ fun h => ⟨h.passNoise, h.regens, fun y hy => (List.mem_or_eq_of_mem_set hy).elim (h.degrees y) fun e => e ▸ hx h⟩

/-- A load in its range and a monitor leave the values of a degree in their ranges. -/
theorem changeMonitor_keepsRanges (d n : Nat) (m : Monitor) (s : State) (hn : s.spm.InRange → n ≤ 1000000) :
    KeepsRanges s (changeMonitor d n m s) := by
  unfold changeMonitor
  split
  · next x hx =>
    refine (orgChangeIf_keepsRanges _ _).after ((raiseIf_keepsRanges _ _ _).after (setSpmDegree_keepsRanges d _ s fun h => ?_))
    obtain ⟨-, hc⟩ := h.degrees x (List.mem_of_getElem? hx)
    exact ⟨hn h, hc⟩
  · exact .refl s

/-- The monitor of a degree moves on the load it holds. -/
theorem changeMonitor_held_keepsRanges (d : Nat) (x : SpmDegree) (m : Monitor) (s : State) (hx : s.spm.degrees[d]? = some x) :
    KeepsRanges s (changeMonitor d x.noise m s) :=
  changeMonitor_keepsRanges d _ m s fun h => (h.degrees x (List.mem_of_getElem? hx)).1

theorem qualifierExpired_keepsRanges (d : Nat) (s : State) : KeepsRanges s (qualifierExpired d s) := by
  unfold qualifierExpired
  split
  · next x hx =>
    split
    · split
      · exact setSpmDegree_keepsRanges d _ s fun h => h.degrees x (List.mem_of_getElem? hx)
      · exact changeMonitor_held_keepsRanges d x _ s hx
    · exact .refl s
  · exact .refl s

theorem decideHeldExpiry_keepsRanges (s : State) (d : Nat) : KeepsRanges s (decideHeldExpiry s d) := by
  unfold decideHeldExpiry
  split
  · next x hx =>
    split
    · exact changeMonitor_held_keepsRanges d x _ s hx
    · exact .refl s
  · exact .refl s

theorem applyLoad_keepsRanges (s : State) : KeepsRanges s (applyLoad s) :=
  (KeepsRanges.foldl _ applyEquipped_keepsRanges _ s).trans (.foldl _ decideHeldExpiry_keepsRanges _ _)

/-- What a node report writes into a degree is clamped into its range (R50). -/
theorem SpmDegree.nodeWrite_inRange (x : SpmDegree) (enable : BitVec 32) (d : Nat) (v : NodeDegreeValues) (h : x.InRange) :
    (x.nodeWrite enable d v).InRange := by
  obtain ⟨hn, hlo, hhi, hl⟩ := h
  obtain ⟨clo, chi⟩ := clamp_bounds 1 4095 v.cost (by decide)
  have hlat := (clamp_bounds 0 65535 v.latency (by decide)).2
  refine ⟨hn, ?_, ?_, ?_⟩ <;> dsimp only [SpmDegree.nodeWrite, clampCost] <;> split <;> assumption

theorem Spm.nodeWrite_inRange (x : Spm) (r : NodeReport) (h : x.InRange) : (x.nodeWrite r).InRange where
  passNoise := by
    dsimp only [Spm.nodeWrite]
    split
    · exact (clamp_bounds 0 1000000 _ (by decide)).2
    · exact h.passNoise
  regens := by
    dsimp only [Spm.nodeWrite]
    split
    · exact (clamp_bounds 0 15 _ (by decide)).2
    · exact h.regens
  degrees := fun y hy => by
    obtain ⟨z, hz, rfl⟩ := List.mem_map.1 hy
    exact SpmDegree.nodeWrite_inRange _ _ _ _ (h.degrees _ (List.fst_mem_of_mem_zipIdx hz))

theorem writeNodeReport_keepsRanges (p : List Byte) (s : State) : KeepsRanges s (writeNodeReport p s) := by
  unfold writeNodeReport
  dsimp only
  split
  · exact .of_frame (by simp)
  · split
    · exact .of_frame (by simp)
    · exact (respond_keepsRanges _ _ _ _ _).after ((orgChangeIf_keepsRanges _ _).after (.withSpm s _ (Spm.nodeWrite_inRange _ _)))

theorem writeSpanReport_keepsRanges (p : List Byte) (s : State) : KeepsRanges s (writeSpanReport p s) := by
  unfold writeSpanReport
  dsimp only
  split
  · exact .of_frame (by simp)
  · split
    · exact .of_frame (by simp)
    · exact (respond_keepsRanges _ _ _ _ _).after (changeMonitor_keepsRanges _ _ _ s fun _ => (clamp_bounds 0 1000000 _ (by decide)).2)

theorem clearLatch_keepsRanges (p : List Byte) (s : State) : KeepsRanges s (clearLatch p s) := by
  unfold clearLatch
  dsimp only
  split
  · exact .of_frame (by simp)
  · split
    · exact .of_frame (by simp)
    · next x hx => exact (respondOk_keepsRanges _ _ _).after (changeMonitor_held_keepsRanges _ x _ s hx)

/-! ## The directory -/

theorem purgeViews_keepsRanges (n : Nat) (u : Uid) (s : State) : KeepsRanges s (purgeViews n u s) :=
  ((dropReport_keepsRanges n s).trans (dropIntentsOf_keepsRanges u _)).trans (raise_keepsRanges _ _)

theorem purge_keepsRanges (n : Nat) (s : State) : KeepsRanges s (purge n s) := by
  unfold purge
  split
  · exact (purgeViews_keepsRanges n _ _).after (.of_frame (by simp))
  · exact .refl s

theorem purgeUid_keepsRanges (u : Uid) (s : State) : KeepsRanges s (purgeUid u s) := by
  unfold purgeUid
  split
  · exact purge_keepsRanges _ s
  · exact .refl s

theorem install_keepsRanges (n : Nat) (f : Frame) (s : State) : KeepsRanges s (install n f s) := .of_frame (by simp)

theorem accept_keepsRanges (n : Nat) (f : Frame) (s : State) : KeepsRanges s (accept n f s).2 := by
  unfold accept
  split
  · split
    · exact .of_frame (by simp)
    · split
      · exact ((purge_keepsRanges n s).trans (purgeUid_keepsRanges _ _)).trans (install_keepsRanges n f _)
      · exact .refl s
  · exact .refl s
  · exact (purgeUid_keepsRanges _ s).trans (install_keepsRanges n f _)

theorem compareIntents_keepsRanges (u : Uid) (p : Nat) (ps : List Pair) (s : State) : KeepsRanges s (compareIntents u p ps s) :=
  .of_frame (by simp)

theorem dispatch_keepsRanges (n : Nat) (how : Acceptance) (f : Frame) (s : State) : KeepsRanges s (dispatch n how f s) := by
  unfold dispatch
  split
  · split
    · exact purgeViews_keepsRanges n _ s
    · exact .refl s
  · split
    · exact storeReport_keepsRanges n _ _ s (clamped_inRange _)
    · exact .refl s
  · split
    · exact (compareIntents_keepsRanges _ _ _ _).after (storeIntent_keepsRanges _ s)
    · exact .refl s
  · split
    · exact releaseIntent_keepsRanges _ _ s
    · exact .refl s

theorem acceptFrame_keepsRanges (n : Nat) (f : Frame) (s : State) : KeepsRanges s (acceptFrame n f s) := by
  have ha := accept_keepsRanges n f s
  unfold acceptFrame
  split
  · exact .refl s
  · rename_i he
    rw [he] at ha
    exact ha.trans (dispatch_keepsRanges n _ f _)

theorem defend_keepsRanges (n : Nat) (s : State) : KeepsRanges s (defend n s) := (orgRequest_keepsRanges _).after (.of_frame (by simp))

theorem renumber_keepsRanges (strap : BitVec 3) (n : Nat) (s : State) : KeepsRanges s (renumber strap n s) :=
  ((KeepsRanges.of_frame (t := setEntry n none (loseAllIntents s)) (by simp)).trans (dropReport_keepsRanges n _)).trans
    (KeepsRanges.of_frame (t := enterJoining strap [n] _) (by simp))

theorem ownNumberRule_keepsRanges (strap : BitVec 3) (n : Nat) (f : Frame) (s : State) :
    KeepsRanges s (ownNumberRule strap n f s) := by
  unfold ownNumberRule
  split
  · exact (renumber_keepsRanges strap n s).trans (acceptFrame_keepsRanges n f _)
  · exact defend_keepsRanges n s

theorem takeFrame_keepsRanges (strap : BitVec 3) (f : Frame) (s : State) : KeepsRanges s (takeFrame strap f s) := by
  unfold takeFrame
  dsimp only
  split
  · exact .refl s
  · have hy : KeepsRanges s (if s.conflicts f = true then yieldNumber f.number? s else s) := by
      split
      · exact .of_frame (by simp)
      · exact .refl s
    split
    · exact hy.trans (ownNumberRule_keepsRanges strap _ f _)
    · exact hy.trans (acceptFrame_keepsRanges _ f _)

theorem takeOldest_keepsRanges (strap : BitVec 3) (s : State) : KeepsRanges s (takeOldest strap s) := by
  unfold takeOldest
  split
  · split
    · exact (takeFrame_keepsRanges strap _ _).after (.of_frame (by simp))
    · exact .refl s
  · exact .refl s

theorem roundExpired_keepsRanges (s : State) : KeepsRanges s (roundExpired s) := by
  unfold roundExpired
  split
  · split
    · exact .of_frame (by simp)
    · exact (originate_keepsRanges _).after (.of_frame (by simp))
  · exact .refl s


/-! ## Slots and the result watch -/

/-- A record that holds no result has no totals. -/
theorem belowCeilings_of_no_result {st : SlotState} (h : st.result? = none) : st.BelowCeilings := fun r hr => by
  rw [h] at hr
  cases hr

/-- One slot is replaced; every other stands. -/
theorem state_of_mem_modify {l : List Slot} {i : Nat} {f : Slot → Slot} {st : SlotState} (h : st ∈ (l.modify i f).map Slot.state) :
    st ∈ l.map Slot.state ∨ ∃ x ∈ l, st = (f x).state := by
  obtain ⟨y, hy, rfl⟩ := List.mem_map.1 h
  obtain ⟨k, hk⟩ := List.mem_iff_getElem?.1 hy
  rw [List.getElem?_modify] at hk
  obtain ⟨x, hx, rfl⟩ := Option.map_eq_some_iff.1 hk
  have hm := List.mem_of_getElem? hx
  split
  · exact .inr ⟨x, hm, rfl⟩
  · exact .inl (List.mem_map_of_mem hm)

theorem setSlotState_keepsRanges (i : Nat) (st : SlotState) (s : State) (h : s.totalsBelowCeilings → st.BelowCeilings) :
    KeepsRanges s (setSlotState i st s) :=
  .withSlots s _ fun k _ hst => (state_of_mem_modify hst).imp_right fun ⟨_, _, e⟩ => e ▸ h k

theorem freeSlot_keepsRanges (i : Nat) (s : State) : KeepsRanges s (freeSlot i s) :=
  .withSlots s _ fun _ _ hst => (state_of_mem_modify hst).imp_right fun ⟨_, _, e⟩ => e ▸ belowCeilings_of_no_result rfl

/-- The recomputed noise of each segment stays at or below its ceiling (R117, R121). -/
theorem sumSegments_le (t : Tdb) (cls : ClassEntry) (path : List Crossing) : ∀ x ∈ sumSegments t cls path, x.1 ≤ Config.sumMax := by
  intro x hx
  refine List.foldlRecOn (motive := fun acc => ∀ y ∈ acc, y.1 ≤ Config.sumMax) path (sumSegment t cls) (fun y hy => ?_)
    (fun acc ih c _ y hy => ?_) x (List.mem_reverse.1 hx)
  · cases hy
  · unfold sumSegment at hy
    split at hy
    · split at hy
      · rcases List.mem_cons.1 hy with rfl | hy
        · exact satAdd_le _ _ _
        · exact ih y hy
      · rcases List.mem_cons.1 hy with rfl | hy
        · exact satAdd_le _ _ _
        · exact ih y (List.mem_cons_of_mem _ hy)
    · obtain rfl := List.mem_singleton.1 hy
      exact satAdd_le _ _ _

theorem sumLatency_le (path : List Crossing) : sumLatency path ≤ Config.sumMax :=
  List.foldlRecOn (motive := fun n => n ≤ Config.sumMax) path _ (Nat.zero_le _) fun _ _ _ _ => satAdd_le _ _ _

theorem sumCost_le (cls : ClassEntry) (path : List Crossing) : sumCost cls path ≤ Config.costMax :=
  List.foldlRecOn (motive := fun n => n ≤ Config.costMax) path _ (Nat.zero_le _) fun _ _ _ _ => satAdd_le _ _ _

/-- Totals brought up to date stay at or below their ceilings (R110, R117, R121). -/
theorem refreshTotals_belowCeilings (s : State) (req : Request) (r : PathResult) : (refreshTotals s req r).belowCeilings := by
  refine ⟨sumCost_le _ _, sumLatency_le _, fun x hx => ?_⟩
  obtain ⟨y, hy, rfl⟩ := List.mem_map.1 hx
  exact sumSegments_le _ _ _ y hy

theorem watchSlot_belowCeilings (s : State) (i : Nat) (x : Slot) (h : x.state.BelowCeilings) : (watchSlot s i x).state.BelowCeilings := by
  unfold watchSlot
  split
  · next job epoch r hr =>
    rw [hr] at h
    split
    · exact h
    · intro r' hr'
      cases hr'
      exact refreshTotals_belowCeilings s _ r
  · exact h

theorem resultWatch_keepsRanges (s : State) : KeepsRanges s (resultWatch s) := by
  refine (raiseIf_keepsRanges _ _ _).after (.withSlots s _ fun k st hst => .inr ?_)
  obtain ⟨y, hy, rfl⟩ := List.mem_map.1 hst
  obtain ⟨z, hz, rfl⟩ := List.mem_map.1 hy
  exact watchSlot_belowCeilings s _ _
    (((totalsBelowCeilings_iff s).1 k).2 _ (List.mem_map_of_mem (List.fst_mem_of_mem_zipIdx hz)))

/-! ## The span table and the epoch transfer -/

/-- The span that two entries in range make lies in range (R92). -/
theorem spanOf_inRange (v w : Nat) {a b : Link} (ha : a.inRange) (hb : b.inRange) : (spanOf v w a b).InRange := by
  obtain ⟨han, halo, hahi⟩ := ha
  obtain ⟨hbn, -, hbhi⟩ := hb
  exact ⟨max_le han hbn, halo.trans (le_max_left _ _), max_le hahi hbhi⟩

/-- A confirmed entry of a report held in a table in range lies in range (R72, R91). -/
theorem confirmedLink_inRange {table : List (Option StationReport)} {n d : Nat} {a : StationReport} {l : Link} (h : ReportsInRange table)
    (ha : place table n = some a) (hl : confirmedLink a.report d = some l) : l.inRange := by
  obtain ⟨-, -, -, hlinks⟩ := h n a ha
  exact hlinks l (List.mem_of_find?_eq_some hl)

/-- The span table of active reports in range lies in range (R91, R92). -/
theorem resolveSpans_inRange (s : State) (h : ReportsInRange s.tdb.active) : ∀ sp ∈ resolveSpans s, sp.InRange := by
  intro sp hsp
  obtain ⟨v, -, hv⟩ := List.mem_flatMap.1 hsp
  unfold resolveStation at hv
  split at hv
  · next a ha =>
    split at hv
    · obtain ⟨d, -, hd⟩ := List.mem_filterMap.1 hv
      obtain ⟨l, hl, hr⟩ := Option.bind_eq_some_iff.1 hd
      unfold resolveLink at hr
      split at hr
      · split at hr
        · next b hb =>
          split at hr
          · next m hm =>
            split at hr
            · cases hr
              exact spanOf_inRange _ _ (confirmedLink_inRange h ha hl) (confirmedLink_inRange h hb hm)
            · cases hr
          · cases hr
        · cases hr
      · cases hr
    · cases hv
  · cases hv

theorem transfer_keepsRanges (s : State) : KeepsRanges s (transfer s) := by
  refine KeepsRanges.trans (KeepsRanges.trans ?_ (raise_keepsRanges _ _)) (resultWatch_keepsRanges _)
  refine .withTdb s _ fun v => ?_
  obtain ⟨-, -, ht⟩ := (valuesInRange_iff s).1 v
  exact ⟨ht.staging, ht.staging, resolveSpans_inRange _ ht.staging⟩

/-! ## Slot starts and completions -/

/-- A PEN prepared for a search holds the source label alone (R124). -/
theorem prepared_belowCeilings (slot source : Nat) (diverse : List End) (ownPairs : List Pair) :
    (Pen.prepared slot source diverse ownPairs).BelowCeilings where
  settled := fun _ h => (List.not_mem_nil h).elim
  frontier := fun e he => by
    obtain rfl := List.mem_singleton.1 he
    exact ⟨Nat.zero_le _, Nat.zero_le _, Nat.zero_le _⟩

theorem startHead_keepsRanges (i : Nat) (job : Job) (s : State) : KeepsRanges s (startHead i job s) := by
  unfold startHead
  split
  · exact (raise_keepsRanges _ _).after (setSlotState_keepsRanges i _ s fun _ => belowCeilings_of_no_result rfl)
  · exact (setSlotState_keepsRanges i _ s fun _ => belowCeilings_of_no_result rfl).trans
      (.withPen _ _ fun _ => prepared_belowCeilings _ _ _ _)

theorem judgeStart_keepsRanges (n : Nat) (s : State) : KeepsRanges s (judgeStart n s) := by
  induction n generalizing s with
  | zero => exact .refl s
  | succ n ih =>
    unfold judgeStart
    split
    · exact .refl s
    · split
      · exact .refl s
      · next rest _ =>
        refine KeepsRanges.trans (t := { s with reqQueue := rest }) (.of_frame (by simp)) ?_
        dsimp only
        split
        · exact (startHead_keepsRanges _ _ _).trans (ih _)
        · exact ih _

theorem startQueued_keepsRanges (s : State) : KeepsRanges s (startQueued s) := judgeStart_keepsRanges _ s

theorem leftRunning_keepsRanges (s : State) : KeepsRanges s (leftRunning s) := by
  refine KeepsRanges.trans ?_ (startQueued_keepsRanges _)
  split
  · exact transfer_keepsRanges s
  · exact .refl s

/-- The PEN that ends a search keeps its labels (R140, R142). -/
theorem endSearch_keepsRanges (s : State) : KeepsRanges s (setPen s.pen.ended s) := .withPen s _ fun h => ⟨h.settled, h.frontier⟩

/-- The RUNNING slot completes with a record whose totals lie below their ceilings when the labels of the search do. -/
theorem complete_keepsRanges (i : Nat) (st : SlotState) (s : State) (h : s.pen.BelowCeilings → st.BelowCeilings) :
    KeepsRanges s (complete i st s) :=
  (leftRunning_keepsRanges _).after ((raise_keepsRanges _ _).after ((endSearch_keepsRanges s).trans
    (setSlotState_keepsRanges i st _ fun k =>
      have ⟨hp, _⟩ := (totalsBelowCeilings_iff _).1 k
      h ⟨hp.settled, hp.frontier⟩)))

/-! ## The search -/

/-- The totals of an extension are saturating sums (R117, R135). -/
theorem extend_belowCeilings (env : SearchEnv) (e : Reached) (d : Nat) (sp : Span) (k : Nat) : (env.extend e d sp k).belowCeilings :=
  ⟨satAdd_le _ _ _, satAdd_le _ _ _, satAdd_le _ _ _⟩

/-- A regeneration adds its cost by a saturating sum, starts its noise at 0 and keeps the latency (R116, R117). -/
theorem regenerate_belowCeilings (env : SearchEnv) (e : Reached) (h : e.label.belowCeilings) : (env.regenerate e).belowCeilings :=
  have ⟨_, _, hl⟩ := h
  ⟨satAdd_le _ _ _, Nat.zero_le _, hl⟩

/-- An offer puts at most the label offered into the frontier (R137, R139). -/
theorem offer_belowCeilings (env : SearchEnv) (x : Reached) (p : Pen) (hx : x.label.belowCeilings) (hp : p.BelowCeilings) :
    (env.offer x p).BelowCeilings := by
  have placed : ∀ l : List Reached, l ⊆ p.frontier → ∀ y ∈ env.insert x l, y.label.belowCeilings := fun l hl y hy => by
    rcases (mem_insert env x y l).1 hy with rfl | hy
    · exact hx
    · exact hp.frontier y (hl hy)
  unfold SearchEnv.offer
  split
  · exact hp
  · split
    · split
      · exact ⟨hp.settled, placed _ (removeFirst_sublist _ _).subset⟩
      · exact hp
    · split
      · exact ⟨hp.settled, placed _ (List.Subset.refl _)⟩
      · split
        · split
          · exact ⟨hp.settled, placed _ (List.dropLast_subset _)⟩
          · exact ⟨hp.settled, hp.frontier⟩
        · exact hp

theorem extendOver_belowCeilings (env : SearchEnv) (e : Reached) (stations : List Nat) (p : Pen) (way : Nat × End × Span)
    (hp : p.BelowCeilings) : (env.extendOver e stations p way).BelowCeilings := by
  refine List.foldlRecOn _ _ hp fun q hq k _ => ?_
  dsimp only
  split
  · exact hq
  · exact offer_belowCeilings env _ q (extend_belowCeilings env e _ _ k) hq

theorem offerRegen_belowCeilings (env : SearchEnv) (e : Reached) (p : Pen) (he : e.label.belowCeilings) (hp : p.BelowCeilings) :
    (env.offerRegen e p).BelowCeilings := by
  unfold SearchEnv.offerRegen
  split
  · exact offer_belowCeilings env _ p (regenerate_belowCeilings env e he) hp
  · exact hp

/-- The work of a settlement keeps the labels below their ceilings (R134). -/
theorem work_belowCeilings (env : SearchEnv) (e : Reached) (p : Pen) (he : e.label.belowCeilings) (hp : p.BelowCeilings) :
    (env.work e p).BelowCeilings :=
  offerRegen_belowCeilings env e _ he
    (List.foldlRecOn _ _ hp fun q hq way _ => extendOver_belowCeilings env e _ q way hq)

/-- A chain holds its own label and settled ones (R130). -/
theorem mem_chain {settled : List Reached} {n : Nat} {e x : Reached} (h : x ∈ chain settled n e) : x = e ∨ x ∈ settled := by
  induction n generalizing e with
  | zero => exact .inl (List.mem_singleton.1 h)
  | succ n ih =>
    unfold chain at h
    split at h
    · exact .inl (List.mem_singleton.1 h)
    · split at h
      · next e' he' =>
        rcases List.mem_cons.1 h with h | h
        · exact .inl h
        · rcases ih h with rfl | h
          · exact .inr (List.mem_of_find?_eq_some he')
          · exact .inr h
      · exact .inl (List.mem_singleton.1 h)

/-- The labels that end the segments of a chain stand in it (R120). -/
theorem mem_regenEnds {l : Label} (c : List Reached) (h : l ∈ regenEnds c) : ∃ x ∈ c, x.label = l := by
  induction c with
  | nil => cases h
  | cons x c ih =>
    have later : l ∈ regenEnds c → ∃ z ∈ x :: c, z.label = l := fun h =>
      have ⟨z, hz, hl⟩ := ih h
      ⟨z, List.mem_cons_of_mem x hz, hl⟩
    cases c with
    | nil => cases h
    | cons y rest =>
      unfold regenEnds at h
      split at h
      · rcases List.mem_cons.1 h with rfl | h
        · exact ⟨y, by simp, rfl⟩
        · exact later h
      · exact later h

/-- The path handed over has the totals of labels in the table (R120, R142). -/
theorem pathOf_belowCeilings (cls : ClassEntry) (p : Pen) (e : Reached) (he : e.label.belowCeilings)
    (hs : ∀ x ∈ p.settled, x.label.belowCeilings) : (pathOf cls p e).belowCeilings := by
  obtain ⟨hc, hn, hl⟩ := he
  refine ⟨hc, hl, fun g hg => ?_⟩
  obtain ⟨l, hm, rfl⟩ := List.mem_map.1 (List.mem_reverse.1 hg)
  rcases List.mem_cons.1 hm with rfl | hm
  · exact hn
  · obtain ⟨x, hx, rfl⟩ := mem_regenEnds _ hm
    rcases mem_chain hx with rfl | hx
    · exact hn
    · exact (hs x hx).2.1

theorem settleSlot_keepsRanges (i : Nat) (job : Job) (epoch : BitVec 16) (s : State) : KeepsRanges s (settleSlot i job epoch s) := by
  unfold settleSlot
  split
  · exact complete_keepsRanges i _ s fun _ => belowCeilings_of_no_result rfl
  · next e rest hf =>
    have taken : s.pen.BelowCeilings → e.label.belowCeilings ∧ (s.pen.settle e rest).BelowCeilings := fun h => by
      have hfront := h.frontier
      rw [hf] at hfront
      have he := hfront e List.mem_cons_self
      exact ⟨he, List.forall_mem_cons.2 ⟨he, h.settled⟩, fun x hx => hfront x (List.mem_cons_of_mem e hx)⟩
    have worked : s.pen.BelowCeilings → ((s.searchEnv job).work e (s.pen.settle e rest)).BelowCeilings := fun h =>
      have ⟨he, hp⟩ := taken h
      work_belowCeilings _ e _ he hp
    dsimp only
    split
    · refine KeepsRanges.trans (t := setPen { s.pen.settle e rest with frontier := [] } s)
        (.withPen s _ fun h => ⟨(taken h).2.settled, fun _ hx => (List.not_mem_nil hx).elim⟩)
        (complete_keepsRanges i _ _ fun h r hr => ?_)
      have hs : ∀ x ∈ (s.pen.settle e rest).settled, x.label.belowCeilings := h.settled
      obtain rfl := Option.some.inj hr
      exact pathOf_belowCeilings _ _ e (hs e List.mem_cons_self) hs
    · split
      · exact KeepsRanges.trans (.withPen s _ worked) (complete_keepsRanges i _ _ fun _ => belowCeilings_of_no_result rfl)
      · exact .withPen s _ worked

theorem settle_keepsRanges (s : State) : KeepsRanges s (settle s) := by
  unfold settle
  split
  · split
    · exact settleSlot_keepsRanges _ _ _ s
    · exact .refl s
  · exact .refl s

/-! ## The epoch timer and FORCE EPOCH -/

theorem setHeld_keepsRanges (h : List EpochAsk) (s : State) : KeepsRanges s (setHeld h s) := .of_frame ⟨rfl, rfl, rfl, rfl, rfl, rfl, rfl⟩

theorem decideExpiry_keepsRanges (s : State) : KeepsRanges s (decideExpiry s) := by
  unfold decideExpiry
  split
  · exact .refl s
  · split
    · exact .of_frame (by simp)
    · exact (transfer_keepsRanges s).trans (startQueued_keepsRanges _)

theorem epochExpired_keepsRanges (s : State) : KeepsRanges s (epochExpired s) := by
  unfold epochExpired
  split
  · exact .refl s
  · dsimp only
    split
    · exact (setHeld_keepsRanges _ _).after (.of_frame (by simp))
    · exact (decideExpiry_keepsRanges _).after (.of_frame (by simp))

theorem beginTaking_keepsRanges (s : State) : KeepsRanges s (beginTaking s) := .of_frame (by simp)

theorem decideForce_keepsRanges (s : State) : KeepsRanges s (decideForce s) := by
  unfold decideForce
  split
  · exact .of_frame (by simp)
  · split
    · exact .of_frame (by simp)
    · split
      · exact .of_frame (by simp)
      · exact ((beginTaking_keepsRanges s).trans (transfer_keepsRanges _)).trans (startQueued_keepsRanges _)

theorem forceEpoch_keepsRanges (p : List Byte) (s : State) : KeepsRanges s (forceEpoch p s) := by
  unfold forceEpoch
  split
  · exact (setHeld_keepsRanges _ s).trans (beginTaking_keepsRanges _)
  · exact decideForce_keepsRanges s

theorem takeHeld_keepsRanges (l : List EpochAsk) (s : State) : KeepsRanges s (takeHeld l s) := by
  induction l generalizing s with
  | nil => exact setHeld_keepsRanges _ s
  | cons a l ih =>
    cases a with
    | expiry =>
      unfold takeHeld
      split
      · exact setHeld_keepsRanges _ s
      · exact (decideExpiry_keepsRanges s).trans (ih _)
    | force =>
      unfold takeHeld
      split
      · exact setHeld_keepsRanges _ s
      · exact (decideForce_keepsRanges s).trans (ih _)

theorem endTransfer_keepsRanges (s : State) : KeepsRanges s (endTransfer s) := by
  unfold endTransfer
  split
  · refine KeepsRanges.trans ?_ (takeHeld_keepsRanges _ _)
    split
    · exact .of_frame (by simp)
    · exact .of_frame (by simp)
  · exact .refl s

/-! ## The commands on slots -/

theorem submit_keepsRanges (p : List Byte) (s : State) : KeepsRanges s (submit p s) := by
  unfold submit
  split
  · exact .of_frame (by simp)
  · split
    · exact .of_frame (by simp)
    · next i _ =>
      refine (startQueued_keepsRanges _).after ((respondOk_keepsRanges _ _ _).after ?_)
      exact (setSlotState_keepsRanges i (.queued (s.submitJob p)) s fun _ => belowCeilings_of_no_result rfl).trans (.of_frame (by simp))

theorem cancel_keepsRanges (p : List Byte) (s : State) : KeepsRanges s (cancel p s) := by
  unfold cancel
  dsimp only
  split
  · exact .of_frame (by simp)
  · exact (respondOk_keepsRanges _ _ _).after ((freeSlot_keepsRanges (payloadByte p 0) s).trans (.of_frame (by simp)))
  · exact (respondOk_keepsRanges _ _ _).after ((leftRunning_keepsRanges _).after
      ((endSearch_keepsRanges s).trans (freeSlot_keepsRanges _ _)))
  · exact .of_frame (by simp)

theorem endIntent_keepsRanges (i : Nat) (s : State) : KeepsRanges s (endIntent i s) := .of_frame (by simp)

theorem releaseSlot_keepsRanges (p : List Byte) (s : State) : KeepsRanges s (releaseSlot p s) := by
  unfold releaseSlot
  dsimp only
  split
  · exact .of_frame (by simp)
  · exact .of_frame (by simp)
  · exact .of_frame (by simp)
  · exact .of_frame (by simp)
  · exact ((endIntent_keepsRanges _ s).trans (freeSlot_keepsRanges _ _)).trans (respondOk_keepsRanges _ _ _)

/-! ## The working parameters -/

/-- A field of a delivered word has what every reading of it has, when its default does too (R178). -/
theorem fieldOr_of (P : Nat → Prop) {word : Option Word} {f : Word → Nat} {dflt : Nat} (hf : ∀ w, P (f w)) (hd : P dflt) :
    P (fieldOr word f dflt) := by
  cases word with
  | none => exact hd
  | some w => exact hf w

theorem bits_lt (w : Word) (hi lo : Nat) : bits w hi lo < 2 ^ (hi - lo + 1) := BitVec.isLt _

/-- The monitor parameters of a load lie in their working ranges (R178). -/
theorem loadMonitor_inRange (store : List StoreWord) (d : Nat) :
    1 ≤ (loadMonitor store d).threshold ∧ (loadMonitor store d).threshold ≤ 1000000 ∧ (loadMonitor store d).hysteresis ≤ 65535
      ∧ (loadMonitor store d).qualifier ≤ 7 := by
  have ht : 1 ≤ (loadMonitor store d).threshold ∧ (loadMonitor store d).threshold ≤ 1000000 :=
    fieldOr_of (fun n => 1 ≤ n ∧ n ≤ 1000000) (fun _ => clamp_bounds 1 1000000 _ (by decide)) (by decide)
  exact ⟨ht.1, ht.2, fieldOr_of (· ≤ 65535) (fun w => Nat.le_of_lt_succ (bits_lt w 15 0)) (by decide),
    fieldOr_of (· ≤ 7) (fun _ => (clamp_bounds 0 7 _ (by decide)).2) (by decide)⟩

/-- The class entries of a load lie in their working ranges (R178). -/
theorem loadClass_inRange (store : List StoreWord) (c : Nat) :
    (loadClass store c).home < 16 ∧ (loadClass store c).budget ≤ 1000000 ∧ (loadClass store c).maxPasses ≤ 15
      ∧ (loadClass store c).maxLatency ≤ 16777215 ∧ (loadClass store c).regenCost ≤ 4095 ∧ (loadClass store c).penalty ≤ 1000000 := by
  obtain ⟨hh, hb, hp, hl, hr, hy⟩ := defaultClass_inRange c
  exact ⟨fieldOr_of (· < 16) (fun w => bits_lt w 31 28) hh,
    fieldOr_of (· ≤ 1000000) (fun _ => (clamp_bounds 0 1000000 _ (by decide)).2) hb,
    fieldOr_of (· ≤ 15) (fun _ => (clamp_bounds 0 15 _ (by decide)).2) hp,
    fieldOr_of (· ≤ 16777215) (fun w => Nat.le_of_lt_succ (bits_lt w 23 0)) hl,
    fieldOr_of (· ≤ 4095) (fun w => Nat.le_of_lt_succ (bits_lt w 11 0)) hr,
    fieldOr_of (· ≤ 1000000) (fun _ => (clamp_bounds 0 1000000 _ (by decide)).2) hy⟩

/-- Whatever the store holds, a load builds parameters in their working ranges (R178). -/
theorem loadParams_inRange (store : List StoreWord) : (loadParams store).inRange := by
  have hrefresh : 1 ≤ (loadParams store).refresh ∧ (loadParams store).refresh ≤ 60 :=
    fieldOr_of (fun n => 1 ≤ n ∧ n ≤ 60) (fun _ => clamp_bounds 1 60 _ (by decide)) (by decide)
  have hepoch : 1 ≤ (loadParams store).epoch ∧ (loadParams store).epoch ≤ 255 :=
    fieldOr_of (fun n => 1 ≤ n ∧ n ≤ 255) (fun _ => clamp_bounds 1 255 _ (by decide)) (by decide)
  have hlife : 3 ≤ (loadParams store).lifetime ∧ (loadParams store).lifetime ≤ 255 :=
    fieldOr_of (fun n => 3 ≤ n ∧ n ≤ 255) (fun _ => clamp_bounds 3 255 _ (by decide)) (by decide)
  refine ⟨fieldOr_of (· < 48) (fun w => Nat.mod_lt _ (by decide)) (by decide), fieldOr_of (· < 16) (fun w => bits_lt w 23 20) (by decide),
    hrefresh.1, hrefresh.2, hepoch.1, hepoch.2, hlife.1, hlife.2, fun m hm => ?_, fun c hc => ?_⟩
  · obtain ⟨d, -, rfl⟩ := List.mem_map.1 hm
    exact loadMonitor_inRange store d
  · obtain ⟨k, -, rfl⟩ := List.mem_map.1 hc
    exact loadClass_inRange store k

/-! ## Resets, the load, the passing of a millisecond -/

/-- A database just reset holds no report and no span. -/
theorem deviceReset_tdb_inRange : Tdb.deviceReset.InRange :=
  ⟨fun n _ h => (by cases (place_replicate_none 48 n).symm.trans h), fun n _ h => (by cases (place_replicate_none 48 n).symm.trans h),
    fun _ h => (List.not_mem_nil h).elim⟩

/-- Every slot is FREE after either reset (R111). -/
theorem deviceReset_slots_belowCeilings : ∀ st ∈ (List.replicate Config.slots Slot.deviceReset).map Slot.state, st.BelowCeilings := by
  intro st hst
  obtain ⟨x, hx, rfl⟩ := List.mem_map.1 hst
  rw [List.eq_of_mem_replicate hx]
  exact belowCeilings_of_no_result rfl

theorem heldInReset_valuesInRange (store : List StoreWord) (pending : List Instr) : (State.heldInReset store pending).valuesInRange := by
  refine (valuesInRange_iff _).2 ⟨(Nat.zero_le 15 :), ⟨(Nat.zero_le 1000000 :), (Nat.zero_le 15 :), fun y hy => ?_⟩, deviceReset_tdb_inRange⟩
  rw [List.eq_of_mem_replicate (show y ∈ List.replicate 8 SpmDegree.deviceReset from hy)]
  exact (by decide : 0 ≤ 1000000 ∧ 1 ≤ 1 ∧ 1 ≤ 4095 ∧ 0 ≤ 65535)

theorem heldInReset_totalsBelowCeilings (store : List StoreWord) (pending : List Instr) :
    (State.heldInReset store pending).totalsBelowCeilings :=
  (totalsBelowCeilings_iff _).2
    ⟨⟨fun _ h => (List.not_mem_nil h).elim, fun _ h => (List.not_mem_nil h).elim⟩, deviceReset_slots_belowCeilings⟩

/-- A part held in device reset obeys the laws: they hold there whatever came before (R184). -/
theorem deviceReset_keepsRanges (s : State) : KeepsRanges s (deviceReset s) :=
  ⟨fun _ => heldInReset_valuesInRange _ _, fun _ => heldInReset_totalsBelowCeilings _ _, fun _ => defaultParams_inRange _⟩

theorem releaseReset_keepsRanges (s : State) : KeepsRanges s (releaseReset s) := by
  unfold releaseReset
  split
  · exact .of_frame ⟨rfl, rfl, rfl, rfl, rfl, rfl, rfl⟩
  · exact .refl s

theorem restartBlocks_keepsRanges (s : State) : KeepsRanges s (restartBlocks s) where
  values := fun v =>
    have ⟨hd, hm, _⟩ := (valuesInRange_iff s).1 v
    (valuesInRange_iff _).2 ⟨hd, hm, deviceReset_tdb_inRange⟩
  totals := fun k => by
    obtain ⟨hp, -⟩ := (totalsBelowCeilings_iff s).1 k
    exact (totalsBelowCeilings_iff _).2 ⟨⟨hp.settled, hp.frontier⟩, deviceReset_slots_belowCeilings⟩
  params := id

theorem restart_keepsRanges (p : List Byte) (s : State) : KeepsRanges s (restart p s) := by
  have hr := (respondOk_keepsRanges cmdRestart [] s).trans (restartBlocks_keepsRanges _)
  unfold restart
  split
  · exact .of_frame (by simp)
  · split
    · exact .of_frame (by simp)
    · dsimp only
      split
      · exact hr.trans (catchUpAll_keepsRanges _)
      · exact hr

theorem loadWord_keepsRanges (s : State) : KeepsRanges s (loadWord s) := by
  unfold loadWord Psr.readNext
  split
  · split <;> exact .of_frame (by simp)
  · exact .refl s

/-- New working parameters in their ranges, the domain among them (R177, R178). -/
theorem loaded_keepsRanges (s : State) : KeepsRanges s (setPsr s.psr.loaded s) where
  values := fun v =>
    have ⟨_, hm, ht⟩ := (valuesInRange_iff s).1 v
    have ⟨_, hd, _⟩ := loadParams_inRange s.psr.store
    (valuesInRange_iff _).2 ⟨Nat.le_of_lt_succ hd, hm, ht⟩
  totals := id
  params := fun _ => loadParams_inRange _

theorem seedGenerator_keepsRanges (s : State) : KeepsRanges s (seedGenerator s) := .of_frame (by simp)
theorem setStation_keepsRanges (x : Station) (s : State) : KeepsRanges s (setStation x s) := .of_frame (by simp)
theorem enterFaulted_keepsRanges (s : State) : KeepsRanges s (enterFaulted s) := .of_frame (by simp)

theorem enterStandby_keepsRanges (s : State) : KeepsRanges s (enterStandby s) := by
  unfold enterStandby
  exact .of_frame (by simp)

theorem endLoad_keepsRanges (s : State) : KeepsRanges s (endLoad s) := by
  unfold endLoad
  split
  · dsimp only
    generalize ht : (if s.psr.firstLoad = true then seedGenerator (setPsr s.psr.loaded s) else setPsr s.psr.loaded s) = t
    have htk : KeepsRanges s t := by
      subst ht
      split
      · exact (loaded_keepsRanges s).trans (seedGenerator_keepsRanges _)
      · exact loaded_keepsRanges s
    have entered : ∀ x, KeepsRanges s (applyLoad (setStation x t)) := fun x =>
      (htk.trans (setStation_keepsRanges x t)).trans (applyLoad_keepsRanges _)
    split
    · exact (entered _).trans (enterFaulted_keepsRanges _)
    · exact (entered _).trans (enterStandby_keepsRanges _)
  · exact .refl s

theorem endStoreWrite_keepsRanges (s : State) : KeepsRanges s (endStoreWrite s) := by
  unfold endStoreWrite
  split
  · exact .of_frame (by simp)
  · exact .refl s

theorem writeStoreWord_keepsRanges (p : List Byte) (s : State) : KeepsRanges s (writeStoreWord p s) := by
  unfold writeStoreWord
  dsimp only
  (repeat' split) <;> exact .of_frame (by simp)

/-- A millisecond moves timers, and nothing that the laws read. -/
theorem tickAll_keepsRanges (s : State) : KeepsRanges s (tickAll s) := by
  refine KeepsRanges.trans (t := { s with spm := { s.spm with degrees := s.spm.degrees.map SpmDegree.tick } })
    (.withSpm s _ fun h => ⟨h.passNoise, h.regens, fun y hy => ?_⟩) (.of_frame ⟨rfl, rfl, rfl, rfl, rfl, ?_, rfl⟩)
  · obtain ⟨x, hx, rfl⟩ := List.mem_map.1 hy
    exact h.degrees x hx
  · simp [tickAll, Slot.tick]

theorem muteCommand_keepsRanges (p : List Byte) (s : State) : KeepsRanges s (muteCommand p s) :=
  (KeepsRanges.of_frame (t := setMute s) (by simp)).trans (respondOk_keepsRanges _ _ _)

/-! ## Every row, every step -/

theorem live_keepsRanges (f : State → State) (s : State) (h : KeepsRanges s (f s)) : KeepsRanges s (live f s) := by
  unfold live
  split
  · exact .refl s
  · exact h

theorem clockZeros_keepsRanges (n : Nat) (s : State) : KeepsRanges s (clockZeros n s) := .of_frame (by simp)

/-- A command transaction keeps the ranges when what the command does with its payload keeps them (R161). -/
theorem takeCommand_keepsRanges (c : Byte) (agrees : List Byte → Bool) (rest : List Byte) (act : List Byte → State → State) (s : State)
    (h : ∀ p u, KeepsRanges u (act p u)) : KeepsRanges s (takeCommand c agrees rest act s) := by
  have hz := clockZeros_keepsRanges (rest.length + 1) s
  unfold takeCommand endTransaction
  dsimp only
  split
  · exact hz
  · split
    · exact hz.trans (.of_frame (by simp))
    · split
      · exact hz.trans (.of_frame (by simp))
      · split
        · exact hz.trans (h _ _)
        · exact hz.trans (.of_frame (by simp))

/-- Every row keeps the ranges, in every state. -/
theorem exec_keepsRanges (c : Instr) (s t : State) (h : exec c s = .next t) : KeepsRanges s t := by
  cases c <;> cases h
  case deviceReset => exact deviceReset_keepsRanges s
  case resetRelease => exact releaseReset_keepsRanges s
  case loadEnd => exact live_keepsRanges _ s (endLoad_keepsRanges s)
  case pinSample mute lol => exact live_keepsRanges _ s (samplePins_keepsRanges mute lol s)
  case frameStart => exact live_keepsRanges _ s (startFrame_keepsRanges s)
  case carrierEnd => exact live_keepsRanges _ s (.of_frame (by simp))
  case episodeEnd levels => exact live_keepsRanges _ s (endEpisode_keepsRanges levels s)
  case darkTimerExpiry => exact live_keepsRanges _ s (darkExpired_keepsRanges s)
  case takeIntoService => exact live_keepsRanges _ s (.of_frame (by simp))
  case quietGapExpiry => exact live_keepsRanges _ s (.of_frame (by simp))
  case sendEnd => exact live_keepsRanges _ s (.of_frame (by simp))
  case echoCheckClose => exact live_keepsRanges _ s (.of_frame (by simp))
  case takeReceivedFrame strap => exact live_keepsRanges _ s (takeOldest_keepsRanges strap s)
  case peerLifetimeExpiry n => exact live_keepsRanges _ s (purge_keepsRanges n s)
  case claimRoundTimerExpiry => exact live_keepsRanges _ s (roundExpired_keepsRanges s)
  case noNumberTimerExpiry strap => exact live_keepsRanges _ s (.of_frame (by simp))
  case traceWordSend d => exact live_keepsRanges _ s (.of_frame (by simp))
  case traceSyncMatch heard => exact live_keepsRanges _ s (.of_frame (by simp))
  case traceWordJudgement d levels => exact live_keepsRanges _ s (judgeHeard_keepsRanges d levels s)
  case huntTimerExpiry d => exact live_keepsRanges _ s (huntExpired_keepsRanges d s)
  case qualifierTimerExpiry d => exact live_keepsRanges _ s (qualifierExpired_keepsRanges d s)
  case holdDownExpiry => exact live_keepsRanges _ s (holdDownExpired_keepsRanges s)
  case refreshTimerExpiry => exact live_keepsRanges _ s (refreshExpired_keepsRanges s)
  case epochTimerExpiry => exact live_keepsRanges _ s (epochExpired_keepsRanges s)
  case peerIntentLifetimeExpiry p => exact live_keepsRanges _ s (expireIntent_keepsRanges p s)
  case settlement => exact live_keepsRanges _ s (settle_keepsRanges s)
  case windowTimerExpiry i => exact live_keepsRanges _ s (.of_frame (by simp))
  case intentRefreshExpiry i => exact live_keepsRanges _ s (.of_frame (by simp))
  case storeBusyExpiry => exact live_keepsRanges _ s (endStoreWrite_keepsRanges s)
  case readResponse n => exact .of_frame (by simp)
  case ignoredTransaction bits => exact .of_frame (by simp)
  case unknownCommand c rest => exact .of_frame (by simp)
  case readStatus rest => exact takeCommand_keepsRanges _ _ rest _ s fun _ _ => .of_frame (by simp)
  case readDirectoryEntry rest => exact takeCommand_keepsRanges _ _ rest _ s fun _ _ => .of_frame (by simp)
  case readDegree rest => exact takeCommand_keepsRanges _ _ rest _ s fun _ _ => .of_frame (by simp)
  case readReport rest => exact takeCommand_keepsRanges _ _ rest _ s fun _ _ => .of_frame (by simp)
  case readPeerIntent rest => exact takeCommand_keepsRanges _ _ rest _ s fun _ _ => .of_frame (by simp)
  case writeNodeReport rest => exact takeCommand_keepsRanges _ _ rest _ s writeNodeReport_keepsRanges
  case writeSpanReport rest => exact takeCommand_keepsRanges _ _ rest _ s writeSpanReport_keepsRanges
  case clearLatch rest => exact takeCommand_keepsRanges _ _ rest _ s clearLatch_keepsRanges
  case submit rest => exact takeCommand_keepsRanges _ _ rest _ s submit_keepsRanges
  case cancel rest => exact takeCommand_keepsRanges _ _ rest _ s cancel_keepsRanges
  case releaseSlot rest => exact takeCommand_keepsRanges _ _ rest _ s releaseSlot_keepsRanges
  case readSlot rest => exact takeCommand_keepsRanges _ _ rest _ s fun _ _ => .of_frame (by simp)
  case commitIntent rest => exact takeCommand_keepsRanges _ _ rest _ s fun _ _ => .of_frame (by simp)
  case withdraw rest => exact takeCommand_keepsRanges _ _ rest _ s fun _ _ => .of_frame (by simp)
  case forceEpoch rest => exact takeCommand_keepsRanges _ _ rest _ s forceEpoch_keepsRanges
  case start rest strap => exact takeCommand_keepsRanges _ _ rest _ s fun _ _ => .of_frame (by simp)
  case restart rest => exact takeCommand_keepsRanges _ _ rest _ s restart_keepsRanges
  case mute rest => exact takeCommand_keepsRanges _ _ rest _ s muteCommand_keepsRanges
  case clearMute rest => exact takeCommand_keepsRanges _ _ rest _ s fun _ _ => .of_frame (by simp)
  case setEnables rest => exact takeCommand_keepsRanges _ _ rest _ s fun _ _ => .of_frame (by simp)
  case clearIndications rest => exact takeCommand_keepsRanges _ _ rest _ s fun _ _ => .of_frame (by simp)
  case readStoreWord rest => exact takeCommand_keepsRanges _ _ rest _ s fun _ _ => .of_frame (by simp)
  case writeStoreWord rest => exact takeCommand_keepsRanges _ _ rest _ s writeStoreWord_keepsRanges
  case loadWordRead => exact live_keepsRanges _ s (loadWord_keepsRanges s)
  case epochTransferEnd => exact live_keepsRanges _ s (endTransfer_keepsRanges s)

/-- Every step keeps the ranges: a row does, and so does an idle millisecond. -/
theorem step_keepsRanges (s t : State) (h : step s = .next t) : KeepsRanges s t := by
  unfold step at h
  split at h
  · exact KeepsRanges.trans (.of_frame (by simp)) (exec_keepsRanges _ _ t h)
  · cases h
    exact live_keepsRanges _ s (tickAll_keepsRanges s)

/-- Settles O58: each law of `KeepsRanges` is kept by every step. -/
theorem stepKeepsValuesInRange : Obligations.StepKeepsValuesInRange :=
  ⟨fun s t v h => (step_keepsRanges s t h).values v, fun s t k h => (step_keepsRanges s t h).totals k,
    fun s t p h => (step_keepsRanges s t h).params p⟩

end Sys2Proof.Machine
end

section
/-! # Node reports (R48 to R50, R52) -/

namespace Sys2Proof.Machine

/-! ## Clamps -/

theorem clamp_eq (lo hi n : Nat) (h : lo ≤ hi) : clamp lo hi n = max lo (min n hi) := by
  unfold clamp
  split
  · omega
  · split <;> omega

/-- A clamp changes exactly the values outside its range. -/
theorem clamp_ne_iff (lo hi n : Nat) (h : lo ≤ hi) : clamp lo hi n ≠ n ↔ n < lo ∨ hi < n := by
  rw [clamp_eq lo hi n h]
  omega

/-! ## The port -/

/-- The port after a command that leaves it alone until it answers (R159, R160, R162). -/
theorem respond_lrp_of_clocked {s u : State} {n : Nat} (hu : u.lrp = (clockZeros n s).lrp) (c : Byte) (st : Status) (cl : Bool)
    (p : List Byte) : (respond c st cl p u).lrp = (s.answered n c st cl p).lrp := by
  simp only [respond, hu]
  rfl

theorem exec_writeNodeReport {s : State} {p : List Byte} (h : s.listens) (hp : p.length = 112) :
    exec (.writeNodeReport (112 :: p)) s = .next (writeNodeReport p (clockZeros 114 s)) := by
  have ht := takeCommand_taken cmdWriteNodeReport (hasLength 112) 112 p writeNodeReport s h hp (decide_eq_true hp)
  rw [hp] at ht
  exact congrArg Host.Outcome.next ht

/-! ## What a node report does -/

/-- The enable set names a position past the 26 fields (R49). -/
theorem namesNoField_iff (r : NodeReport) : r.namesNoField = true ↔ ∃ k, 26 ≤ k ∧ r.enable.getLsbD k = true := by
  rw [NodeReport.namesNoField, decide_eq_true_eq]
  constructor
  · intro hn
    by_contra hk
    refine hn (BitVec.eq_of_getLsbD_eq fun i _ => ?_)
    have hi : r.enable.getLsbD (26 + i) = false := Bool.eq_false_iff.2 fun he => hk ⟨26 + i, Nat.le_add_right _ _, he⟩
    simp [BitVec.getLsbD_extractLsb', hi]
  · rintro ⟨k, hk, he⟩ hz
    have hlt : k < 32 := BitVec.lt_of_getLsbD he
    have hbit := congrArg (fun b => b.getLsbD (k - 26)) hz
    simp [show 26 + (k - 26) = k by omega, he, show k - 26 < 6 by omega] at hbit

/-- A node report acts on each degree by the values it carries for it (R49). -/
theorem nodeWrite_degree (x : Spm) (r : NodeReport) {d : Nat} {y : SpmDegree} {v : NodeDegreeValues} (hy : x.degrees[d]? = some y)
    (hv : r.degrees[d]? = some v) : (x.nodeWrite r).degrees[d]? = some (y.nodeWrite r.enable d v) := by
  simp [Spm.nodeWrite, NodeReport.valuesOf, hy, hv]

/-- A node report was clamped where an enabled value lies outside its range (R50). -/
theorem nodeReport_clamped_iff (r : NodeReport) : r.clamped = true ↔
    (∃ d v, r.degrees[d]? = some v ∧ (r.enable.getLsbD (3 * d + 1) = true ∧ (v.cost = 0 ∨ 4095 < v.cost)
      ∨ r.enable.getLsbD (3 * d + 2) = true ∧ 65535 < v.latency))
    ∨ r.enable.getLsbD 24 = true ∧ 1000000 < r.passNoise ∨ r.enable.getLsbD 25 = true ∧ 15 < r.regens := by
  have hcost : ∀ n, clampCost n ≠ n ↔ n = 0 ∨ 4095 < n := fun n => (clamp_ne_iff 1 4095 n (by decide)).trans (by omega)
  have hceil : ∀ hi n, clamp 0 hi n ≠ n ↔ hi < n := fun hi n => (clamp_ne_iff 0 hi n (Nat.zero_le _)).trans (by omega)
  have hnoise : ∀ n, clampNoise n ≠ n ↔ 1000000 < n := hceil 1000000
  simp only [NodeReport.clamped, Bool.or_eq_true, Bool.and_eq_true, bne_iff_ne, List.any_eq_true, hcost, hceil, hnoise, Prod.exists,
    List.mem_zipIdx_iff_getElem?, or_assoc]
  rw [exists_comm]

/-- A node report that is not refused replaces the span monitor, signals the ORG, and answers (R49, R50, R52). -/
theorem writeNodeReport_taken (s : State) (p : List Byte) {r : NodeReport} (hr : r = decodeNodeReport p) (hl : s.dir.station ≠ .loading)
    (hn : r.namesNoField = false) : ∃ u, writeNodeReport p s = respond cmdWriteNodeReport .ok r.clamped [] u
      ∧ u.spm = s.spm.nodeWrite r ∧ u.lrp = s.lrp ∧ (s.dir.station ≠ .member → u = { s with spm := s.spm.nodeWrite r }) := by
  refine ⟨orgChangeIf (s.spm.nodeWrite r != s.spm) { s with spm := s.spm.nodeWrite r }, ?_, orgChangeIf_spm _ _, orgChangeIf_lrp _ _,
    fun hm => orgChangeIf_outside _ _ hm⟩
  simp [writeNodeReport, ← hr, hl, hn]

/-- Settles O28: the two refusals, then the values written and the clamps found. -/
theorem nodeReportReplacesEnabledFields : Obligations.NodeReportReplacesEnabledFields := by
  intro s p r hs hp hr _
  rw [exec_writeNodeReport hs hp]
  refine ⟨fun hl => ?_, fun hl hk => ?_, fun hl hk => ?_⟩
  · exact congrArg Host.Outcome.next (if_pos hl)
  · rw [writeNodeReport, ← hr]
    exact congrArg Host.Outcome.next ((if_neg hl).trans (if_pos ((namesNoField_iff r).2 hk)))
  · have hn : r.namesNoField = false := Bool.eq_false_iff.2 fun h =>
      have ⟨k, hle, he⟩ := (namesNoField_iff r).1 h
      Bool.false_ne_true ((hk k hle).symm.trans he)
    obtain ⟨u, hwrite, hspm, hlrp, hout⟩ := writeNodeReport_taken (clockZeros 114 s) p hr hl hn
    rw [hwrite]
    refine ⟨_, rfl, fun d x v hx hv => ?_, ?_, ?_, respond_lrp_of_clocked hlrp _ _ _ _, nodeReport_clamped_iff r, fun hm => ?_⟩
    · rw [respond_spm, hspm]
      refine (nodeWrite_degree s.spm r hx hv).trans ?_
      simp only [SpmDegree.nodeWrite, clampCost, clamp_eq 1 4095 _ (by decide), clamp_eq 0 65535 _ (by decide), Nat.zero_max]
    · rw [respond_spm, hspm]
      simp only [Spm.nodeWrite, clampNoise, Config.noiseMax, clamp_eq 0 1000000 _ (by decide), Nat.zero_max, clockZeros_spm]
    · rw [respond_spm, hspm]
      simp only [Spm.nodeWrite, clamp_eq 0 15 _ (by decide), Nat.zero_max, clockZeros_spm]
    · rw [hout hm]
      rfl

end Sys2Proof.Machine
end

section
/-! # The margin monitor (R51, R53 to R59) -/

namespace Sys2Proof.Machine

/-! ## The monitor's tables -/

/-- The release level is the threshold less the hysteresis, and no less than 0 (R53). -/
theorem release_eq (q : MonitorParams) : q.release = q.threshold - q.hysteresis := by
  unfold MonitorParams.release
  split
  · rfl
  · omega

/-- A load at or below the release level, without subtraction (R53, R56). -/
theorem le_release_iff (q : MonitorParams) (n : Nat) : n ≤ q.release ↔ n + q.hysteresis ≤ q.threshold ∨ n = 0 := by
  rw [release_eq]
  omega

theorem report_clear (q : MonitorParams) (n : Nat) : Monitor.clear.report q n =
    if n ≤ q.threshold then .clear else if q.qualifier = 0 then .degraded q.latch else .pending (250 * q.qualifier) false := by
  rw [Nat.mul_comm 250]
  rfl

theorem report_pending (q : MonitorParams) (n left : Nat) (held : Bool) :
    (Monitor.pending left held).report q n = if n ≤ q.threshold then .clear else .pending left held := rfl

theorem report_degraded (q : MonitorParams) (n : Nat) (held : Bool) : (Monitor.degraded held).report q n
    = if n + q.hysteresis ≤ q.threshold ∧ held = false ∨ n = 0 ∧ held = false then .clear else .degraded held := by
  rw [Monitor.report]
  exact if_congr (by rw [le_release_iff, or_and_right]) rfl rfl

theorem expire_pending (q : MonitorParams) (n left : Nat) (held : Bool) :
    (Monitor.pending left held).expire q n = if q.threshold < n then .degraded q.latch else .clear := rfl

theorem clearLatch_latched (q : MonitorParams) (n : Nat) :
    (Monitor.degraded true).clearLatch q n = if n ≤ q.threshold - q.hysteresis then .clear else .degraded false := by
  rw [← release_eq]
  rfl

theorem clearLatch_unlatched (q : MonitorParams) (n : Nat) {m : Monitor} (h : m ≠ .degraded true) : m.clearLatch q n = m := by
  unfold Monitor.clearLatch
  split
  · exact absurd rfl h
  · rfl

/-! ## A degree takes a load and a monitor -/

section
variable {s : State} {d : Nat} {x : SpmDegree} (hx : s.spm.degrees[d]? = some x) (n : Nat) (m : Monitor)
include hx

theorem changeMonitor_eq : changeMonitor d n m s = orgChangeIf (x.monitor.isDegraded != m.isDegraded || x.noise != n)
    (raiseIf (x.monitor.isDegraded != m.isDegraded) .marginChange (setSpmDegree d { x with noise := n, monitor := m } s)) := by
  simp only [changeMonitor, hx]

theorem changeMonitor_spm : (changeMonitor d n m s).spm
    = { s.spm with degrees := s.spm.degrees.set d { x with noise := n, monitor := m } } := by
  rw [changeMonitor_eq hx, orgChangeIf_spm, raiseIf_spm]
  rfl

theorem changeMonitor_at : (changeMonitor d n m s).spm.degrees[d]? = some { x with noise := n, monitor := m } := by
  rw [changeMonitor_spm hx]
  exact List.getElem?_set_self (List.getElem?_eq_some_iff.1 hx).1

/-- R57: entry to and departure from DEGRADED are shown. -/
theorem changeMonitor_shows (h : m.isDegraded ≠ x.monitor.isDegraded) : (changeMonitor d n m s).shows .marginChange := by
  rw [changeMonitor_eq hx]
  refine (orgChangeIf_steady _ _).shown _ ((raiseIf_shows _ _ _ _).2 (.inl ⟨?_, rfl⟩))
  simpa using h.symm

/-- R70: outside MEMBER no report is originated. -/
theorem changeMonitor_outside (h : s.dir.station ≠ .member) : (changeMonitor d n m s).org = s.org ∧ (changeMonitor d n m s).sct = s.sct
    ∧ (changeMonitor d n m s).tdb = s.tdb := by
  rw [changeMonitor_eq hx, orgChangeIf_outside _ _ (by simpa using h), raiseIf_org, raiseIf_sct, raiseIf_tdb]
  exact ⟨rfl, rfl, rfl⟩

/-- R52, R57: with DEGRADED and load as they were nothing is shown and nothing signalled. -/
theorem changeMonitor_unmoved (hm : m.isDegraded = x.monitor.isDegraded) :
    changeMonitor d x.noise m s = setSpmDegree d { x with monitor := m } s := by
  rw [changeMonitor_eq hx, hm]
  simp [orgChangeIf, raiseIf]

theorem monitorPayload_of : s.monitorPayload d = [byte x.monitor.code, byte x.monitor.latchHeld.toNat] := by
  simp only [State.monitorPayload, hx]

end

theorem changeMonitor_elsewhere (s : State) (d k n : Nat) (m : Monitor) (h : k ≠ d) :
    (changeMonitor k n m s).spm.degrees[d]? = s.spm.degrees[d]? := by
  cases hx : s.spm.degrees[k]? with
  | none => simp only [changeMonitor, hx]
  | some x =>
    rw [changeMonitor_spm hx]
    exact List.getElem?_set_ne h

/-- The monitor parameters of a degree that has them (R53). -/
theorem monitorParams_of {s : State} {d : Nat} {q : MonitorParams} (h : s.psr.working.degrees[d]? = some q) : s.monitorParams d = q := by
  simp only [State.monitorParams, h, Option.getD_some]

/-! ## WRITE SPAN REPORT and CLEAR LATCH -/

theorem field_three (a b c : Byte) (bs : List Byte) : field (a :: b :: c :: bs) 0 3 = 65536 * a.toNat + 256 * b.toNat + c.toNat := by
  simp only [field, slice, ofBytes, List.drop_zero, List.take_succ_cons, List.take_zero, List.foldl_cons, List.foldl_nil]
  omega

theorem exec_writeSpanReport {s : State} (h : s.listens) (d a b c : Byte) :
    exec (.writeSpanReport [4, d, a, b, c]) s = .next (writeSpanReport [d, a, b, c] (clockZeros 6 s)) :=
  congrArg Host.Outcome.next (takeCommand_taken cmdWriteSpanReport (hasLength 4) 4 [d, a, b, c] writeSpanReport s h rfl rfl)

theorem exec_clearLatch {s : State} (h : s.listens) (d : Byte) :
    exec (.clearLatch [1, d]) s = .next (clearLatch [d] (clockZeros 3 s)) :=
  congrArg Host.Outcome.next (takeCommand_taken cmdClearLatch (hasLength 1) 1 [d] clearLatch s h rfl rfl)

/-- A span report for a degree that exists (R51). -/
theorem writeSpanReport_taken {s : State} {d a b c : Byte} {x : SpmDegree} {q : MonitorParams} (hl : s.dir.station ≠ .loading)
    (hx : s.spm.degrees[d.toNat]? = some x) (hq : s.psr.working.degrees[d.toNat]? = some q) {w n : Nat}
    (hw : w = 65536 * a.toNat + 256 * b.toNat + c.toNat) (hn : n = min w 1000000) :
    writeSpanReport [d, a, b, c] s = respond cmdWriteSpanReport .ok (decide (1000000 < w))
      [byte (x.monitor.report q n).code, byte (x.monitor.report q n).latchHeld.toNat]
      (changeMonitor d.toNat n (x.monitor.report q n) s) := by
  have hfield : field [d, a, b, c] 1 3 = w := (field_cons d [a, b, c] 0 3).trans ((field_three a b c []).trans hw.symm)
  have hclamp : clampNoise w = n := by rw [clampNoise, clamp_eq _ _ _ (Nat.zero_le _), Nat.zero_max, hn]; rfl
  have hclamped : (n != w) = decide (1000000 < w) := by
    rw [Bool.eq_iff_iff, bne_iff_ne, decide_eq_true_eq, hn]
    omega
  simp only [writeSpanReport, payloadByte, field_one, hl, if_false, hx, hfield, hclamp, hclamped, monitorParams_of hq,
    monitorPayload_of (changeMonitor_at hx n _)]

/-- CLEAR LATCH for a degree that exists (R58). -/
theorem clearLatch_taken {s : State} {d : Byte} {x : SpmDegree} {q : MonitorParams} (hl : s.dir.station ≠ .loading)
    (hx : s.spm.degrees[d.toNat]? = some x) (hq : s.psr.working.degrees[d.toNat]? = some q) :
    clearLatch [d] s = respond cmdClearLatch .ok false
      [byte (x.monitor.clearLatch q x.noise).code, byte (x.monitor.clearLatch q x.noise).latchHeld.toNat]
      (changeMonitor d.toNat x.noise (x.monitor.clearLatch q x.noise) s) := by
  simp only [clearLatch, payloadByte, field_one, hl, if_false, hx, monitorParams_of hq, monitorPayload_of (changeMonitor_at hx x.noise _),
    respondOk]

theorem writeSpanReport_loading {s : State} (p : List Byte) (h : s.dir.station = .loading) :
    writeSpanReport p s = refuse cmdWriteSpanReport .badState s := if_pos h

theorem clearLatch_loading {s : State} (p : List Byte) (h : s.dir.station = .loading) :
    clearLatch p s = refuse cmdClearLatch .badState s := if_pos h

theorem writeSpanReport_noDegree {s : State} {d a b c : Byte} (hl : s.dir.station ≠ .loading) (hx : s.spm.degrees[d.toNat]? = none) :
    writeSpanReport [d, a, b, c] s = refuse cmdWriteSpanReport .badField s := by
  simp only [writeSpanReport, payloadByte, field_one, hl, if_false, hx]

theorem clearLatch_noDegree {s : State} {d : Byte} (hl : s.dir.station ≠ .loading) (hx : s.spm.degrees[d.toNat]? = none) :
    clearLatch [d] s = refuse cmdClearLatch .badField s := by
  simp only [clearLatch, payloadByte, field_one, hl, if_false, hx]

/-- Settles O29: the monitor moves by `Monitor.report`, state by state; then the refusals. -/
theorem spanReportMovesTheMonitor : Obligations.SpanReportMovesTheMonitor := by
  refine ⟨fun s d a b c x q n hs hl hx hq hn => ?_, fun s d a b c hs => ?_⟩
  · have hx' : (clockZeros 6 s).spm.degrees[d.toNat]? = some x := hx
    rw [exec_writeSpanReport hs, writeSpanReport_taken (s := clockZeros 6 s) hl hx' hq rfl hn]
    refine ⟨_, x.monitor.report q n, rfl, ?_, fun hm hle => ?_, fun hm hlt hz => ?_, fun hm hlt hp => ?_, fun left held hm => ?_,
      fun held hm => ?_, fun hmoved => ?_, respond_lrp_of_clocked (changeMonitor_lrp _ _ _ _) _ _ _ _, fun hout => ?_⟩
    · rw [respond_spm, changeMonitor_spm hx', clockZeros_spm]
    · rw [hm, report_clear, if_pos hle]
    · rw [hm, report_clear, if_neg (Nat.not_le.2 hlt), if_pos hz]
    · rw [hm, report_clear, if_neg (Nat.not_le.2 hlt), if_neg (Nat.ne_of_gt hp)]
    · rw [hm, report_pending]
    · rw [hm, report_degraded]
    · exact changeMonitor_shows hx' n _ hmoved
    · exact changeMonitor_outside hx' n _ hout
  · rw [exec_writeSpanReport hs, exec_clearLatch hs]
    refine ⟨fun hl => ?_, fun hl hx => ?_⟩
    · rw [writeSpanReport_loading _ (s := clockZeros 6 s) hl, clearLatch_loading _ (s := clockZeros 3 s) hl]
      exact ⟨rfl, rfl⟩
    · rw [writeSpanReport_noDegree (s := clockZeros 6 s) hl hx, clearLatch_noDegree (s := clockZeros 3 s) hl hx]
      exact ⟨rfl, rfl⟩

/-! ## The qualifier's expiry -/

theorem exec_qualifierTimerExpiry {s : State} {d left : Nat} {held : Bool} {x : SpmDegree} (hr : s.inReset = false)
    (hx : s.spm.degrees[d]? = some x) (hm : x.monitor = .pending left held) : exec (.qualifierTimerExpiry d) s = .next
      (if s.dir.station = .loading then setSpmDegree d { x with monitor := .pending 0 true } s
        else changeMonitor d x.noise (x.monitor.expire (s.monitorParams d) x.noise) s) := by
  refine congrArg Host.Outcome.next ((live_of_running _ s hr).trans ?_)
  simp only [qualifierExpired, hx, hm]

/-! ## The held expiries at the end of a load (R59) -/

theorem decideHeldExpiry_elsewhere (s : State) (k d : Nat) (h : k ≠ d) : (decideHeldExpiry s k).spm.degrees[d]? = s.spm.degrees[d]? := by
  unfold decideHeldExpiry
  split
  · split
    · exact changeMonitor_elsewhere s d k _ _ h
    · rfl
  · rfl

/-- A held expiry is decided on the load held, with the parameters in force. -/
theorem decideHeldExpiry_held {s : State} {d left : Nat} {x : SpmDegree} {q : MonitorParams} (hx : s.spm.degrees[d]? = some x)
    (hm : x.monitor = .pending left true) (hq : s.psr.working.degrees[d]? = some q) : decideHeldExpiry s d
      = changeMonitor d x.noise (if q.threshold < x.noise then .degraded q.latch else .clear) s := by
  simp only [decideHeldExpiry, hx, hm, monitorParams_of hq, expire_pending]

theorem decideHeldExpiry_other {s : State} {d : Nat} {x : SpmDegree} (hx : s.spm.degrees[d]? = some x)
    (hm : ∀ left, x.monitor ≠ .pending left true) : decideHeldExpiry s d = s := by
  unfold decideHeldExpiry
  rw [hx]
  dsimp only
  split
  · next left h => exact absurd h (hm left)
  · rfl

/-- A fold over the degrees, each step at its own, leaves a degree it does not name. -/
theorem foldl_decideHeldExpiry_elsewhere (l : List Nat) (s : State) (d : Nat) (h : d ∉ l) :
    (l.foldl decideHeldExpiry s).spm.degrees[d]? = s.spm.degrees[d]? := by
  induction l generalizing s with
  | nil => rfl
  | cons k l ih =>
    obtain ⟨hk, hl⟩ := not_or.1 (mt List.mem_cons.2 h)
    rw [List.foldl_cons, ih _ hl, decideHeldExpiry_elsewhere s k d (Ne.symm hk)]

/-- The held expiries of the eight degrees, seen from one of them: it is decided once, before it nothing it reads has changed, and after
it no indication that it raised is lost. -/
theorem foldl_decideHeldExpiry_at (s : State) {d : Nat} (h : d < 8) : ∃ u v, v = (List.range 8).foldl decideHeldExpiry s
    ∧ u.spm.degrees[d]? = s.spm.degrees[d]? ∧ u.psr = s.psr ∧ v.spm.degrees[d]? = (decideHeldExpiry u d).spm.degrees[d]?
    ∧ ∀ k, (decideHeldExpiry u d).shows k → v.shows k := by
  obtain ⟨before, after, hl⟩ := List.append_of_mem (List.mem_range.2 h)
  have hnodup : (before ++ d :: after).Nodup := hl ▸ List.nodup_range
  obtain ⟨-, hcons, hdis⟩ := List.nodup_append.1 hnodup
  have hbefore : d ∉ before := fun hd => hdis d hd d List.mem_cons_self rfl
  refine ⟨before.foldl decideHeldExpiry s, _, rfl, foldl_decideHeldExpiry_elsewhere before s d hbefore,
    foldl_keeps _ State.psr (fun t k => decideHeldExpiry_psr t k) before s, ?_, fun k => ?_⟩ <;>
    rw [hl, List.foldl_append, List.foldl_cons]
  · exact foldl_decideHeldExpiry_elsewhere after _ d (List.nodup_cons.1 hcons).1
  · exact (Steady.foldl _ decideHeldExpiry_steady after _).shown k

theorem enterFaulted_shown (s : State) (k : Indication) (h : s.shows k) : (enterFaulted s).shows k :=
  (raise_shows .storeFault k { s with scr := { s.scr with decoding := false } }).2 (.inr h)

theorem enterStandby_shown (s : State) (k : Indication) (h : s.shows k) : (enterStandby s).shows k :=
  (beginWords_steady { s with tdb := { s.tdb with epochTimer := some (s.psr.working.epoch * Config.epochUnitMs) } }).shown k h

/-- The end of a load, seen from the span monitor: the held expiries are decided with the parameters just loaded, and what follows them
leaves the span monitor and the indications that are set. -/
theorem endLoad_decides (s : State) (hl : s.loadRuns = true) : ∃ u, u.psr.working = loadParams s.psr.store ∧ u.spm = s.spm
    ∧ (endLoad s).spm = ((List.range 8).foldl decideHeldExpiry u).spm
    ∧ ∀ k, ((List.range 8).foldl decideHeldExpiry u).shows k → (endLoad s).shows k := by
  rw [endLoad, if_pos hl]
  dsimp only
  generalize ht : (if s.psr.firstLoad = true then seedGenerator (setPsr s.psr.loaded s) else setPsr s.psr.loaded s) = t
  have hkeeps : t.psr.working = loadParams s.psr.store ∧ t.spm = s.spm := by
    subst ht
    split <;> exact ⟨rfl, rfl⟩
  obtain ⟨hpsr, hspm⟩ := hkeeps
  have equipped : ∀ x, ((List.range 8).foldl applyEquipped (setStation x t)).psr.working = loadParams s.psr.store
      ∧ ((List.range 8).foldl applyEquipped (setStation x t)).spm = s.spm := fun x => by
    rw [foldl_keeps applyEquipped State.psr (fun u k => applyEquipped_psr u k),
      foldl_keeps applyEquipped State.spm (fun u k => applyEquipped_spm u k)]
    exact ⟨hpsr, hspm⟩
  split
  · obtain ⟨hw, hm⟩ := equipped .faulted
    exact ⟨_, hw, hm, enterFaulted_spm (applyLoad _), fun k => enterFaulted_shown (applyLoad _) k⟩
  · obtain ⟨hw, hm⟩ := equipped .standby
    exact ⟨_, hw, hm, enterStandby_spm (applyLoad _), fun k => enterStandby_shown (applyLoad _) k⟩

/-- Settles O30: a held expiry at the end of a load, then the expiry and CLEAR LATCH outside one. -/
theorem qualifierAndLatchDecideOnTheLatestLoad : Obligations.QualifierAndLatchDecideOnTheLatestLoad := by
  refine ⟨fun s d x q hload hd hx hq => ?_, fun s d x q hx hq => ⟨fun left held hr hm => ?_, fun hs hl => ?_⟩⟩
  · obtain ⟨hr, hst, htimer⟩ := hload
    obtain ⟨t, hpsr, hspm, hend, hshown⟩ := endLoad_decides s (by simp [State.loadRuns, hst, htimer])
    obtain ⟨u, v, rfl, hu, hupsr, hv, hvshown⟩ := foldl_decideHeldExpiry_at t hd
    have hux : u.spm.degrees[d]? = some x := hu.trans (hspm ▸ hx)
    have huq : u.psr.working.degrees[d]? = some q := by rw [hupsr, hpsr, hq]
    refine ⟨endLoad s, congrArg Host.Outcome.next (live_of_running endLoad s hr), fun left hm => ⟨?_, fun hlt => ?_⟩, fun hm => ?_⟩
    · rw [hend, hv, decideHeldExpiry_held hux hm huq, changeMonitor_at hux]
    · refine hshown _ (hvshown _ ?_)
      rw [decideHeldExpiry_held hux hm huq, if_pos hlt]
      exact changeMonitor_shows hux _ _ (by rw [hm]; exact Bool.false_ne_true.symm)
    · rw [hend, hv, decideHeldExpiry_other hux hm, hux]
  · rw [exec_qualifierTimerExpiry hr hx hm]
    refine ⟨fun hl => by rw [if_pos hl]; rfl, fun hl => ⟨_, rfl, ?_⟩⟩
    rw [if_neg hl, monitorParams_of hq, hm, expire_pending]
    refine ⟨changeMonitor_spm hx _ _, fun hlt => ?_, fun hle => ?_⟩
    · rw [if_pos hlt]
      exact changeMonitor_shows hx _ _ (by rw [hm]; exact Bool.false_ne_true.symm)
    · rw [if_neg (Nat.not_lt.2 hle), changeMonitor_unmoved hx _ (by rw [hm]; rfl)]
      exact ⟨rfl, rfl⟩
  · have hx' : (clockZeros 3 s).spm.degrees[d.toNat]? = some x := hx
    rw [exec_clearLatch hs, clearLatch_taken (s := clockZeros 3 s) hl hx' hq]
    refine ⟨_, x.monitor.clearLatch q x.noise, rfl, ?_, fun hm => clearLatch_unlatched q _ hm, fun hm => ?_,
      respond_lrp_of_clocked (changeMonitor_lrp _ _ _ _) _ _ _ _, fun hmoved => ?_⟩
    · rw [respond_spm, changeMonitor_spm hx', clockZeros_spm]
    · rw [hm, clearLatch_latched]
    · exact changeMonitor_shows hx' _ _ hmoved

end Sys2Proof.Machine
end

section
/-! # Reports of peers stored by sequence number (R71 to R75) -/

namespace Sys2Proof.Machine

/-! ## Requests that originate nothing (R65, R70) -/

/-- No request makes the part originate its report now: it is no MEMBER, or its hold-down timer runs. -/
def State.withholds (s : State) : Prop := s.dir.station ≠ .member ∨ s.org.holdDown.isSome = true

/-- All that a request does then (R65, R70). -/
theorem orgRequest_withheld {s : State} (h : s.withholds) :
    orgRequest s = s ∨ orgRequest s = { s with org := { s.org with pendingChange := true } } := by
  unfold orgRequest
  split
  · rename_i hm
    exact .inr (if_pos (h.resolve_left fun hn => hn hm))
  · exact .inl rfl

theorem orgRequest_missed {s : State} (h : s.withholds) : (orgRequest s).org.missed = s.org.missed := by
  rcases orgRequest_withheld h with e | e <;> rw [e]

theorem orgRequest_withholds {s : State} (h : s.withholds) : (orgRequest s).withholds := by
  rcases orgRequest_withheld h with e | e <;> rw [e] <;> exact h

/-! ## The missed list (R74, R75) -/

/-- The number that joins a list at its newest end is among its last four. -/
theorem mem_lastN_append {α : Type} (l : List α) (n : α) : n ∈ lastN Config.missedDepth (l ++ [n]) := by
  rw [lastN, List.drop_append_of_le_length (by simp [Config.missedDepth])]
  exact List.mem_append_right _ (List.mem_singleton.2 rfl)

/-- A gap puts its sender on the missed list, where it stays until the next origination (R74). -/
theorem recordGap_missed (n : Nat) {s : State} (h : s.withholds) : n ∈ (recordGap n s).org.missed ∧ (recordGap n s).withholds := by
  unfold recordGap
  split
  · rename_i hn
    exact ⟨by simpa using hn, h⟩
  · have hw : State.withholds { s with org := { s.org with missed := lastN Config.missedDepth (s.org.missed ++ [n]) } } := h
    exact ⟨orgRequest_missed hw ▸ mem_lastN_append _ n, orgRequest_withholds hw⟩

theorem examineMissed_missed (r : Report) {s : State} (h : s.withholds) : (examineMissed r s).org.missed = s.org.missed := by
  unfold examineMissed
  split
  · exact orgRequest_missed h
  · rfl

/-- Outside MEMBER the missed list of a stored report raises nothing (R70, R75). -/
theorem examineMissed_outside (r : Report) (s : State) (h : s.dir.station ≠ .member) : examineMissed r s = s := if_neg fun hm => h hm.1

/-! ## The comparison with the report held (R73, R74) -/

section
variable {s : State} {n : Nat} {u : Uid} {r : Report}

/-- The first report under a number, by what becomes of the state. -/
theorem storeReport_unheld (h : place s.tdb.staging n = none) : storeReport n u r s = examineMissed r (stageReport n u r s) := by
  simp only [storeReport, reportUnder, h, Option.map_none]

variable {x : StationReport} (hx : place s.tdb.staging n = some x)
include hx

/-- A report next in sequence is stored, with no gap. -/
theorem storeReport_next (h : (r.seq - x.report.seq).toNat = 1) : storeReport n u r s = examineMissed r (stageReport n u r s) := by
  simp [storeReport, reportUnder, hx, newerSeq, h]

/-- A newer report that is not the next is stored, and its gap recorded. -/
theorem storeReport_gap (h₁ : 2 ≤ (r.seq - x.report.seq).toNat) (h₂ : (r.seq - x.report.seq).toNat ≤ 32767) :
    storeReport n u r s = examineMissed r (recordGap n (stageReport n u r s)) := by
  have hnew : newerSeq x.report.seq r.seq = true := decide_eq_true ⟨Nat.le_of_succ_le h₁, h₂⟩
  simp only [storeReport, reportUnder, hx, Option.map_some, hnew, if_true]
  rw [if_pos (show (r.seq - x.report.seq).toNat > 1 from h₁)]

/-- A duplicate or an older report leaves the state. -/
theorem storeReport_notNewer (h : r.seq = x.report.seq ∨ 32768 ≤ (r.seq - x.report.seq).toNat) : storeReport n u r s = s := by
  have hold : newerSeq x.report.seq r.seq = false := decide_eq_false fun ⟨hlo, hhi⟩ => by
    rcases h with h | h
    · simp [h] at hlo
    · omega
  simp only [storeReport, reportUnder, hx, Option.map_some, hold]
  rfl

/-- A newer report is stored, gap or no gap. -/
theorem storeReport_newer (h₁ : 1 ≤ (r.seq - x.report.seq).toNat) (h₂ : (r.seq - x.report.seq).toNat ≤ 32767) (ho : n ≠ s.ownNumber) :
    place (storeReport n u r s).tdb.staging n = some { uid := u, report := r } ∧ (storeReport n u r s).tdb.dirty = true := by
  have hlt : n < s.tdb.staging.length := (List.getElem?_eq_some_iff.1 ((place_some _ _ _).1 hx)).1
  have hown : n ∉ [s.ownNumber] := by simpa using ho
  have later : Stages [s.ownNumber] (stageReport n u r s) (storeReport n u r s) := by
    rcases Nat.lt_or_eq_of_le h₁ with hgap | hone
    · have hnum : (recordGap n (stageReport n u r s)).ownNumber = s.ownNumber := ownNumber_congr (recordGap_dir n _)
      rw [storeReport_gap hx hgap h₂]
      exact Stages.trans (recordGap_stages n (stageReport n u r s) (List.mem_singleton.2 rfl))
        (examineMissed_stages r _ (List.mem_singleton.2 hnum))
    · rw [storeReport_next hx hone.symm]
      exact examineMissed_stages r _ (List.mem_singleton.2 rfl)
  exact ⟨(later.others n hown).trans (place_set_self _ n _ hlt), later.dirty rfl⟩

/-- The gap of a newer report is in the missed list, where nothing originates (R74). -/
theorem storeReport_gap_missed (h₁ : 2 ≤ (r.seq - x.report.seq).toNat) (h₂ : (r.seq - x.report.seq).toNat ≤ 32767) (hw : s.withholds) :
    n ∈ (storeReport n u r s).org.missed := by
  obtain ⟨hmem, hw'⟩ := recordGap_missed n (s := stageReport n u r s) hw
  rw [storeReport_gap hx h₁ h₂, examineMissed_missed r hw']
  exact hmem

end

/-- A report of a known peer, once its entry is refreshed, is dispatched by its form (R24, R71, R72). -/
theorem dispatch_report {f : Frame} {r : Report} (hb : f.body = .report r) (n : Nat) (how : Acceptance) (s : State) :
    dispatch n how f s = if r.wellFormed then storeReport n f.uid r.clamped s else s := by
  simp only [dispatch, hb]

/-- Settles O22: an ill-formed report, the first, a newer one, and one that is not newer. -/
theorem reportsAreStoredBySequence : Obligations.ReportsAreStoredBySequence := by
  intro s strap f rest r l ho hs ha hc hno hb hn he
  have hnum : f.number? = f.number := by simp [Frame.number?, hb]
  have hmode : f.modeKnown := by simp [Frame.modeKnown, hb]
  have hown : ∀ u, s.entry f.number ≠ some (.own u) := by simp [he]
  have acc : Accepted f.number f (s.withRxQueue rest) _ := known_accepted (s := s.withRxQueue rest) hs hn he
  have hstep := acceptFrame_known f.number f (s.withRxQueue rest) l he
  rw [dispatch_report hb] at hstep
  -- the state in which the report is stored: `s` with the frame taken and the sender's lifetime begun anew
  generalize ht : setEntry f.number (some f.entry) (s.withRxQueue rest) = t at hstep
  have htdb : t.tdb = s.tdb := ht ▸ rfl
  have horg : t.org = s.org := ht ▸ rfl
  have hst : t.dir.station = s.dir.station := ht ▸ rfl
  have hone : f.number ≠ t.ownNumber := ht ▸ hno.symm
  have hother : t.ownNumber = s.ownNumber := ht ▸ rfl
  refine ⟨_, exec_takeReceivedFrame_accepts strap ho ha hnum hn hmode hc hown, acc.entry, ?_⟩
  have hview := acc.view
  rw [hstep] at hview ⊢
  cases hw : r.wellFormed with
  | false => exact ⟨fun _ => ⟨htdb, horg⟩, nofun, fun _ h => (nomatch h), fun _ _ _ => by rw [if_neg Bool.false_ne_true, htdb],
      by rwa [hw] at hview⟩
  | true =>
    rw [hw] at hview
    have quiet : s.dir.station ≠ .member → (examineMissed r.clamped (stageReport f.number f.uid r.clamped t)).org = s.org :=
      fun hm => by rw [examineMissed_outside _ _ (by simpa [hst] using hm), stageReport_org, horg]
    have hothers : Stages [f.number, t.ownNumber] t (storeReport f.number f.uid r.clamped t) :=
      storeReport_stages f.number f.uid r.clamped t (by simp) (by simp)
    rw [if_pos rfl]
    refine ⟨nofun, fun _ hnone => ?_, fun x _ hx => ?_, fun k hk hkown => ?_, hview⟩
    · rw [← htdb] at hnone
      obtain ⟨hplace, hdirty⟩ := storeReport_first f.number f.uid r.clamped t hnone hone (by rw [htdb, hs.2.1]; exact hn)
      exact ⟨hplace, hdirty, fun hm => by rw [storeReport_unheld hnone, quiet hm]⟩
    · rw [← htdb] at hx
      refine ⟨fun h₁ h₂ => ?_, fun hold => ?_⟩
      · obtain ⟨hplace, hdirty⟩ := storeReport_newer (u := f.uid) (r := r.clamped) hx h₁ h₂ hone
        exact ⟨hplace, hdirty, fun hgap hheld => storeReport_gap_missed (r := r.clamped) hx hgap h₂ (by rwa [State.withholds, hst, horg]),
          fun hnext hm => by rw [storeReport_next (r := r.clamped) hx hnext, quiet hm]⟩
      · rw [storeReport_notNewer (r := r.clamped) hx hold]
        exact ⟨htdb, horg⟩
    · rw [hothers.others k (by simp [hk, hother, hkown]), htdb]

end Sys2Proof.Machine
end

section
/-! # The own report: originations, content, change signals -/

namespace Sys2Proof.Machine

/-! ## The expiries of its timers (R67, R68) -/

theorem exec_holdDownExpiry {s : State} (hr : s.inReset = false) : exec .holdDownExpiry s = .next (holdDownExpired s) :=
  congrArg Host.Outcome.next (live_of_running _ s hr)

theorem exec_refreshTimerExpiry {s : State} (hr : s.inReset = false) : exec .refreshTimerExpiry s = .next (refreshExpired s) :=
  congrArg Host.Outcome.next (live_of_running _ s hr)

/-- With a change pending in MEMBER the hold-down expiry originates (R67). -/
theorem holdDownExpired_originates {s : State} {n : Nat} (ht : s.org.holdDown = some n) (hm : s.dir.station = .member)
    (hp : s.org.pendingChange = true) : holdDownExpired s = originate s := by
  simp only [holdDownExpired, ht, hm, hp, and_self, if_true]

/-- With no change pending it stops the timer (R67). -/
theorem holdDownExpired_stops {s : State} {n : Nat} (ht : s.org.holdDown = some n) (hp : s.org.pendingChange = false) :
    holdDownExpired s = { s with org := { s.org with holdDown := none } } := by
  simp [holdDownExpired, ht, hp]

theorem exec_holdDownExpiry_stops {s : State} {n : Nat} (hr : s.inReset = false) (ht : s.org.holdDown = some n)
    (hp : s.org.pendingChange = false) : exec .holdDownExpiry s = .next { s with org := { s.org with holdDown := none } } := by
  rw [exec_holdDownExpiry hr, holdDownExpired_stops ht hp]

/-- The refresh expiry originates in MEMBER and does nothing elsewhere (R68, R70). -/
theorem refreshExpired_running {s : State} {n : Nat} (ht : s.org.refresh = some n) :
    refreshExpired s = if s.dir.station = .member then originate s else s := by
  simp only [refreshExpired, ht]

/-- An origination, written out (R66). -/
theorem originate_eq (s : State) : originate s =
    (let t := handOverPlain (.report s.ownReport) { s with
      tdb := { s.tdb with staging := s.tdb.staging.set s.ownNumber (some { uid := s.ownUid, report := s.ownReport }), dirty := true } }
    { t with org := { seq := s.org.seq + 1, missed := [], holdDown := some 500, refresh := some (1000 * s.psr.working.refresh),
                      pendingChange := false } }) := by
  simp [originate, stageReport, Org.originated, Config.holdDownMs]

/-! ## The content of the report (R62, R63) -/

/-- A list of at most four numbers is filled up to four places (R62). -/
theorem missedPlaces_of_short {missed : List Nat} (h : missed.length ≤ 4) :
    missedPlaces missed = missed ++ List.replicate (4 - missed.length) 255 := by
  rw [missedPlaces, List.take_append, List.take_of_length_le (i := Config.missedDepth) h, List.take_replicate,
    Nat.min_eq_left (Nat.sub_le _ _)]
  rfl

theorem confirmedNbr_iff (t : Trace) (nbr : Identity) :
    t.confirmedNbr = some nbr ↔ ∃ num cand bad, t = .traced nbr num false cand bad := by
  unfold Trace.confirmedNbr
  split
  · simp
  · rename_i h
    simpa using fun num cand bad => h nbr num cand bad

/-- A degree has a link entry when it is TRACED with the far-end flag clear, and then of these values (R63). -/
theorem linkEntry_iff (s : State) (d : Nat) (l : Link) : s.linkEntry d = some l ↔
    ∃ x m nbr num cand bad, s.degrees[d]? = some x ∧ s.spm.degrees[d]? = some m ∧ x.trace = .traced nbr num false cand bad
      ∧ l = { degree := d, nbrUid := nbr.uid, nbrDegree := nbr.degree, noise := m.noise, latency := m.latency, cost := m.cost,
              degraded := m.monitor.isDegraded, confirmed := true, lit := m.lit } := by
  constructor
  · intro h
    unfold State.linkEntry at h
    split at h
    · rename_i nbr m hn hm
      obtain ⟨x, hx, ht⟩ := Option.bind_eq_some_iff.1 hn
      obtain ⟨num, cand, bad, ht⟩ := (confirmedNbr_iff _ _).1 ht
      exact ⟨x, m, nbr, num, cand, bad, hx, hm, ht, (Option.some.inj h).symm⟩
    · cases h
  · rintro ⟨x, m, nbr, num, cand, bad, hx, hm, ht, rfl⟩
    simp only [State.linkEntry, hx, hm, Option.bind_some, ht, Trace.confirmedNbr]

theorem linkEntry_degree {s : State} {d : Nat} {l : Link} (h : s.linkEntry d = some l) : l.degree = d := by
  obtain ⟨x, m, nbr, num, cand, bad, -, -, -, rfl⟩ := (linkEntry_iff s d l).1 h
  rfl

theorem ownReport_links (s : State) (l : Link) : l ∈ s.ownReport.links ↔ ∃ d, d < 8 ∧ s.linkEntry d = some l := by
  simp [State.ownReport, Config.degrees]

/-- The link entries stand in ascending degree (R63). -/
theorem ownReport_ascending (s : State) : (s.ownReport.links.map fun l => l.degree).Pairwise (· < ·) := by
  refine List.pairwise_map.2 (List.Pairwise.filterMap _ (fun d e hde l hl m hm => ?_) (List.pairwise_lt_range (n := Config.degrees)))
  rwa [linkEntry_degree hl, linkEntry_degree hm]

/-! ## Where change signals come from (R8, R45, R52) -/

/-- The channel that leaves ALIGNED is shown and signalled (R8). -/
theorem setChannel_impairs {x : Scr} {s : State} (hs : s.scr.channel = .aligned) (hx : x.channel ≠ .aligned) :
    setChannel x s = orgChange (raise .channelChange { s with scr := x }) := by
  have hi : (State.impaired { s with scr := x } != s.impaired) = true := by simp [State.impaired, hs, hx]
  have hc : (x.channel != s.scr.channel) = true := by simpa [hs] using hx
  simp only [setChannel, hi, hc]
  rfl

/-- A degree whose trace state, identity or confirmation changes is shown and signalled (R45). -/
theorem changeDegree_moved {s : State} {d : Nat} {x y : Degree} (hx : s.degrees[d]? = some x) (h : x.trace.watched ≠ y.trace.watched) :
    changeDegree d y s = orgChange (raise .degreeChange (setDegree d y s)) := by
  have hm : (x.trace.watched != y.trace.watched) = true := bne_iff_ne.2 h
  simp only [changeDegree, hx, hm]
  rfl

/-- A noise load that changes with its monitor left as it was is signalled, and nothing is shown (R52, R57). -/
theorem changeMonitor_loaded {s : State} {d n : Nat} {x : SpmDegree} (hx : s.spm.degrees[d]? = some x) (h : n ≠ x.noise) :
    changeMonitor d n x.monitor s = orgChange (setSpmDegree d { x with noise := n } s) := by
  rw [changeMonitor_eq hx, bne_self_eq_false, Bool.false_or, bne_iff_ne.2 h.symm]
  rfl

/-- A degree set to what it is changes nothing. -/
theorem setSpmDegree_same {s : State} {d : Nat} {x : SpmDegree} (hx : s.spm.degrees[d]? = some x) : setSpmDegree d x s = s := by
  obtain ⟨hlt, hat⟩ := List.getElem?_eq_some_iff.1 hx
  subst hat
  rw [setSpmDegree, List.set_getElem_self]

/-! ## The port stands apart from the own report -/

theorem originate_clockZeros (n : Nat) (s : State) : originate (clockZeros n s) = clockZeros n (originate s) := by
  have h := handOverPlain_clockZeros (.report s.ownReport) n (stageReport s.ownNumber s.ownUid s.ownReport s)
  exact congrArg (fun v : State => { v with org := v.org.originated (1000 * v.psr.working.refresh) }) h

/-- A change signal (R64) and the zeros on data-out do not meet. -/
theorem orgChange_clockZeros (n : Nat) (s : State) : orgChange (clockZeros n s) = clockZeros n (orgChange s) := by
  have hc : (clockZeros n s).reportChanged = s.reportChanged := rfl
  simp only [orgChange, originateHeldDown, originate_clockZeros, hc, clockZeros_dir, clockZeros_org]
  split
  · split <;> rfl
  · rfl

theorem changeMonitor_clockZeros (n d load : Nat) (m : Monitor) (s : State) :
    changeMonitor d load m (clockZeros n s) = clockZeros n (changeMonitor d load m s) := by
  have hzeros : ∀ (c : Bool) (x : SpmDegree), raiseIf c .marginChange (setSpmDegree d x (clockZeros n s))
      = clockZeros n (raiseIf c .marginChange (setSpmDegree d x s)) := fun c x => by cases c <;> rfl
  cases hx : s.spm.degrees[d]? with
  | none => simp only [changeMonitor, clockZeros_spm, hx]
  | some x =>
    simp only [changeMonitor, clockZeros_spm, hx, hzeros, orgChangeIf, orgChange_clockZeros]
    split <;> rfl

/-- A span report changes the degree and then answers, also where the working parameters hold no monitor for it (R51, R53). -/
theorem writeSpanReport_answers {s : State} {d a b c : Byte} {x : SpmDegree} {n : Nat} (hl : s.dir.station ≠ .loading)
    (hx : s.spm.degrees[d.toNat]? = some x) (hn : n = min (65536 * a.toNat + 256 * b.toNat + c.toNat) 1000000) :
    ∃ clamped payload, writeSpanReport [d, a, b, c] s = respond cmdWriteSpanReport .ok clamped payload
      (changeMonitor d.toNat n (x.monitor.report (s.monitorParams d.toNat) n) s) := by
  have hfield : field [d, a, b, c] 1 3 = 65536 * a.toNat + 256 * b.toNat + c.toNat :=
    (field_cons d [a, b, c] 0 3).trans (field_three a b c [])
  have hclamp : clampNoise (field [d, a, b, c] 1 3) = n := by
    rw [hfield, clampNoise, clamp_eq _ _ _ (Nat.zero_le _), Nat.zero_max, hn]
    rfl
  simp only [writeSpanReport, payloadByte, field_one, hl, if_false, hx, hclamp]
  exact ⟨_, _, rfl⟩

/-! ## Each expiry and each signal -/

/-- R66 to R68, R70: the two expiries. -/
theorem ownReport_expiries (s : State) (n : Nat) (c : Instr) (hr : s.inReset = false)
    (hc : c = .holdDownExpiry ∧ s.org.holdDown = some n ∧ s.org.pendingChange = true ∨ c = .refreshTimerExpiry ∧ s.org.refresh = some n) :
    (s.dir.station = .member → exec c s = .next (originate s)) ∧ (s.dir.station ≠ .member → c = .refreshTimerExpiry → exec c s = .next s) := by
  rcases hc with ⟨rfl, ht, hp⟩ | ⟨rfl, ht⟩
  · exact ⟨fun hm => by rw [exec_holdDownExpiry hr, holdDownExpired_originates ht hm hp], nofun⟩
  · rw [exec_refreshTimerExpiry hr, refreshExpired_running ht]
    exact ⟨fun hm => by rw [if_pos hm], fun hm _ => by rw [if_neg hm]⟩

/-- R8, R64: the dark timer's expiry in MEMBER, by the channel state it ends. -/
theorem darkExpiry_judged {s u : State} (hr : s.inReset = false) (hm : s.dir.station = .member) (ht : s.scr.darkTimer.isSome = true)
    (hu : u = { s with scr := s.scr.darkExpired }) :
    (s.scr.channel = .aligned → ∃ t, exec .darkTimerExpiry s = .next t ∧ (raise .channelChange u).judgedTo t)
      ∧ (s.scr.channel = .seeking → exec .darkTimerExpiry s = .next (raise .channelChange u))
      ∧ (s.scr.channel = .dark → exec .darkTimerExpiry s = .next u) := by
  subst hu
  rw [exec_darkTimerExpiry s hr (by rw [hm]; decide) ht]
  refine ⟨fun hc => ⟨_, rfl, ?_⟩, fun hc => ?_, fun hc => ?_⟩
  · rw [setChannel_impairs hc (show Channel.dark ≠ .aligned by decide)]
    exact orgChange_judged _ hm
  · rw [setChannel_quiet _ s (by simp [Scr.darkExpired, hc]), hc]
    rfl
  · rw [setChannel_quiet _ s (by simp [Scr.darkExpired, hc]), hc]
    rfl

/-- R41, R45, R64: the hunt timer's expiry that loses a neighbour in MEMBER. -/
theorem huntExpiry_judged {s : State} {d n num : Nat} {x : Degree} {nbr : Identity} {far : Bool} {cand : Option Candidate}
    (hm : s.dir.station = .member) (hh : s.hears d x) (hr : x.receiver = .hunt n) (hx : x.trace = .traced nbr num far cand 3) :
    ∃ t, exec (.huntTimerExpiry d) s = .next t
      ∧ (raise .degreeChange (setDegree d { x with trace := .searching none, receiver := .hunt 13 } s)).judgedTo t := by
  have hlost : x.judge .invalid (.hunt 13) = { x with trace := .searching none, receiver := .hunt 13 } := by
    obtain ⟨ht, hrec⟩ := judge_traced_lost (r := .hunt 13) hx (Nat.le_refl 3)
    calc x.judge .invalid (.hunt 13)
        = { x with trace := (x.judge .invalid (.hunt 13)).trace, receiver := (x.judge .invalid (.hunt 13)).receiver } := rfl
      _ = _ := by rw [ht, hrec]
  rw [exec_huntTimerExpiry hh hr, hlost, changeDegree_moved hh.2.1 (by simp [hx, Trace.watched, Trace.code])]
  exact ⟨_, rfl, orgChange_judged _ hm⟩

/-- R51, R52, R64: a span report in MEMBER that leaves the monitor CLEAR. -/
theorem spanReport_judged {s : State} {d a b c : Byte} {x : SpmDegree} {n : Nat} (hs : s.listens) (hm : s.dir.station = .member)
    (hx : s.spm.degrees[d.toNat]? = some x) (hc : x.monitor = .clear) (hn : n = min (65536 * a.toNat + 256 * b.toNat + c.toNat) 1000000)
    (hle : n ≤ (s.monitorParams d.toNat).threshold) : ∃ t u, exec (.writeSpanReport [4, d, a, b, c]) s = .next t
      ∧ t = { u with lrp := t.lrp } ∧ u.lrp = s.lrp ∧ (n = x.noise → u = s)
      ∧ (n ≠ x.noise → (setSpmDegree d.toNat { x with noise := n } s).judgedTo u) := by
  have hreport : x.monitor.report (s.monitorParams d.toNat) n = x.monitor := by rw [hc, report_clear, if_pos hle]
  obtain ⟨clamped, payload, hanswer⟩ := writeSpanReport_answers (s := clockZeros 6 s) (show s.dir.station ≠ .loading by rw [hm]; decide) hx hn
  rw [clockZeros_monitorParams, hreport, changeMonitor_clockZeros] at hanswer
  refine ⟨_, changeMonitor d.toNat n x.monitor s, exec_writeSpanReport hs d a b c, ?_, changeMonitor_lrp .., fun he => ?_, fun hne => ?_⟩
  · rw [hanswer]
    rfl
  · rw [he, changeMonitor_unmoved hx _ rfl]
    exact setSpmDegree_same hx
  · rw [changeMonitor_loaded hx hne]
    exact orgChange_judged _ hm

/-- Settles O31: the two expiries, the content of the report, and the change signals of receiver, tracer and span monitor. -/
theorem ownReportIsOriginated : Obligations.OwnReportIsOriginated := by
  refine ⟨fun s n c hr hc => ?_, fun s => ?_, fun s hr hm ht u hu => darkExpiry_judged hr hm ht hu,
    fun s d n num x nbr far cand hm hh hr hx => huntExpiry_judged hm hh hr hx,
    fun s d a b c x n hs hm hx hc hn hle => spanReport_judged hs hm hx hc hn hle⟩
  · obtain ⟨hin, hout⟩ := ownReport_expiries s n c hr hc
    exact ⟨fun hm => (hin hm).trans (congrArg _ (originate_eq s)), hout,
      exec_holdDownExpiry_stops (s := { s with org := { s.org with pendingChange := false, holdDown := some n } }) hr rfl rfl⟩
  · refine ⟨rfl, rfl, decide_eq_true_iff, rfl, rfl, rfl, missedPlaces_of_short, ownReport_ascending s, fun l => ?_⟩
    simp only [ownReport_links, linkEntry_iff, exists_and_left]

end Sys2Proof.Machine
end

section
/-! # The topology database: spans, RELEASE, epochs -/

namespace Sys2Proof.Machine

/-! ## Span resolution (R91, R92) -/

/-- The four conditions of R91 on a confirmed entry of the report `a` held under `v`. -/
theorem resolveLink_eq_some (s : State) (v : Nat) (a : StationReport) (l : Link) (sp : Span) :
    resolveLink s v a l = some sp ↔ ∃ w b m, s.numberOf l.nbrUid = some w ∧ place s.tdb.active w = some b
      ∧ confirmedLink b.report l.nbrDegree = some m ∧ (v < w ∧ b.uid = l.nbrUid ∧ m.nbrUid = a.uid ∧ m.nbrDegree = l.degree)
      ∧ sp = spanOf v w l m := by
  constructor
  · intro h
    unfold resolveLink at h
    split at h
    · next w hw =>
      split at h
      · next b hb =>
        split at h
        · next m hm =>
          split at h
          · next hc =>
            cases h
            exact ⟨w, b, m, hw, hb, hm, hc, rfl⟩
          · cases h
        · cases h
      · cases h
    · cases h
  · rintro ⟨w, b, m, hw, hb, hm, hc, rfl⟩
    simp only [resolveLink, hw, hb, hm]
    exact if_pos hc

/-- The spans made from a station's lower end: its report stands for the station the directory knows, and an entry of it resolves. -/
theorem mem_resolveStation (s : State) (v : Nat) (sp : Span) :
    sp ∈ resolveStation s v ↔ ∃ a d l, place s.tdb.active v = some a ∧ (s.entry v).map DirEntry.uid = some a.uid ∧ d < 8
      ∧ confirmedLink a.report d = some l ∧ resolveLink s v a l = some sp := by
  unfold resolveStation
  cases ha : place s.tdb.active v with
  | none => simp
  | some a =>
    dsimp only
    split
    · next hu => simp [hu, Option.bind_eq_some_iff, Config.degrees]
    · next hu =>
      refine ⟨fun h => (List.not_mem_nil h).elim, ?_⟩
      rintro ⟨a', -, -, ha', hu', -⟩
      cases ha'
      exact absurd hu' hu

theorem mem_resolveSpans (s : State) (sp : Span) : sp ∈ resolveSpans s ↔ ∃ v < 48, sp ∈ resolveStation s v := by
  simp only [resolveSpans, List.mem_flatMap, List.mem_range, Config.stations]

/-- Settles O36: a span is a station's entry that resolves, and R91 names the entries that do. -/
theorem spansNeedTwoAgreeingEnds : Obligations.SpansNeedTwoAgreeingEnds := by
  intro s sp
  simp only [mem_resolveSpans, mem_resolveStation, resolveLink_eq_some]
  constructor
  · rintro ⟨v, hv, a, d, l, ha, hu, hd, hl, w, b, m, hw, hb, hm, ⟨hvw, hbu, hma, hmd⟩, rfl⟩
    exact ⟨v, w, d, a, b, l, m, hv, hd, hvw, ha, hb, hu, hw, hbu, hl, hm, hma, hmd, rfl⟩
  · rintro ⟨v, w, d, a, b, l, m, hv, hd, hvw, ha, hb, hu, hw, hbu, hl, hm, hma, hmd, rfl⟩
    exact ⟨v, hv, a, d, l, ha, hu, hd, hl, w, b, m, hw, hb, hm, ⟨hvw, hbu, hma, hmd⟩, rfl⟩

/-- Span resolution reads the active reports and the directory alone. -/
theorem resolveSpans_congr {s t : State} (ha : t.tdb.active = s.tdb.active) (hd : t.dir = s.dir) : resolveSpans t = resolveSpans s := by
  have hentry : t.entry = s.entry := by
    funext v
    rw [State.entry, hd, State.entry]
  have hlink : resolveLink t = resolveLink s := by
    funext v a l
    simp only [resolveLink, State.numberOf, ha, hd]
  have hstation : resolveStation t = resolveStation s := by
    funext v
    unfold resolveStation
    rw [ha, hentry, hlink]
  rw [resolveSpans, hstation, resolveSpans]

/-! ## RELEASE (R82) -/

theorem isIntent_iff (u : Uid) (id : Nat) (x : Option StagedIntent) :
    isIntent u id x = true ↔ ∃ e, x = some e ∧ e.entry.uid = u ∧ e.entry.id = id := by
  cases x <;> simp [isIntent]

/-- The first entry of a unique ID and intent id is the one found (R77, R81). -/
theorem intentPlace_eq_some {s : State} {u : Uid} {id p : Nat} {e : StagedIntent} (h : s.tdb.stagingIntents[p]? = some (some e))
    (hu : e.entry.uid = u) (hi : e.entry.id = id)
    (hfirst : ∀ (q : Nat) (e' : StagedIntent), q < p → s.tdb.stagingIntents[q]? = some (some e') → e'.entry.uid ≠ u ∨ e'.entry.id ≠ id) :
    s.intentPlace u id = some p := by
  obtain ⟨hp, hx⟩ := List.getElem?_eq_some_iff.1 h
  refine List.findIdx?_eq_some_iff_getElem.2 ⟨hp, (isIntent_iff ..).2 ⟨e, hx, hu, hi⟩, fun q hq hn => ?_⟩
  obtain ⟨e', he, hu', hi'⟩ := (isIntent_iff ..).1 hn
  exact (hfirst q e' hq (by rw [List.getElem?_eq_getElem (hq.trans hp), he])).elim (fun h => h hu') fun h => h hi'

theorem intentPlace_eq_none {s : State} {u : Uid} {id : Nat}
    (h : ∀ (q : Nat) (e : StagedIntent), s.tdb.stagingIntents[q]? = some (some e) → e.entry.uid ≠ u ∨ e.entry.id ≠ id) :
    s.intentPlace u id = none := by
  refine List.findIdx?_eq_none_iff.2 fun x hx => Bool.eq_false_iff.2 fun hn => ?_
  obtain ⟨e, rfl, hu, hi⟩ := (isIntent_iff ..).1 hn
  obtain ⟨q, hq⟩ := List.getElem?_of_mem hx
  exact (h q e hq).elim (fun h => h hu) fun h => h hi

/-- A RELEASE of a known peer restarts its lifetime and removes its entry, if there is one (R21, R24, R80, R82). -/
theorem exec_release_known {s : State} (strap : BitVec 3) {f : Frame} {rest : List Frame} {id l : Nat} (ho : s.offers f rest)
    (ha : s.active = true) (hc : s.dir.station = .joining → s.dir.candidate ≠ some f.number) (hb : f.body = .release id) (hid : id < 8)
    (hn : f.number < 48) (he : s.entry f.number = some (.peer f.uid l)) :
    exec (.takeReceivedFrame strap) s
      = .next (releaseIntent f.uid id (setEntry f.number (some f.entry) (s.withRxQueue rest))) := by
  have hnum : f.number? = f.number := by simp only [Frame.number?, hb]
  have hmode : f.modeKnown := by simp only [Frame.modeKnown, hb]
  have hown : ∀ u, s.entry f.number ≠ some (.own u) := fun u h => by
    rw [he] at h
    cases h
  rw [exec_takeReceivedFrame_accepts strap ho ha hnum hn hmode hc hown, acceptFrame_known f.number f (s.withRxQueue rest) l he]
  simp only [dispatch, hb, Config.slots, hid, if_true]

/-- Settles O35: the place found is the first that matches, and where none matches nothing is removed. -/
theorem releaseRemovesOneIntentOfOneSender : Obligations.ReleaseRemovesOneIntentOfOneSender := by
  rintro s strap f rest id l ho ha hc hb hid hn he u rfl
  rw [exec_release_known strap ho ha hc hb hid hn he]
  refine ⟨fun p e hp hu hi hfirst => ?_, fun hnone => ?_⟩
  · have hplace : State.intentPlace (setEntry f.number (some f.entry) (s.withRxQueue rest)) f.uid id = some p :=
      intentPlace_eq_some (s := s) hp hu hi hfirst
    rw [releaseIntent, hplace]
    rfl
  · have hplace : State.intentPlace (setEntry f.number (some f.entry) (s.withRxQueue rest)) f.uid id = none :=
      intentPlace_eq_none (s := s) hnone
    rw [releaseIntent, hplace]
    rfl

/-! ## What an epoch transfer leaves (R89, R90) -/

/-- Every indication set in the first state is set in the second (R170). -/
def Shown (s t : State) : Prop := ∀ k, s.shows k → t.shows k

theorem startHead_shown (i : Nat) (job : Job) (s : State) : Shown s (startHead i job s) := by
  unfold startHead
  split
  · exact fun k hk => (raise_shows _ k _).2 (.inr hk)
  · exact fun _ hk => hk

theorem judgeStart_shown (n : Nat) (s : State) : Shown s (judgeStart n s) := by
  induction n generalizing s with
  | zero => exact fun _ hk => hk
  | succ n ih =>
    unfold judgeStart
    split
    · exact fun _ hk => hk
    · split
      · exact fun _ hk => hk
      · dsimp only
        split
        · exact fun k hk => ih _ k (startHead_shown _ _ _ k hk)
        · exact fun k hk => ih _ k hk

/-- What a state `t` after a transfer has from the state `s` before it. -/
structure Transferred (s t : State) : Prop where
  tdb : t.tdb = { s.tdb.copied with spans := resolveSpans { s with tdb := { s.tdb with active := s.tdb.staging } } }
  shown : t.shows .epoch
  dir : t.dir = s.dir
  sct : t.sct = s.sct
  org : t.org = s.org
  lrp : t.lrp = s.lrp
  spm : t.spm = s.spm
  degrees : t.degrees = s.degrees

theorem transfer_tdb (s : State) :
    (transfer s).tdb = { s.tdb.copied with spans := resolveSpans { s with tdb := { s.tdb with active := s.tdb.staging } } } := by
  have hspans : resolveSpans { s with tdb := s.tdb.copied } = resolveSpans { s with tdb := { s.tdb with active := s.tdb.staging } } :=
    resolveSpans_congr rfl rfl
  rw [← hspans, transfer, resultWatch_tdb]
  rfl

/-- A transfer, with the start of a queued slot behind it. -/
theorem startQueued_transferred (s : State) : Transferred s (startQueued (transfer s)) where
  tdb := by rw [startQueued_tdb, transfer_tdb]
  shown := judgeStart_shown _ _ _ ((raiseIf_shows _ _ _ _).2 (.inr ((raise_shows _ _ _).2 (.inl rfl))))
  dir := by simp
  sct := by simp
  org := by simp
  lrp := by simp
  spm := by simp
  degrees := by simp

/-! ## The epoch timer (R85, R86) -/

/-- An epoch is pending behind a running search (R86, R87). -/
def pendEpoch (s : State) : State := { s with tdb := { s.tdb with pendingEpoch := true } }

section
variable {s : State}

theorem decideExpiry_clean (hd : s.tdb.dirty = false) : decideExpiry s = s := if_pos hd

theorem decideExpiry_pends (hd : s.tdb.dirty = true) (hr : s.anyRunning = true) : decideExpiry s = pendEpoch s := by
  simp [decideExpiry, hd, hr, pendEpoch]

theorem decideExpiry_transfers (hd : s.tdb.dirty = true) (hr : s.anyRunning = false) : decideExpiry s = startQueued (transfer s) := by
  simp [decideExpiry, hd, hr]

end

/-- The next period of the epoch timer has started (R85). -/
def State.periodBegun (s : State) : State := { s with tdb := { s.tdb with epochTimer := some (10 * s.psr.working.epoch) } }

theorem exec_epochTimerExpiry {s : State} (hr : s.inReset = false) : exec .epochTimerExpiry s = .next (epochExpired s) :=
  congrArg Host.Outcome.next (live_of_running _ s hr)

section
variable {s : State} {n : Nat} (ht : s.tdb.epochTimer = some n)
include ht

theorem epochExpired_held (h : s.tdb.transferring = true) : epochExpired s = setHeld (s.tdb.held ++ [.expiry]) s.periodBegun := by
  rw [epochExpired, ht, Nat.mul_comm]
  exact if_pos h

theorem epochExpired_decided (h : s.tdb.transferring = false) : epochExpired s = decideExpiry s.periodBegun := by
  rw [epochExpired, ht, Nat.mul_comm]
  exact if_neg (Bool.eq_false_iff.1 h)

end

/-- Settles O32: during a transfer the expiry is held; else it is decided in the state in which the next period has started. -/
theorem epochExpiryTransfersOrDefers : Obligations.EpochExpiryTransfersOrDefers := by
  rintro s n u hr ht rfl
  rw [exec_epochTimerExpiry hr]
  refine ⟨fun htr => ?_, fun htr hd => ?_, fun htr hd hrun => ?_, fun htr hd hrun => ?_⟩
  · rw [epochExpired_held ht htr]
    rfl
  · rw [epochExpired_decided ht htr, decideExpiry_clean (s := s.periodBegun) hd]
    rfl
  · rw [epochExpired_decided ht htr, decideExpiry_pends (s := s.periodBegun) hd hrun]
    rfl
  · rw [epochExpired_decided ht htr, decideExpiry_transfers (s := s.periodBegun) hd hrun]
    have h := startQueued_transferred s.periodBegun
    have hspans : resolveSpans { s.periodBegun with tdb := { s.periodBegun.tdb with active := s.periodBegun.tdb.staging } }
        = resolveSpans { s with tdb := { s.tdb with active := s.tdb.staging } } := resolveSpans_congr rfl rfl
    refine ⟨_, rfl, ?_, ?_, ?_, ?_, ?_, ?_, ?_, h.shown, ?_, h.dir, h.sct, h.org, h.lrp, h.spm, h.degrees⟩
    all_goals rw [h.tdb]
    case refine_8 => exact hspans
    all_goals rfl

/-! ## FORCE EPOCH (R87, R160) -/

section
variable {s : State}

theorem decideForce_refused (h : s.dir.station = .loading ∨ s.dir.station = .faulted) :
    decideForce s = refuse cmdForceEpoch .badState s := if_pos h

variable (hl : s.dir.station ≠ .loading) (hf : s.dir.station ≠ .faulted)
include hl hf

theorem decideForce_clean (hd : s.tdb.dirty = false) : decideForce s = respondOk cmdForceEpoch s.epochPayload s := by
  simp [decideForce, hl, hf, hd]

theorem decideForce_pends (hd : s.tdb.dirty = true) (hr : s.anyRunning = true) :
    decideForce s = respond cmdForceEpoch .deferred false s.epochPayload (pendEpoch s) := by
  simp [decideForce, hl, hf, hd, hr, pendEpoch, State.epochPayload]

theorem decideForce_transfers (hd : s.tdb.dirty = true) (hr : s.anyRunning = false) :
    decideForce s = startQueued (transfer (beginTaking s)) := by
  simp [decideForce, hl, hf, hd, hr]

end

theorem beginTaking_of_free {s : State} (h : s.lrp.taking = false) :
    beginTaking s = { s with lrp := { s.lrp with commandBuffer := [64, 0], taking := true } } := by
  simp only [beginTaking, State.beingTaken, h]
  rfl

/-- Once it is being taken a FORCE EPOCH has not touched the response (R160). -/
theorem beginTaking_port (s : State) : (beginTaking s).beingTaken = true ∧ (beginTaking s).lrp.response = s.lrp.response := by
  unfold beginTaking
  split
  · next h => exact ⟨h, rfl⟩
  · exact ⟨rfl, rfl⟩

theorem exec_forceEpoch {s : State} (h : s.listens) : exec (.forceEpoch [0]) s = .next (forceEpoch [] (clockZeros 2 s)) :=
  congrArg Host.Outcome.next (takeCommand_taken cmdForceEpoch (hasLength 0) 0 [] forceEpoch s h rfl rfl)

theorem forceEpoch_decided {s : State} (p : List Byte) (h : s.tdb.transferring = false) : forceEpoch p s = decideForce s :=
  if_neg (Bool.eq_false_iff.1 h)

theorem forceEpoch_held {s : State} (p : List Byte) (h : s.tdb.transferring = true) :
    forceEpoch p s = beginTaking (setHeld (s.tdb.held ++ [.force]) s) := if_pos h

/-! ## The end of a transfer (R89) -/

/-- The state whose transfer has ended. -/
def State.transferEnded (s : State) : State := { s with tdb := { s.tdb with transferring := false } }

/-- The state in which what waited is taken: a FORCE EPOCH whose transfer ended has been answered (R87, R160). -/
def State.askerAnswered (s : State) : State :=
  if s.forceAnswered then respondOk cmdForceEpoch s.epochPayload s.transferEnded else s.transferEnded

theorem exec_epochTransferEnd {s : State} (hr : s.inReset = false) (ht : s.tdb.transferring = true) :
    exec .epochTransferEnd s = .next (takeHeld s.tdb.held s.askerAnswered) := by
  have hlive : exec .epochTransferEnd s = .next (endTransfer s) := congrArg Host.Outcome.next (live_of_running _ s hr)
  rw [hlive, endTransfer, if_pos ht]
  rfl

theorem askerAnswered_tdb (s : State) : s.askerAnswered.tdb = { s.tdb with transferring := false } := by
  unfold State.askerAnswered
  split <;> rfl

theorem askerAnswered_anyRunning (s : State) : s.askerAnswered.anyRunning = s.anyRunning := by
  unfold State.askerAnswered
  split <;> rfl

/-- Behind a FORCE EPOCH that waits no other is answered. -/
theorem askerAnswered_of_force {s : State} {rest : List EpochAsk} (h : s.tdb.held = .force :: rest) : s.askerAnswered = s.transferEnded := by
  simp [State.askerAnswered, State.forceAnswered, h]

theorem askerAnswered_of_untaken {s : State} (h : s.beingTaken = false) : s.askerAnswered = s.transferEnded := by
  simp [State.askerAnswered, State.forceAnswered, h]

section
variable {s : State} (l : List EpochAsk)

theorem takeHeld_expiry (h : s.tdb.transferring = false) : takeHeld (.expiry :: l) s = takeHeld l (decideExpiry s) := by
  simp [takeHeld, h]

theorem takeHeld_force (h : s.tdb.transferring = false) : takeHeld (.force :: l) s = takeHeld l (decideForce s) := by
  simp [takeHeld, h]

/-- Once a transfer runs again, the rest goes on waiting. -/
theorem takeHeld_transferring (h : s.tdb.transferring = true) : takeHeld l s = setHeld l s := by
  cases l with
  | nil => rfl
  | cons ask rest => cases ask <;> simp [takeHeld, h]

end

/-- Behind an ask that transfers the rest goes on waiting (R89). -/
theorem takeHeld_transferred {s t : State} (h : Transferred s t) (rest : List EpochAsk) : takeHeld rest t = setHeld rest t :=
  takeHeld_transferring rest (by rw [h.tdb]; rfl)

/-- What the database holds once such an ask has transferred (R89, R90). -/
theorem setHeld_transferred {s t : State} (h : Transferred s t) (rest : List EpochAsk) :
    (setHeld rest t).tdb.active = s.tdb.staging ∧ (setHeld rest t).tdb.epoch = s.tdb.epoch + 1 ∧ (setHeld rest t).tdb.dirty = false
      ∧ (setHeld rest t).shows .epoch ∧ (setHeld rest t).tdb.transferring = true ∧ (setHeld rest t).tdb.held = rest := by
  refine ⟨?_, ?_, ?_, h.shown, ?_, rfl⟩
  all_goals
    rw [setHeld, h.tdb]
    rfl

/-- R87, R160: a FORCE EPOCH that the port takes. -/
theorem forceEpoch_asked {s : State} (h : s.listens) :
    ((s.dir.station = .loading ∨ s.dir.station = .faulted) → s.tdb.transferring = false →
      exec (.forceEpoch [0]) s = .next (s.answered 2 64 .badState false []))
    ∧ (s.dir.station ≠ .loading → s.dir.station ≠ .faulted → s.tdb.transferring = false →
      (s.tdb.dirty = false → exec (.forceEpoch [0]) s = .next (s.answered 2 64 .ok false (toBytes 2 s.tdb.epoch.toNat)))
      ∧ (s.tdb.dirty = true → s.anyRunning = true →
          exec (.forceEpoch [0]) s = .next ((pendEpoch s).answered 2 64 .deferred false (toBytes 2 s.tdb.epoch.toNat)))
      ∧ (s.tdb.dirty = true → s.anyRunning = false → ∃ t, exec (.forceEpoch [0]) s = .next t
          ∧ t.tdb.active = s.tdb.staging ∧ t.tdb.epoch = s.tdb.epoch + 1 ∧ t.tdb.dirty = false ∧ t.shows .epoch
          ∧ t.tdb.transferring = true ∧ t.beingTaken = true ∧ t.lrp.commandBuffer = [64, 0] ∧ t.lrp.response = s.lrp.response)) := by
  obtain ⟨-, hfree⟩ := id h
  rw [exec_forceEpoch h]
  refine ⟨fun hst ht => ?_, fun hl hf ht => ⟨fun hd => ?_, fun hd hr => ?_, fun hd hr => ?_⟩⟩
  all_goals rw [forceEpoch_decided (s := clockZeros 2 s) [] ht]
  · rw [decideForce_refused (s := clockZeros 2 s) hst]
    rfl
  · rw [decideForce_clean (s := clockZeros 2 s) hl hf hd]
    rfl
  · rw [decideForce_pends (s := clockZeros 2 s) hl hf hd hr]
    rfl
  · rw [decideForce_transfers (s := clockZeros 2 s) hl hf hd hr, beginTaking_of_free (s := clockZeros 2 s) hfree]
    have ht := startQueued_transferred { clockZeros 2 s with lrp := { (clockZeros 2 s).lrp with commandBuffer := [64, 0], taking := true } }
    refine ⟨_, rfl, ?_, ?_, ?_, ht.shown, ?_, ?_, ?_, ?_⟩
    case refine_5 => rw [State.beingTaken, ht.lrp]
    case refine_6 => rw [ht.lrp]
    case refine_7 =>
      rw [ht.lrp]
      rfl
    all_goals
      rw [ht.tdb]
      rfl

/-- R89: an expiry that waited for the end of a transfer. -/
theorem expiry_waited {s : State} (rest : List EpochAsk) (hr : s.inReset = false) (ht : s.tdb.transferring = true) :
    (s.tdb.held = [.expiry] → s.beingTaken = false → s.tdb.dirty = false →
        exec .epochTransferEnd s = .next (setHeld [] s.transferEnded))
      ∧ (s.tdb.held = [.expiry] → s.beingTaken = false → s.tdb.dirty = true → s.anyRunning = true →
          exec .epochTransferEnd s = .next (setHeld [] (pendEpoch s.transferEnded)))
      ∧ (s.tdb.held = .expiry :: rest → s.tdb.dirty = true → s.anyRunning = false → ∃ t, exec .epochTransferEnd s = .next t
          ∧ t.tdb.active = s.tdb.staging ∧ t.tdb.epoch = s.tdb.epoch + 1 ∧ t.tdb.dirty = false ∧ t.shows .epoch
          ∧ t.tdb.transferring = true ∧ t.tdb.held = rest) := by
  have htdb := askerAnswered_tdb s
  have hidle : s.askerAnswered.tdb.transferring = false := by rw [htdb]
  rw [exec_epochTransferEnd hr ht]
  refine ⟨fun hh hb hd => ?_, fun hh hb hd hrun => ?_, fun hh hd hrun => ?_⟩
  all_goals rw [hh, takeHeld_expiry _ hidle]
  · rw [askerAnswered_of_untaken hb, decideExpiry_clean (s := s.transferEnded) hd]
    rfl
  · rw [askerAnswered_of_untaken hb, decideExpiry_pends (s := s.transferEnded) hd hrun]
    rfl
  · have h := startQueued_transferred s.askerAnswered
    rw [decideExpiry_transfers (by rw [htdb]; exact hd) (by rw [askerAnswered_anyRunning, hrun]), takeHeld_transferred h]
    have hview := setHeld_transferred h rest
    rw [htdb] at hview
    exact ⟨_, rfl, hview⟩

/-- R87, R89: a FORCE EPOCH that waited for the end of a transfer. -/
theorem force_waited {s : State} (rest : List EpochAsk) (hr : s.inReset = false) (ht : s.tdb.transferring = true)
    (hl : s.dir.station ≠ .loading) (hf : s.dir.station ≠ .faulted) :
    (s.tdb.held = [.force] → s.tdb.dirty = false →
        exec .epochTransferEnd s = .next (setHeld [] (respondOk cmdForceEpoch s.epochPayload s.transferEnded)))
      ∧ (s.tdb.held = [.force] → s.tdb.dirty = true → s.anyRunning = true → exec .epochTransferEnd s
          = .next (setHeld [] (respond cmdForceEpoch .deferred false s.epochPayload (pendEpoch s.transferEnded))))
      ∧ (s.tdb.held = .force :: rest → s.tdb.dirty = true → s.anyRunning = false → ∃ t, exec .epochTransferEnd s = .next t
          ∧ t.tdb.active = s.tdb.staging ∧ t.tdb.epoch = s.tdb.epoch + 1 ∧ t.tdb.dirty = false ∧ t.shows .epoch
          ∧ t.tdb.transferring = true ∧ t.tdb.held = rest ∧ t.beingTaken = true ∧ t.lrp.response = s.lrp.response) := by
  rw [exec_epochTransferEnd hr ht]
  refine ⟨fun hh hd => ?_, fun hh hd hrun => ?_, fun hh hd hrun => ?_⟩
  all_goals rw [askerAnswered_of_force hh, hh, takeHeld_force (s := s.transferEnded) _ rfl]
  · rw [decideForce_clean (s := s.transferEnded) hl hf hd]
    rfl
  · rw [decideForce_pends (s := s.transferEnded) hl hf hd hrun]
    rfl
  · have h := startQueued_transferred (beginTaking s.transferEnded)
    obtain ⟨htaken, hresponse⟩ := beginTaking_port s.transferEnded
    rw [decideForce_transfers (s := s.transferEnded) hl hf hd hrun, takeHeld_transferred h]
    obtain ⟨hactive, hepoch, hdirty, hshown, htransferring, hheld⟩ := setHeld_transferred h rest
    rw [beginTaking_tdb] at hactive hepoch
    refine ⟨_, rfl, hactive, hepoch, hdirty, hshown, htransferring, hheld, ?_, ?_⟩
    · rw [State.beingTaken, setHeld_lrp, h.lrp]
      exact htaken
    · rw [setHeld_lrp, h.lrp]
      exact hresponse

/-- Settles O34: a FORCE EPOCH by what it meets, the end of its transfer, and what waited for such an end. -/
theorem forceEpochAnswersWhenTheTransferEnds : Obligations.ForceEpochAnswersWhenTheTransferEnds := by
  refine ⟨fun s h => ?_, fun s hr ht hh => ?_, ?_⟩
  · obtain ⟨hrefused, htaken⟩ := forceEpoch_asked h
    refine ⟨hrefused, htaken, fun ht => ?_⟩
    obtain ⟨-, hfree⟩ := id h
    rw [exec_forceEpoch h, forceEpoch_held (s := clockZeros 2 s) [] ht, 
      beginTaking_of_free (s := setHeld ((clockZeros 2 s).tdb.held ++ [EpochAsk.force]) (clockZeros 2 s)) hfree]
    rfl
  · rw [exec_epochTransferEnd hr ht, hh, State.askerAnswered, State.forceAnswered, hh, List.contains_nil, Bool.not_false, Bool.and_true]
    split
    · rfl
    · rfl
  · rintro s rest u hr ht rfl
    obtain ⟨hclean, hpends, htransfers⟩ := expiry_waited rest hr ht
    exact ⟨hclean, hpends, htransfers, fun hl hf => force_waited rest hr ht hl hf⟩

end Sys2Proof.Machine
end

section
/-! # The store and the active view stand still -/

namespace Sys2Proof.Machine

/-! ## The active view of a topology database (R86, R89) -/

/-- The active view: report table, intent table, span table, epoch number. -/
def Tdb.view (t : Tdb) : List (Option StationReport) × List (Option PeerIntent) × List Span × BitVec 16 :=
  (t.active, t.activeIntents, t.spans, t.epoch)

theorem sameView_iff (s t : State) : s.sameView t ↔ t.tdb.view = s.tdb.view := by
  simp only [State.sameView, Tdb.view, Prod.mk.injEq]

/-! ### Changes of the staging tables (R78, R79) -/

@[simp] theorem stageReport_tdbView (n : Nat) (u : Uid) (r : Report) (s : State) : (stageReport n u r s).tdb.view = s.tdb.view := rfl

@[simp] theorem setStagedIntent_tdbView (p : Nat) (x : Option StagedIntent) (d : Bool) (s : State) :
    (setStagedIntent p x d s).tdb.view = s.tdb.view := rfl

@[simp] theorem setHeld_tdbView (h : List EpochAsk) (s : State) : (setHeld h s).tdb.view = s.tdb.view := rfl

@[simp] theorem dropReport_tdbView (n : Nat) (s : State) : (dropReport n s).tdb.view = s.tdb.view := by
  rw [dropReport_eq]
  rfl

@[simp] theorem purge_tdbView (n : Nat) (s : State) : (purge n s).tdb.view = s.tdb.view := (sameView_iff _ _).1 (purge_purges n s).view

@[simp] theorem purgeUid_tdbView (u : Uid) (s : State) : (purgeUid u s).tdb.view = s.tdb.view :=
  (sameView_iff _ _).1 (purgeUid_purges u s).view

@[simp] theorem expireIntent_tdbView (p : Nat) (s : State) : (expireIntent p s).tdb.view = s.tdb.view := by
  unfold expireIntent
  split <;> simp

@[simp] theorem dispatch_tdbView (n : Nat) (how : Acceptance) (f : Frame) (s : State) : (dispatch n how f s).tdb.view = s.tdb.view :=
  (sameView_iff _ _).1 (dispatch_view n how f s)

/-! ### The own report (R64 to R68) -/

@[simp] theorem originate_tdbView (s : State) : (originate s).tdb.view = s.tdb.view := by simp [originate]

@[simp] theorem originateHeldDown_tdbView (s : State) : (originateHeldDown s).tdb.view = s.tdb.view := by
  unfold originateHeldDown
  split <;> simp

@[simp] theorem orgRequest_tdbView (s : State) : (orgRequest s).tdb.view = s.tdb.view := by
  unfold orgRequest
  split <;> simp

@[simp] theorem orgChange_tdbView (s : State) : (orgChange s).tdb.view = s.tdb.view := by
  unfold orgChange
  split <;> simp

@[simp] theorem orgChangeIf_tdbView (c : Bool) (s : State) : (orgChangeIf c s).tdb.view = s.tdb.view := by
  cases c <;> simp [orgChangeIf]

@[simp] theorem holdDownExpired_tdbView (s : State) : (holdDownExpired s).tdb.view = s.tdb.view := by
  unfold holdDownExpired
  (repeat' split) <;> simp

@[simp] theorem refreshExpired_tdbView (s : State) : (refreshExpired s).tdb.view = s.tdb.view := by
  unfold refreshExpired
  (repeat' split) <;> simp

/-! ### What signals the report originator: receiver, tracer, span monitor (R8, R45, R52) -/

@[simp] theorem setChannel_tdbView (x : Scr) (s : State) : (setChannel x s).tdb.view = s.tdb.view := by simp [setChannel]

@[simp] theorem startFrame_tdbView (s : State) : (startFrame s).tdb.view = s.tdb.view := by
  unfold startFrame
  dsimp only
  (repeat' split) <;> simp

@[simp] theorem endEpisode_tdbView (levels : List Bool) (s : State) : (endEpisode levels s).tdb.view = s.tdb.view := by
  unfold endEpisode
  split <;> simp

@[simp] theorem darkExpired_tdbView (s : State) : (darkExpired s).tdb.view = s.tdb.view := by
  unfold darkExpired
  split <;> simp

@[simp] theorem changeDegree_tdbView (d : Nat) (x : Degree) (s : State) : (changeDegree d x s).tdb.view = s.tdb.view := by
  unfold changeDegree
  (repeat' split) <;> simp

@[simp] theorem judgeHeard_tdbView (d : Nat) (levels : List Bool) (s : State) : (judgeHeard d levels s).tdb.view = s.tdb.view := by
  unfold judgeHeard
  (repeat' split) <;> simp

@[simp] theorem huntExpired_tdbView (d : Nat) (s : State) : (huntExpired d s).tdb.view = s.tdb.view := by
  unfold huntExpired
  (repeat' split) <;> simp

@[simp] theorem lolAccepted_tdbView (d : Nat) (l : Bool) (s : State) : (lolAccepted d l s).tdb.view = s.tdb.view := by
  unfold lolAccepted
  (repeat' split) <;> simp

@[simp] theorem deliverLol_tdbView (lol : DegreeSet) (s : State) (x : PinState × Nat) : (deliverLol lol s x).tdb.view = s.tdb.view := by
  unfold deliverLol
  split <;> simp

@[simp] theorem samplePins_tdbView (mute : Bool) (lol : DegreeSet) (s : State) : (samplePins mute lol s).tdb.view = s.tdb.view := by
  unfold samplePins
  dsimp only
  rw [foldl_keeps _ (fun t => t.tdb.view) (deliverLol_tdbView lol)]
  split <;> simp

@[simp] theorem applyEquipped_tdbView (s : State) (d : Nat) : (applyEquipped s d).tdb.view = s.tdb.view := by
  unfold applyEquipped
  (repeat' split) <;> simp

@[simp] theorem changeMonitor_tdbView (d n : Nat) (m : Monitor) (s : State) : (changeMonitor d n m s).tdb.view = s.tdb.view := by
  unfold changeMonitor
  split <;> simp

@[simp] theorem qualifierExpired_tdbView (d : Nat) (s : State) : (qualifierExpired d s).tdb.view = s.tdb.view := by
  unfold qualifierExpired
  (repeat' split) <;> simp

@[simp] theorem decideHeldExpiry_tdbView (s : State) (d : Nat) : (decideHeldExpiry s d).tdb.view = s.tdb.view := by
  unfold decideHeldExpiry
  (repeat' split) <;> simp

@[simp] theorem writeNodeReport_tdbView (p : List Byte) (s : State) : (writeNodeReport p s).tdb.view = s.tdb.view := by
  unfold writeNodeReport
  dsimp only
  (repeat' split) <;> simp

@[simp] theorem writeSpanReport_tdbView (p : List Byte) (s : State) : (writeSpanReport p s).tdb.view = s.tdb.view := by
  unfold writeSpanReport
  dsimp only
  (repeat' split) <;> simp

@[simp] theorem clearLatch_tdbView (p : List Byte) (s : State) : (clearLatch p s).tdb.view = s.tdb.view := by
  unfold clearLatch
  dsimp only
  (repeat' split) <;> simp

/-! ### The directory (R20 to R32) -/

theorem accept_tdbView (n : Nat) (f : Frame) (s : State) : (accept n f s).2.tdb.view = s.tdb.view := by
  unfold accept
  (repeat' split) <;> simp

@[simp] theorem acceptFrame_tdbView (n : Nat) (f : Frame) (s : State) : (acceptFrame n f s).tdb.view = s.tdb.view := by
  have ha := accept_tdbView n f s
  unfold acceptFrame
  split
  · rfl
  · next how t _ h =>
    rw [h] at ha
    rw [dispatch_tdbView, ha]

@[simp] theorem renumber_tdbView (strap : BitVec 3) (n : Nat) (s : State) : (renumber strap n s).tdb.view = s.tdb.view := by
  simp [renumber]

@[simp] theorem takeFrame_tdbView (strap : BitVec 3) (f : Frame) (s : State) : (takeFrame strap f s).tdb.view = s.tdb.view := by
  unfold takeFrame ownNumberRule defend
  dsimp only
  (repeat' split) <;> simp

@[simp] theorem takeOldest_tdbView (strap : BitVec 3) (s : State) : (takeOldest strap s).tdb.view = s.tdb.view := by
  unfold takeOldest
  (repeat' split) <;> simp

@[simp] theorem roundExpired_tdbView (s : State) : (roundExpired s).tdb.view = s.tdb.view := by
  unfold roundExpired enterMember
  dsimp only
  (repeat' split) <;> simp

/-! ### The end of a load (R179) -/

@[simp] theorem applyLoad_tdbView (s : State) : (applyLoad s).tdb.view = s.tdb.view := by
  unfold applyLoad
  rw [foldl_keeps _ (fun t => t.tdb.view) decideHeldExpiry_tdbView, foldl_keeps _ (fun t => t.tdb.view) applyEquipped_tdbView]

@[simp] theorem enterStandby_tdbView (s : State) : (enterStandby s).tdb.view = s.tdb.view := by
  rw [enterStandby, beginWords_tdb]
  rfl

theorem endLoad_tdbView (s : State) : (endLoad s).tdb.view = s.tdb.view := by
  unfold endLoad
  dsimp only
  (repeat' split) <;> simp

/-! ## The store words (R175, R177, R180) -/

theorem releaseReset_store (s : State) : (releaseReset s).psr.store = s.psr.store := by
  unfold releaseReset
  split <;> rfl

theorem loadWord_store (s : State) : (loadWord s).psr.store = s.psr.store := by
  unfold loadWord Psr.readNext
  (repeat' split) <;> rfl

theorem endLoad_store (s : State) : (endLoad s).psr.store = s.psr.store := by
  by_cases hl : s.loadRuns = true
  · rw [(endLoad_blocks s hl).1]
    rfl
  · rw [endLoad, if_neg hl]

/-- WRITE STORE WORD only starts the write. -/
theorem writeStoreWord_store (p : List Byte) (s : State) : (writeStoreWord p s).psr.store = s.psr.store := by
  unfold writeStoreWord
  dsimp only
  (repeat' split) <;> rfl

/-- The catch-up at a RESTART from FAULTED touches the degrees alone (R46). -/
theorem restart_store (p : List Byte) (s : State) : (restart p s).psr.store = s.psr.store := by
  unfold restart
  dsimp only
  (repeat' split) <;> simp [restartBlocks, Psr.restarted]

/-- The store-busy expiry writes the word in progress and no other (R180). -/
theorem endStoreWrite_store (s : State) (k : Nat) (h : (endStoreWrite s).psr.store[k]? ≠ s.psr.store[k]?) :
    ∃ w, s.psr.busy = some w ∧ w.word = k := by
  unfold endStoreWrite at h
  split at h
  · next w hw => exact ⟨w, hw, by_contra fun hk => h (List.getElem?_set_ne hk)⟩
  · exact absurd rfl h

/-! ## Every row -/

/-- The rows at which the active view may change: those that can transfer or reset (R86 to R89, R94). -/
def rowMovesView : Instr → Bool
  | .epochTimerExpiry | .forceEpoch _ | .settlement | .cancel _ | .epochTransferEnd | .deviceReset | .restart _ => true
  | _ => false

/-- What a row that leads from `s` to `t` leaves: the store, unless it is the store-busy expiry, and the active view, unless it is one
of those that can transfer or reset. -/
structure Stands (c : Instr) (s t : State) : Prop where
  store : c ≠ .storeBusyExpiry → t.psr.store = s.psr.store
  view : rowMovesView c = false → t.tdb.view = s.tdb.view

namespace Stands

variable {c : Instr} {s : State}

theorem of_blocks {t : State} (hp : t.psr = s.psr) (ht : t.tdb = s.tdb) : Stands c s t := ⟨fun _ => by rw [hp], fun _ => by rw [ht]⟩

theorem live {f : State → State} (h : Stands c s (f s)) : Stands c s (live f s) := by
  unfold Machine.live
  split
  · exact of_blocks rfl rfl
  · exact h

/-- A row outside device reset that touches neither store nor topology database. -/
theorem live_blocks {f : State → State} (hp : (f s).psr = s.psr) (ht : (f s).tdb = s.tdb) : Stands c s (Machine.live f s) :=
  live (of_blocks hp ht)

/-- A row outside device reset that touches the staging tables at most. -/
theorem live_view {f : State → State} (hp : (f s).psr = s.psr) (hv : (f s).tdb.view = s.tdb.view) : Stands c s (Machine.live f s) :=
  live ⟨fun _ => by rw [hp], fun _ => hv⟩

/-- A command transaction changes the port alone, but for what the command does with its payload (R161). -/
theorem takeCommand {k : Byte} {agrees : List Byte → Bool} {rest : List Byte} {act : List Byte → State → State}
    (h : ∀ p u, Stands c u (act p u)) : Stands c s (takeCommand k agrees rest act s) := by
  have hz : Stands c s (clockZeros (rest.length + 1) s) := of_blocks rfl rfl
  unfold Machine.takeCommand endTransaction
  dsimp only
  split
  · exact hz
  · split
    · exact of_blocks rfl rfl
    · split
      · exact of_blocks rfl rfl
      · split
        · exact ⟨(h _ _).store, (h _ _).view⟩
        · exact of_blocks rfl rfl

/-- A command that touches neither store nor topology database. -/
theorem command {k : Byte} {agrees : List Byte → Bool} {rest : List Byte} {act : List Byte → State → State}
    (hp : ∀ p u, (act p u).psr = u.psr) (ht : ∀ p u, (act p u).tdb = u.tdb) : Stands c s (Machine.takeCommand k agrees rest act s) :=
  takeCommand fun p u => of_blocks (hp p u) (ht p u)

/-- A command that touches the staging tables at most. -/
theorem command_view {k : Byte} {agrees : List Byte → Bool} {rest : List Byte} {act : List Byte → State → State}
    (hp : ∀ p u, (act p u).psr = u.psr) (hv : ∀ p u, (act p u).tdb.view = u.tdb.view) :
    Stands c s (Machine.takeCommand k agrees rest act s) :=
  takeCommand fun p u => ⟨fun _ => by rw [hp], fun _ => hv p u⟩

end Stands

/-- Every row leaves store and active view, but for the rows named in `Stands`. -/
theorem exec_stands (c : Instr) (s t : State) (h : exec c s = .next t) : Stands c s t := by
  cases c <;> cases h
  case deviceReset => exact ⟨fun _ => rfl, nofun⟩
  case resetRelease => exact ⟨fun _ => releaseReset_store s, fun _ => by rw [releaseReset_tdb]⟩
  case loadEnd => exact .live ⟨fun _ => endLoad_store s, fun _ => endLoad_tdbView s⟩
  case pinSample => exact .live_view (samplePins_psr ..) (samplePins_tdbView ..)
  case frameStart => exact .live_view (startFrame_psr s) (startFrame_tdbView s)
  case carrierEnd => exact .live_blocks (endCarrier_psr s) (endCarrier_tdb s)
  case episodeEnd => exact .live_view (endEpisode_psr ..) (endEpisode_tdbView ..)
  case darkTimerExpiry => exact .live_view (darkExpired_psr s) (darkExpired_tdbView s)
  case takeIntoService => exact .live_blocks (takeService_psr s) (takeService_tdb s)
  case quietGapExpiry => exact .live_blocks (enterSend_psr s) (enterSend_tdb s)
  case sendEnd => exact .live_blocks (endSend_psr s) (endSend_tdb s)
  case echoCheckClose => exact .live_blocks (closeEcho_psr s) (closeEcho_tdb s)
  case takeReceivedFrame => exact .live_view (takeOldest_psr ..) (takeOldest_tdbView ..)
  case peerLifetimeExpiry => exact .live_view (purge_psr ..) (purge_tdbView ..)
  case claimRoundTimerExpiry => exact .live_view (roundExpired_psr s) (roundExpired_tdbView s)
  case noNumberTimerExpiry => exact .live_blocks (noNumberExpired_psr ..) (noNumberExpired_tdb ..)
  case traceWordSend => exact .live_blocks (sendWord_psr ..) (sendWord_tdb ..)
  case traceSyncMatch => exact .live_blocks (matchSync_psr ..) (matchSync_tdb ..)
  case traceWordJudgement => exact .live_view (judgeHeard_psr ..) (judgeHeard_tdbView ..)
  case huntTimerExpiry => exact .live_view (huntExpired_psr ..) (huntExpired_tdbView ..)
  case qualifierTimerExpiry => exact .live_view (qualifierExpired_psr ..) (qualifierExpired_tdbView ..)
  case holdDownExpiry => exact .live_view (holdDownExpired_psr s) (holdDownExpired_tdbView s)
  case refreshTimerExpiry => exact .live_view (refreshExpired_psr s) (refreshExpired_tdbView s)
  case epochTimerExpiry => exact .live ⟨fun _ => by rw [epochExpired_psr], nofun⟩
  case peerIntentLifetimeExpiry => exact .live_view (expireIntent_psr ..) (expireIntent_tdbView ..)
  case settlement => exact .live ⟨fun _ => by rw [settle_psr], nofun⟩
  case windowTimerExpiry => exact .live_blocks (windowExpired_psr ..) (windowExpired_tdb ..)
  case intentRefreshExpiry => exact .live_blocks (refreshIntent_psr ..) (refreshIntent_tdb ..)
  case storeBusyExpiry => exact .live ⟨fun hne => absurd rfl hne, fun _ => by rw [endStoreWrite_tdb]⟩
  case readResponse => exact .of_blocks (readResponse_psr ..) (readResponse_tdb ..)
  case ignoredTransaction => exact .of_blocks (ignoreTransaction_psr ..) (ignoreTransaction_tdb ..)
  case unknownCommand => exact .of_blocks (refuseUnknown_psr ..) (refuseUnknown_tdb ..)
  case readStatus => exact .command readStatus_psr readStatus_tdb
  case readDirectoryEntry => exact .command readDirectoryEntry_psr readDirectoryEntry_tdb
  case readDegree => exact .command readDegree_psr readDegree_tdb
  case readReport => exact .command readReport_psr readReport_tdb
  case readPeerIntent => exact .command readPeerIntent_psr readPeerIntent_tdb
  case writeNodeReport => exact .command_view writeNodeReport_psr writeNodeReport_tdbView
  case writeSpanReport => exact .command_view writeSpanReport_psr writeSpanReport_tdbView
  case clearLatch => exact .command_view clearLatch_psr clearLatch_tdbView
  case submit => exact .command submit_psr submit_tdb
  case cancel => exact .takeCommand fun p u => ⟨fun _ => by rw [cancel_psr], nofun⟩
  case releaseSlot => exact .command releaseSlot_psr releaseSlot_tdb
  case readSlot => exact .command readSlot_psr readSlot_tdb
  case commitIntent => exact .command commitIntent_psr commitIntent_tdb
  case withdraw => exact .command withdraw_psr withdraw_tdb
  case forceEpoch => exact .takeCommand fun p u => ⟨fun _ => by rw [forceEpoch_psr], nofun⟩
  case start => exact .command (startStation_psr _) (startStation_tdb _)
  case restart => exact .takeCommand fun p u => ⟨fun _ => restart_store p u, nofun⟩
  case mute => exact .command muteCommand_psr muteCommand_tdb
  case clearMute => exact .command clearMuteCommand_psr clearMuteCommand_tdb
  case setEnables => exact .command setEnables_psr setEnables_tdb
  case clearIndications => exact .command clearIndications_psr clearIndications_tdb
  case readStoreWord => exact .command readStoreWord_psr readStoreWord_tdb
  case writeStoreWord => exact .takeCommand fun p u => ⟨fun _ => writeStoreWord_store p u, fun _ => by rw [writeStoreWord_tdb]⟩
  case loadWordRead => exact .live ⟨fun _ => loadWord_store s, fun _ => by rw [loadWord_tdb]⟩
  case epochTransferEnd => exact .live ⟨fun _ => by rw [endTransfer_psr], nofun⟩

/-! ## A search that runs (R89, R123) -/

theorem slotState_eq (s : State) (i : Nat) : s.slotState i = (s.slots[i]?).map Slot.state := by
  unfold State.slotState
  cases s.slots[i]? <;> rfl

theorem anyRunning_of_slotState {s : State} {i : Nat} {j : Job} {ep : BitVec 16} (h : s.slotState i = some (.running j ep)) :
    s.anyRunning = true := by
  rw [slotState_eq, Option.map_eq_some_iff] at h
  obtain ⟨x, hx, hr⟩ := h
  exact List.any_eq_true.2 ⟨x, List.mem_of_getElem? hx, by rw [hr]; rfl⟩

/-- Two slots are not RUNNING together, since the PEN searches one (R123). -/
theorem running_unique {s : State} (h : s.slotLaw) {i k : Nat} {a b : Job} {ea eb : BitVec 16}
    (hi : s.slotState i = some (.running a ea)) (hk : s.slotState k = some (.running b eb)) : i = k := by
  obtain ⟨-, -, -, -, hsearch⟩ := h
  exact Option.some.inj (((hsearch i).2 ⟨a, ea, hi⟩).symm.trans ((hsearch k).2 ⟨b, eb, hk⟩))

/-! ### Behind a running search an epoch waits (R86, R87) -/

/-- The passage from `s` to `t` leaves the active view, and a search that runs goes on. -/
structure Waits (s t : State) : Prop where
  view : t.tdb.view = s.tdb.view
  running : t.anyRunning = s.anyRunning

theorem Waits.trans {s t u : State} (h : Waits s t) (k : Waits t u) : Waits s u := ⟨k.view.trans h.view, k.running.trans h.running⟩

theorem decideExpiry_waits {s : State} (h : s.anyRunning = true) : Waits s (decideExpiry s) := by
  cases hd : s.tdb.dirty with
  | false =>
    rw [decideExpiry_clean hd]
    exact ⟨rfl, rfl⟩
  | true =>
    rw [decideExpiry_pends hd h]
    exact ⟨rfl, rfl⟩

theorem decideForce_waits {s : State} (h : s.anyRunning = true) : Waits s (decideForce s) := by
  by_cases hst : s.dir.station = .loading ∨ s.dir.station = .faulted
  · rw [decideForce_refused hst]
    exact ⟨rfl, rfl⟩
  · obtain ⟨hl, hf⟩ := not_or.1 hst
    cases hd : s.tdb.dirty with
    | false =>
      rw [decideForce_clean hl hf hd]
      exact ⟨rfl, rfl⟩
    | true =>
      rw [decideForce_pends hl hf hd h]
      exact ⟨rfl, rfl⟩

theorem takeHeld_waits (l : List EpochAsk) {s : State} (h : s.anyRunning = true) : Waits s (takeHeld l s) := by
  induction l generalizing s with
  | nil => exact ⟨rfl, rfl⟩
  | cons ask rest ih =>
    have later : ∀ {t : State}, Waits s t → Waits s (takeHeld rest t) := fun w => w.trans (ih (w.running.trans h))
    cases ask with
    | expiry =>
      unfold takeHeld
      split
      · exact ⟨rfl, rfl⟩
      · exact later (decideExpiry_waits h)
    | force =>
      unfold takeHeld
      split
      · exact ⟨rfl, rfl⟩
      · exact later (decideForce_waits h)

theorem endTransfer_waits {s : State} (h : s.anyRunning = true) : Waits s (endTransfer s) := by
  unfold endTransfer
  split
  · have answered : Waits s s.askerAnswered := ⟨by rw [askerAnswered_tdb]; rfl, askerAnswered_anyRunning s⟩
    exact answered.trans (takeHeld_waits _ (answered.running.trans h))
  · exact ⟨rfl, rfl⟩

theorem epochExpired_waits {s : State} (h : s.anyRunning = true) : Waits s (epochExpired s) := by
  have begun : Waits s s.periodBegun := ⟨rfl, rfl⟩
  cases ht : s.tdb.epochTimer with
  | none =>
    simp only [epochExpired, ht]
    exact ⟨rfl, rfl⟩
  | some n =>
    cases htr : s.tdb.transferring with
    | false =>
      rw [epochExpired_decided ht htr]
      exact begun.trans (decideExpiry_waits h)
    | true =>
      rw [epochExpired_held ht htr]
      exact begun.trans ⟨rfl, rfl⟩

theorem forceEpoch_waits (p : List Byte) {s : State} (h : s.anyRunning = true) : Waits s (forceEpoch p s) := by
  cases htr : s.tdb.transferring with
  | false =>
    rw [forceEpoch_decided p htr]
    exact decideForce_waits h
  | true =>
    rw [forceEpoch_held p htr]
    exact ⟨by rw [beginTaking_tdb]; rfl, by rw [State.anyRunning, beginTaking_slots]; rfl⟩

/-! ### A slot that has left RUNNING is not RUNNING again (R100, R101) -/

/-- The slot `i`, where there is one, neither waits for a search nor is searched. -/
def State.restsAt (s : State) (i : Nat) : Prop := ∀ st, s.slotState i = some st → st.isQueued = false ∧ st.isRunning = false

theorem restsAt_of_slotState {s t : State} {i : Nat} (h : t.slotState i = s.slotState i) (hs : s.restsAt i) : t.restsAt i := by
  rwa [State.restsAt, h]

theorem not_running_of_restsAt {s : State} {i : Nat} (h : s.restsAt i) (j : Job) (ep : BitVec 16) :
    s.slotState i ≠ some (.running j ep) := fun hr => by
  obtain ⟨-, hn⟩ := h _ hr
  cases hn

theorem setSlotState_slotState_self (i : Nat) (st : SlotState) (s : State) :
    (setSlotState i st s).slotState i = (s.slotState i).map fun _ => st := by
  simp [slotState_eq, setSlotState, Function.comp_def]

theorem setSlotState_slotState_ne {i k : Nat} (h : i ≠ k) (st : SlotState) (s : State) :
    (setSlotState i st s).slotState k = s.slotState k := by
  rw [slotState_eq, setSlotState, List.getElem?_modify_ne _ _ h, slotState_eq]

theorem freeSlot_restsAt (i : Nat) (s : State) : (freeSlot i s).restsAt i := fun st h => by
  rw [slotState_eq, freeSlot, List.getElem?_modify_eq] at h
  simp only [Option.map_eq_map, Option.map_map, Option.map_eq_some_iff] at h
  obtain ⟨x, -, rfl⟩ := h
  exact ⟨rfl, rfl⟩

theorem setSlotState_restsAt {i : Nat} {st : SlotState} (s : State) (hq : st.isQueued = false) (hr : st.isRunning = false) :
    (setSlotState i st s).restsAt i := fun st' h => by
  rw [setSlotState_slotState_self, Option.map_eq_some_iff] at h
  obtain ⟨x, -, rfl⟩ := h
  exact ⟨hq, hr⟩

/-- The start of a slot leaves the records of the others. -/
theorem startHead_slotState_ne {i k : Nat} (h : i ≠ k) (job : Job) (s : State) : (startHead i job s).slotState k = s.slotState k := by
  unfold startHead
  split
  · exact setSlotState_slotState_ne h _ s
  · exact setSlotState_slotState_ne h _ s

/-- Only QUEUED slots start (R100). -/
theorem judgeStart_restsAt (n i : Nat) (s : State) (h : s.restsAt i) : (judgeStart n s).restsAt i := by
  induction n generalizing s with
  | zero => exact h
  | succ n ih =>
    unfold judgeStart
    split
    · exact h
    · split
      · exact h
      · next k rest _ =>
        dsimp only
        split
        · next job hk =>
          have hne : k ≠ i := by
            rintro rfl
            obtain ⟨hq, -⟩ := h _ hk
            cases hq
          exact ih _ (restsAt_of_slotState (startHead_slotState_ne hne job _) h)
        · exact ih _ h

theorem startQueued_restsAt (i : Nat) (s : State) (h : s.restsAt i) : (startQueued s).restsAt i := judgeStart_restsAt _ i s h

/-- The result watch neither queues nor starts a slot (R105, R110). -/
theorem watchSlot_rests (s : State) (i : Nat) (x : Slot) (h : x.state.isQueued = false ∧ x.state.isRunning = false) :
    (watchSlot s i x).state.isQueued = false ∧ (watchSlot s i x).state.isRunning = false := by
  unfold watchSlot
  split
  · split
    · exact ⟨rfl, rfl⟩
    · exact ⟨rfl, rfl⟩
  · exact h

theorem resultWatch_restsAt (i : Nat) (s : State) (h : s.restsAt i) : (resultWatch s).restsAt i := fun st hst => by
  have hmap : (resultWatch s).slots = s.slots.zipIdx.map fun y => watchSlot s y.2 y.1 := by simp [resultWatch]
  rw [slotState_eq, hmap, List.getElem?_map, List.getElem?_zipIdx] at hst
  simp only [Option.map_map, Option.map_eq_some_iff] at hst
  obtain ⟨x, hx, rfl⟩ := hst
  exact watchSlot_rests s _ x (h _ (by rw [slotState_eq, hx]; rfl))

theorem transfer_restsAt (i : Nat) (s : State) (h : s.restsAt i) : (transfer s).restsAt i := resultWatch_restsAt i _ h

theorem leftRunning_restsAt (i : Nat) (s : State) (h : s.restsAt i) : (leftRunning s).restsAt i := by
  unfold leftRunning
  split
  · exact startQueued_restsAt i _ (transfer_restsAt i s h)
  · exact startQueued_restsAt i s h

theorem complete_restsAt (i : Nat) {st : SlotState} (s : State) (hq : st.isQueued = false) (hr : st.isRunning = false) :
    (complete i st s).restsAt i :=
  leftRunning_restsAt i _ (setSlotState_restsAt _ hq hr)

/-! ### The rows at which the view may change (R86 to R89, R94) -/

/-- One settlement leaves the view, or its slot (R134, R140, R141). -/
theorem settleSlot_stands (i : Nat) (job : Job) (epoch : BitVec 16) (s : State) :
    (settleSlot i job epoch s).tdb.view = s.tdb.view ∨ (settleSlot i job epoch s).restsAt i := by
  unfold settleSlot
  split
  · exact .inr (complete_restsAt i _ rfl rfl)
  · dsimp only
    split
    · exact .inr (complete_restsAt i _ rfl rfl)
    · split
      · exact .inr (complete_restsAt i _ rfl rfl)
      · exact .inl rfl

section
variable {s : State} {i : Nat} {j : Job} {ep : BitVec 16}

/-- A settlement is one of the slot that runs (R123). -/
theorem settle_stands (hl : s.slotLaw) (hi : s.slotState i = some (.running j ep)) :
    (settle s).tdb.view = s.tdb.view ∨ (settle s).restsAt i := by
  obtain ⟨-, -, -, -, hsearch⟩ := hl
  simp only [settle, (hsearch i).2 ⟨j, ep, hi⟩, hi]
  exact settleSlot_stands i j ep s

/-- A CANCEL that transfers frees the slot that runs (R102). -/
theorem cancel_stands (p : List Byte) (hl : s.slotLaw) (hi : s.slotState i = some (.running j ep)) :
    (cancel p s).tdb.view = s.tdb.view ∨ (cancel p s).restsAt i := by
  unfold cancel
  dsimp only
  split
  · exact .inl rfl
  · exact .inl rfl
  · next hk =>
    rw [running_unique hl hk hi]
    exact .inr (leftRunning_restsAt i _ (freeSlot_restsAt i _))
  · exact .inl rfl

end

theorem replicate_restsAt {t : State} (h : t.slots = List.replicate Config.slots Slot.deviceReset) (i : Nat) : t.restsAt i := fun st hst => by
  rw [slotState_eq, h, List.getElem?_replicate, Option.map_eq_some_iff] at hst
  obtain ⟨x, hx, rfl⟩ := hst
  split at hx
  · cases hx
    exact ⟨rfl, rfl⟩
  · cases hx

/-- A RESTART that is not refused frees every slot (R169). -/
theorem restart_stands (p : List Byte) (s : State) (i : Nat) : (restart p s).tdb.view = s.tdb.view ∨ (restart p s).restsAt i := by
  unfold restart
  split
  · exact .inl rfl
  · split
    · exact .inl rfl
    · refine .inr (replicate_restsAt ?_ i)
      dsimp only
      split <;> simp [restartBlocks]

/-- The passage from `s` to `t` leaves the active view, or the slot `i` is not searched after it. -/
def ViewOrRests (i : Nat) (s t : State) : Prop := t.tdb.view = s.tdb.view ∨ t.restsAt i

theorem live_viewOrRests {i : Nat} {s : State} {f : State → State} (h : ViewOrRests i s (f s)) : ViewOrRests i s (live f s) := by
  unfold live
  split
  · exact .inl rfl
  · exact h

theorem takeCommand_viewOrRests {i : Nat} {s : State} {k : Byte} {agrees : List Byte → Bool} {rest : List Byte}
    {act : List Byte → State → State} (h : ∀ p n, ViewOrRests i s (act p (clockZeros n s))) :
    ViewOrRests i s (takeCommand k agrees rest act s) := by
  unfold takeCommand endTransaction
  dsimp only
  split
  · exact .inl rfl
  · split
    · exact .inl rfl
    · split
      · exact .inl rfl
      · split
        · exact h _ _
        · exact .inl rfl

/-- No row changes the view under a search that goes on (R89). -/
theorem exec_viewOrRests {c : Instr} {s t : State} {i : Nat} {j : Job} {ep : BitVec 16} (hl : s.slotLaw) (h : exec c s = .next t)
    (hi : s.slotState i = some (.running j ep)) : ViewOrRests i s t := by
  have hrun : s.anyRunning = true := anyRunning_of_slotState hi
  by_cases hm : rowMovesView c = false
  · exact .inl ((exec_stands c s t h).view hm)
  · unfold rowMovesView at hm
    split at hm
    · cases h
      exact live_viewOrRests (.inl (epochExpired_waits hrun).view)
    · cases h
      exact takeCommand_viewOrRests fun p n => .inl (forceEpoch_waits (s := clockZeros n s) p hrun).view
    · cases h
      exact live_viewOrRests (settle_stands hl hi)
    · cases h
      exact takeCommand_viewOrRests fun p n => cancel_stands (s := clockZeros n s) p hl hi
    · cases h
      exact live_viewOrRests (.inl (endTransfer_waits hrun).view)
    · cases h
      exact .inr (replicate_restsAt rfl i)
    · cases h
      exact takeCommand_viewOrRests fun p n => restart_stands p (clockZeros n s) i
    · exact absurd rfl hm

/-- Only the word of the write in progress changes (R180). -/
theorem exec_store {c : Instr} {s t : State} (h : exec c s = .next t) (k : Nat) (hk : t.psr.store[k]? ≠ s.psr.store[k]?) :
    ∃ w, s.psr.busy = some w ∧ w.word = k := by
  by_cases hc : c = .storeBusyExpiry
  · subst hc
    cases h
    unfold live at hk
    split at hk
    · exact absurd rfl hk
    · exact endStoreWrite_store s k hk
  · exact absurd (by rw [(exec_stands c s t h).store hc]) hk

/-- Settles O60: what every row leaves, and what no row does under a search that goes on. -/
theorem storeAndActiveViewStandStill : Obligations.StoreAndActiveViewStandStill := by
  refine ⟨fun c s t h => ⟨(exec_stands c s t h).store, exec_store h⟩, fun c s t h he hf hs hc ht hd hr => ?_,
    fun c s t i j ep _ hl h hi ht => ?_⟩
  · refine (sameView_iff s t).2 ((exec_stands c s t h).view ?_)
    unfold rowMovesView
    split
    · exact absurd rfl he
    · exact absurd rfl (hf _)
    · exact absurd rfl hs
    · exact absurd rfl (hc _)
    · exact absurd rfl ht
    · exact absurd rfl hd
    · exact absurd rfl (hr _)
    · rfl
  · exact (sameView_iff s t).2 ((exec_viewOrRests hl h hi).resolve_right fun hrest => not_running_of_restsAt hrest j ep ht)

end Sys2Proof.Machine
end

section
/-! # The path search: the label table and the paths it holds -/

namespace Sys2Proof.Machine

/-! ## Predecessor chains (R130) -/

/-- The chain `c` of the label `e` leads back over SETTLED labels to a label without predecessor. -/
inductive LeadsBack (table : List Reached) : Reached → List Reached → Prop
  | source {e : Reached} : e.label.pred = none → LeadsBack table e [e]
  | step {e e' : Reached} {q : Pred} {c : List Reached} : e.label.pred = some q →
      settledAt table { station := q.station, channel := q.channel } = some e' → LeadsBack table e' c → LeadsBack table e (e :: c)

theorem settledAt_state {table : List Reached} {st : SearchState} {e : Reached} (h : settledAt table st = some e) : e.state = st := by
  have hb : (e.state == st) = true := List.find?_some (p := fun y : Reached => y.state == st) h
  exact eq_of_beq hb

theorem settledAt_cons_self (e : Reached) (table : List Reached) : settledAt (e :: table) e.state = some e := by simp [settledAt]

theorem settledAt_cons_ne {e : Reached} {st : SearchState} (h : e.state ≠ st) (table : List Reached) :
    settledAt (e :: table) st = settledAt table st := by simp [settledAt, h]

/-- A label settled over a new state hides none of the others. -/
theorem settledAt_cons {table : List Reached} {e x : Reached} {st : SearchState} (hnew : settledAt table e.state = none)
    (h : settledAt table st = some x) : settledAt (e :: table) st = some x := by
  rw [settledAt_cons_ne _ table, h]
  rintro rfl
  rw [hnew] at h
  cases h

namespace LeadsBack

variable {table : List Reached} {e x : Reached} {c : List Reached}

theorem cons (hnew : settledAt table e.state = none) (h : LeadsBack table x c) : LeadsBack (e :: table) x c := by
  induction h with
  | source hp => exact .source hp
  | step hp hs _ ih => exact .step hp (settledAt_cons hnew hs) ih

/-- With fuel enough the model's chain is the chain that leads back. -/
theorem chain_eq (h : LeadsBack table x c) {n : Nat} (hn : c.length ≤ n + 1) : chain table n x = c := by
  induction h generalizing n with
  | source hp => cases n <;> simp [chain, hp]
  | @step e e' q c hp hs hc ih =>
    cases n with
    | zero => cases hc <;> simp at hn
    | succ n =>
      have hn : c.length ≤ n + 1 := Nat.le_of_succ_le_succ hn
      simp only [chain, hp, hs, ih hn]

theorem unique {d : List Reached} (h : LeadsBack table x c) (k : LeadsBack table x d) : c = d := by
  induction h generalizing d with
  | source hp =>
    cases k with
    | source => rfl
    | step hq => cases hp.symm.trans hq
  | step hp hs _ ih =>
    cases k with
    | source hq => cases hp.symm.trans hq
    | step hq ht hd =>
      cases hp.symm.trans hq
      cases hs.symm.trans ht
      rw [ih hd]

theorem head (h : LeadsBack table x c) : ∃ rest, c = x :: rest := by
  cases h with
  | source => exact ⟨[], rfl⟩
  | step => exact ⟨_, rfl⟩

end LeadsBack

/-! ## Lawful labels (R124, R130, R135, R138) -/

section
variable {req : Request} {table : List Reached} {e x : Reached}

/-- A lawful label has its chain, where the settled labels have theirs. -/
theorem leadsBack_of_labelLaw (hs : ∀ st y, settledAt table st = some y → ∃ c, LeadsBack table y c ∧ c.length ≤ table.length)
    (h : labelLaw req table x) : ∃ c, LeadsBack table x c ∧ c.length ≤ table.length + 1 := by
  unfold labelLaw at h
  split at h
  · next hp => exact ⟨[x], .source hp, Nat.le_add_left 1 _⟩
  · next q hp =>
    obtain ⟨y, hy, -⟩ := h
    obtain ⟨c, hc, hl⟩ := hs _ y hy
    exact ⟨x :: c, .step hp hy hc, Nat.succ_le_succ hl⟩

/-- Every settled label has its chain, no longer than the table. -/
theorem settled_leadsBack (h : settledLaw req table) (st : SearchState) (y : Reached) (hy : settledAt table st = some y) :
    ∃ c, LeadsBack table y c ∧ c.length ≤ table.length := by
  induction table generalizing st y with
  | nil => cases hy
  | cons e table ih =>
    obtain ⟨htable, hnew, -, hlabel⟩ := h
    by_cases hst : e.state = st
    · subst hst
      obtain rfl : e = y := Option.some.inj ((settledAt_cons_self e table).symm.trans hy)
      obtain ⟨c, hc, hl⟩ := leadsBack_of_labelLaw (ih htable) hlabel
      exact ⟨c, hc.cons hnew, hl⟩
    · rw [settledAt_cons_ne hst] at hy
      obtain ⟨c, hc, hl⟩ := ih htable st y hy
      exact ⟨c, hc.cons hnew, Nat.le_succ_of_le hl⟩

theorem chain_settled (h : settledLaw req table) {st : SearchState} (hx : settledAt table st = some x) :
    LeadsBack table x (chain table table.length x) := by
  obtain ⟨c, hc, hl⟩ := settled_leadsBack h st x hx
  rwa [hc.chain_eq (Nat.le_succ_of_le hl)]

/-- A label settled over a new state leaves the chains of the others. -/
theorem chain_cons (h : settledLaw req table) (hnew : settledAt table e.state = none) {st : SearchState}
    (hx : settledAt table st = some x) : chain (e :: table) (e :: table).length x = chain table table.length x := by
  obtain ⟨c, hc, hl⟩ := settled_leadsBack h st x hx
  have hl : c.length ≤ table.length + 1 := Nat.le_succ_of_le hl
  rw [hc.chain_eq hl, (hc.cons hnew).chain_eq (n := (e :: table).length) (Nat.le_succ_of_le hl)]

/-- A lawful label stays lawful when another state is settled. -/
theorem labelLaw_cons (h : settledLaw req table) (hnew : settledAt table e.state = none) (hx : labelLaw req table x) :
    labelLaw req (e :: table) x := by
  unfold labelLaw at hx ⊢
  split at hx
  · exact hx
  · next q _ =>
    obtain ⟨y, hy, hlaw⟩ := hx
    refine ⟨y, settledAt_cons hnew hy, ?_⟩
    rwa [chain_cons h hnew hy]

/-- A settled label is lawful over the whole table, and not at the destination. -/
theorem settled_lawful (h : settledLaw req table) {st : SearchState} {y : Reached} (hy : settledAt table st = some y) :
    labelLaw req table y ∧ y.state.station ≠ req.destination := by
  induction table with
  | nil => cases hy
  | cons e table ih =>
    obtain ⟨htable, hnew, hdst, hlabel⟩ := h
    by_cases hst : e.state = st
    · subst hst
      obtain rfl : e = y := Option.some.inj ((settledAt_cons_self e table).symm.trans hy)
      exact ⟨labelLaw_cons htable hnew hlabel, hdst⟩
    · rw [settledAt_cons_ne hst] at hy
      obtain ⟨hlaw, hne⟩ := ih htable hy
      exact ⟨labelLaw_cons htable hnew hlaw, hne⟩

end

/-! ## The hops of a chain (R120, R141) -/

/-- What the chain `c` of a lawful label `x` spells: hops from the source to its station that visit the stations of the chain, each once,
with a flag on each hop that leaves a regeneration label. -/
structure SpellsPath (req : Request) (x : Reached) (c : List Reached) : Prop where
  leads : hopsLead req.source (hopsBack c).reverse x.state.station
  visits : ∀ v, v ∈ req.source :: (hopsBack c).map Hop.dst ↔ v ∈ c.map fun y => y.state.station
  apart : (req.source :: (hopsBack c).map Hop.dst).Nodup
  fields : ∀ h ∈ hopsBack c, h.degree < 8 ∧ h.channel < 64
  count : (hopsBack c).length = x.label.hops
  within : x.label.hops ≤ 16
  first : ∀ h, (hopsBack c).getLast? = some h → h.regen = false
  unhopped : hopsBack c = [] → x.label.isRegen = false
  flags : ((hopsBack c).countP fun h => h.regen) + x.label.isRegen.toNat = x.label.regens
  ends : (regenEnds c).length = x.label.regens
  regens : x.label.regens ≤ 2

theorem hopsLead_append {a b : Nat} {l : List Hop} {h : Hop} (hl : hopsLead a l b) (hs : h.src = b) : hopsLead a (l ++ [h]) h.dst := by
  induction l generalizing a with
  | nil => exact ⟨hs.trans hl.symm, rfl⟩
  | cons g l ih =>
    obtain ⟨hg, hl⟩ := hl
    exact ⟨hg, ih hl⟩

section
variable {req : Request} {x y : Reached} {c : List Reached}

theorem isRegen_of_pred {q : Pred} (h : x.label.pred = some q) : x.label.isRegen = q.degree.isNone := by simp [Label.isRegen, h]

/-- A chain longer by an extension has one hop more. -/
theorem hopsBack_extension {v k d : Nat} (hp : x.label.pred = some { station := v, channel := k, degree := some d }) (rest : List Reached) :
    hopsBack (x :: y :: rest) = { src := v, degree := d, dst := x.state.station, channel := x.state.channel, regen := y.label.isRegen }
      :: hopsBack (y :: rest) := by
  simp [hopsBack, hp, fromRegen]

theorem hopsBack_regeneration {v k : Nat} (hp : x.label.pred = some { station := v, channel := k, degree := none }) :
    hopsBack (x :: c) = hopsBack c := by simp only [hopsBack, hp]

theorem spellsPath_source (hp : x.label.pred = none) (hst : x.state = { station := req.source, channel := 64 }) (hh : x.label.hops = 0)
    (hr : x.label.regens = 0) : SpellsPath req x [x] := by
  have hb : hopsBack [x] = [] := by simp [hopsBack, hp]
  have hn : x.label.isRegen = false := by simp [Label.isRegen, hp]
  constructor <;> simp [hb, hn, hst, hh, hr, hopsLead, regenEnds]

/-- An extension to a station that its chain does not visit. -/
theorem SpellsPath.extension {k d : Nat} {rest : List Reached} (h : SpellsPath req y (y :: rest))
    (hp : x.label.pred = some { station := y.state.station, channel := k, degree := some d }) (hd : d < 8) (hk : x.state.channel < 64)
    (hh : x.label.hops = y.label.hops + 1) (hw : x.label.hops ≤ 16) (hr : x.label.regens = y.label.regens)
    (hnew : ∀ z ∈ y :: rest, z.state.station ≠ x.state.station) : SpellsPath req x (x :: y :: rest) := by
  have hb := hopsBack_extension (y := y) hp rest
  have hn : x.label.isRegen = false := isRegen_of_pred hp
  have hout : x.state.station ∉ (y :: rest).map fun z => z.state.station := fun hm => by
    obtain ⟨z, hz, he⟩ := List.mem_map.1 hm
    exact hnew z hz he
  have hends : regenEnds (x :: y :: rest) = regenEnds (y :: rest) := by simp [regenEnds, hn]
  constructor
  case leads =>
    rw [hb, List.reverse_cons]
    exact hopsLead_append h.leads rfl
  case visits =>
    intro v
    have hv := h.visits v
    rw [hb]
    simp only [List.map_cons, List.mem_cons] at hv ⊢
    tauto
  case apart =>
    rw [hb, List.map_cons]
    refine (List.Perm.swap _ _ _).nodup_iff.2 (List.nodup_cons.2 ⟨fun hm => hout ((h.visits _).1 hm), h.apart⟩)
  case fields =>
    rw [hb]
    exact List.forall_mem_cons.2 ⟨⟨hd, hk⟩, h.fields⟩
  case count => rw [hb, List.length_cons, h.count, hh]
  case within => exact hw
  case first =>
    intro g hg
    rw [hb, List.getLast?_cons] at hg
    cases hl : (hopsBack (y :: rest)).getLast? with
    | none =>
      rw [hl] at hg
      cases hg
      exact h.unhopped (List.getLast?_eq_none_iff.1 hl)
    | some g' =>
      rw [hl] at hg
      cases hg
      exact h.first _ hl
  case unhopped => exact fun _ => hn
  case flags =>
    have hf := h.flags
    rw [hb, List.countP_cons, hn, hr]
    cases hy : y.label.isRegen <;> simp_all
  case ends => rw [hends, h.ends, hr]
  case regens => exact hr ▸ h.regens

/-- A regeneration away from the source (R138). -/
theorem SpellsPath.regeneration {k : Nat} {rest : List Reached} (h : SpellsPath req y (y :: rest)) (hy : y.label.isRegen = false)
    (hp : x.label.pred = some { station := y.state.station, channel := k, degree := none }) (hst : x.state.station = y.state.station)
    (hsrc : x.state.station ≠ req.source) (hh : x.label.hops = y.label.hops) (hr : x.label.regens = y.label.regens + 1)
    (hw : x.label.regens ≤ 2) : SpellsPath req x (x :: y :: rest) := by
  have hb : hopsBack (x :: y :: rest) = hopsBack (y :: rest) := hopsBack_regeneration hp
  have hn : x.label.isRegen = true := isRegen_of_pred hp
  have hends : regenEnds (x :: y :: rest) = y.label :: regenEnds (y :: rest) := by simp [regenEnds, hn]
  constructor
  case leads =>
    rw [hb, hst]
    exact h.leads
  case visits =>
    intro v
    have hv := h.visits v
    rw [hb]
    simp only [List.map_cons, List.mem_cons, hst] at hv ⊢
    tauto
  case apart => exact hb ▸ h.apart
  case fields => exact hb ▸ h.fields
  case count => rw [hb, h.count, hh]
  case within => exact hh ▸ h.within
  case first => exact hb ▸ h.first
  case unhopped =>
    intro he
    have hl := h.leads
    rw [← hb, he] at hl
    exact absurd (hst.trans hl.symm) hsrc
  case flags =>
    have hf := h.flags
    rw [hy] at hf
    rw [hb, hn, hr, ← hf]
    rfl
  case ends => rw [hends, List.length_cons, h.ends, hr]
  case regens => exact hw

/-- A regeneration label stands at ANY (R138), so the label it regenerates, on a channel, is not one. -/
theorem channel_of_isRegen {table : List Reached} (h : labelLaw req table x) (hr : x.label.isRegen = true) : x.state.channel = 64 := by
  unfold labelLaw at h
  split at h
  · next hp => simp [Label.isRegen, hp] at hr
  · next q hp =>
    obtain ⟨y, -, hlaw⟩ := h
    rw [isRegen_of_pred hp, Option.isNone_iff_eq_none] at hr
    rw [hr] at hlaw
    obtain ⟨hst, -⟩ := hlaw
    rw [hst]

end

/-- The chain of a lawful label spells a path to its station. -/
theorem spellsPath_of_leadsBack {req : Request} {table : List Reached} {x : Reached} {c : List Reached} (h : settledLaw req table)
    (hx : labelLaw req table x) (hc : LeadsBack table x c) : SpellsPath req x c := by
  induction hc with
  | @source x hp =>
    simp only [labelLaw, hp] at hx
    obtain ⟨hst, hh, hr⟩ := hx
    exact spellsPath_source hp hst hh hr
  | @step x y q c hp hy hc ih =>
    obtain ⟨hylaw, -⟩ := settled_lawful h hy
    have hpath := ih hylaw
    obtain ⟨rest, rfl⟩ := hc.head
    have hq : q = { station := y.state.station, channel := y.state.channel, degree := q.degree } := by rw [settledAt_state hy]
    simp only [labelLaw, hp] at hx
    obtain ⟨y', hy', hlaw⟩ := hx
    obtain rfl : y = y' := Option.some.inj (hy.symm.trans hy')
    cases hd : q.degree with
    | some d =>
      rw [hd] at hlaw hq
      obtain ⟨hd8, hk, hh, hw, hr, hnew⟩ := hlaw
      rw [(chain_settled h hy).unique hc] at hnew
      exact hpath.extension (hq ▸ hp) hd8 hk hh hw hr hnew
    | none =>
      rw [hd] at hlaw hq
      obtain ⟨hst, hk, hsrc, hh, hr, hw⟩ := hlaw
      have hy : y.label.isRegen = false := Bool.eq_false_iff.2 fun hr => hk (channel_of_isRegen hylaw hr)
      exact hpath.regeneration hy (hq ▸ hp) (by rw [hst]) hsrc hh hr hw

/-- No label regenerates at the destination, where none is settled. -/
theorem not_isRegen_at_destination {req : Request} {table : List Reached} {x : Reached} (h : settledLaw req table)
    (hx : labelLaw req table x) (hd : x.state.station = req.destination) : x.label.isRegen = false := by
  unfold labelLaw at hx
  split at hx
  · next hp => simp [Label.isRegen, hp]
  · next q hp =>
    obtain ⟨y, hy, hlaw⟩ := hx
    obtain ⟨-, hne⟩ := settled_lawful h hy
    rw [isRegen_of_pred hp]
    cases hdeg : q.degree with
    | some d => rfl
    | none =>
      rw [hdeg] at hlaw
      obtain ⟨hst, -⟩ := hlaw
      rw [hst] at hd
      exact absurd hd hne

/-- The path handed over at the destination is lawful (R95, R141, R142). -/
theorem pathOf_lawful {req : Request} {p : Pen} {e : Reached} (cls : ClassEntry) (rest : List Reached)
    (hne : req.source ≠ req.destination) (h : settledLaw req p.settled) (he : labelLaw req p.settled e)
    (hnew : settledAt p.settled e.state = none) (hd : e.state.station = req.destination) :
    (pathOf cls (p.settle e rest) e).lawful req := by
  obtain ⟨c, hc, hl⟩ := leadsBack_of_labelLaw (settled_leadsBack h) he
  have hchain : (p.settle e rest).chainOf e = c := (hc.cons hnew).chain_eq (Nat.le_succ_of_le hl)
  have hpath := spellsPath_of_leadsBack h he hc
  have hflags := hpath.flags
  rw [not_isRegen_at_destination h he hd] at hflags
  have hops : (pathOf cls (p.settle e rest) e).hops = (hopsBack c).reverse := by rw [pathOf, hchain]
  have hsome : hopsBack c ≠ [] := fun hb => by
    have hleads := hpath.leads
    rw [hb, hd] at hleads
    exact hne hleads
  refine ⟨?_, ?_, ?_, ?_, ?_, ?_, ?_, hpath.regens, ?_⟩
  all_goals try rw [hops]
  · rw [List.length_reverse]
    exact List.length_pos_iff.2 hsome
  · rw [List.length_reverse, hpath.count]
    exact hpath.within
  · exact hd ▸ hpath.leads
  · rw [List.map_reverse]
    exact ((List.reverse_perm _).cons _).nodup_iff.2 hpath.apart
  · exact fun g hg => hpath.fields g (List.mem_reverse.1 hg)
  · rw [List.head?_reverse]
    exact hpath.first
  · rw [List.countP_reverse]
    exact hflags
  · simp [pathOf, hchain, hpath.ends]

/-! ## The work of a settlement (R134 to R138) -/

section
variable {req : Request} {p : Pen} {e x : Reached}

/-- The states of a frontier after a placement. -/
theorem insert_states_perm (env : SearchEnv) (x : Reached) (l : List Reached) :
    ((env.insert x l).map fun y => y.state).Perm (x.state :: l.map fun y => y.state) := by
  induction l with
  | nil => exact .refl _
  | cons y l ih =>
    unfold SearchEnv.insert
    split
    · exact .refl _
    · exact (ih.cons y.state).trans (.swap _ _ _)

/-- A lawful label that enters a frontier which does not hold its state. -/
theorem Pen.searchLaw.placed {l : List Reached} {b : Bool} (h : p.searchLaw req) (env : SearchEnv) (hl : l.Sublist p.frontier)
    (hnew : settledAt p.settled x.state = none) (hx : labelLaw req p.settled x) (hout : ∀ y ∈ l, y.state ≠ x.state) :
    Pen.searchLaw { p with frontier := env.insert x l, pruned := b } req := by
  obtain ⟨hs, hf, hn⟩ := h
  refine ⟨hs, fun y hy => ?_, (insert_states_perm env x l).nodup_iff.2 (List.nodup_cons.2 ⟨fun hm => ?_, (hl.map _).nodup hn⟩)⟩
  · rcases (mem_insert env x y l).1 hy with rfl | hy
    · exact ⟨hnew, hx⟩
    · exact hf y (hl.subset hy)
  · obtain ⟨y, hy, he⟩ := List.mem_map.1 hm
    exact hout y hy he

theorem removeFirst_state_ne {l : List Reached} (hn : (l.map fun y => y.state).Nodup) (st : SearchState) :
    ∀ y ∈ removeFirst (fun z => z.state == st) l, y.state ≠ st := by
  induction l with
  | nil => exact fun y hy => by cases hy
  | cons z l ih =>
    obtain ⟨hz, hn⟩ := List.nodup_cons.1 hn
    intro y hy
    unfold removeFirst at hy
    split at hy
    · next hst =>
      rintro rfl
      exact hz (List.mem_map.2 ⟨y, hy, (eq_of_beq hst).symm⟩)
    · next hst =>
      rcases List.mem_cons.1 hy with rfl | hy
      · exact fun he => hst (beq_of_eq he)
      · exact ih hn y hy

/-- An offer keeps the label table lawful (R137, R139). -/
theorem offer_searchLaw (env : SearchEnv) (h : p.searchLaw req) (hx : labelLaw req p.settled x) : (env.offer x p).searchLaw req := by
  obtain ⟨-, -, hn⟩ := id h
  have absent : p.frontier.find? (fun y => y.state == x.state) = none → ∀ y ∈ p.frontier, y.state ≠ x.state := fun hf y hy he =>
    List.find?_eq_none.1 hf y hy (beq_of_eq he)
  unfold SearchEnv.offer
  split
  · exact h
  · next hns =>
    have hnew : settledAt p.settled x.state = none := Option.not_isSome_iff_eq_none.1 hns
    split
    · split
      · exact h.placed env (removeFirst_sublist _ _) hnew hx (removeFirst_state_ne hn x.state)
      · exact h
    · next hf =>
      split
      · exact h.placed env (List.Sublist.refl _) hnew hx (absent hf)
      · split
        · split
          · exact h.placed env (List.dropLast_sublist _) hnew hx fun y hy => absent hf y (List.mem_of_mem_dropLast hy)
          · exact h
        · exact h

theorem offer_settled (env : SearchEnv) (x : Reached) (p : Pen) : (env.offer x p).settled = p.settled := by
  unfold SearchEnv.offer
  (repeat' split) <;> rfl

theorem offer_searching (env : SearchEnv) (x : Reached) (p : Pen) : (env.offer x p).searching = p.searching := by
  unfold SearchEnv.offer
  (repeat' split) <;> rfl

/-- The work of a settlement goes on with the same slot (R134). -/
theorem work_searching (env : SearchEnv) (e : Reached) (p : Pen) : (env.work e p).searching = p.searching := by
  have extended : ∀ stations q way, (env.extendOver e stations q way).searching = q.searching := fun stations q way =>
    List.foldlRecOn (motive := fun u : Pen => u.searching = q.searching) _ _ rfl fun u hu k _ => by
      dsimp only
      split
      · exact hu
      · exact (offer_searching _ _ _).trans hu
  have worked : ∀ stations, ((env.leaving e.state.station).foldl (env.extendOver e stations) p).searching = p.searching := fun stations =>
    List.foldlRecOn (motive := fun u : Pen => u.searching = p.searching) _ _ rfl fun u hu way _ => (extended stations u way).trans hu
  unfold SearchEnv.work SearchEnv.offerRegen
  dsimp only
  split
  · exact (offer_searching _ _ _).trans (worked _)
  · exact worked _

/-- The search of `p` goes on in `q`: the same settled labels, a lawful label table. -/
structure Pen.GoesOn (req : Request) (p q : Pen) : Prop where
  lawful : q.searchLaw req
  settled : q.settled = p.settled

theorem Pen.GoesOn.offer {q : Pen} (h : p.GoesOn req q) (env : SearchEnv) (hx : labelLaw req p.settled x) :
    p.GoesOn req (env.offer x q) :=
  ⟨offer_searchLaw env h.lawful (h.settled ▸ hx), (offer_settled env x q).trans h.settled⟩

/-- A lawful label holds a channel, or ANY. -/
theorem channel_of_labelLaw {table : List Reached} (h : labelLaw req table x) (hk : x.state.channel ≠ 64) : x.state.channel < 64 := by
  unfold labelLaw at h
  split at h
  · obtain ⟨hst, -⟩ := h
    rw [hst] at hk
    exact absurd rfl hk
  · obtain ⟨y, -, hlaw⟩ := h
    split at hlaw
    · obtain ⟨-, hlt, -⟩ := hlaw
      exact hlt
    · obtain ⟨hst, -⟩ := hlaw
      rw [hst] at hk
      exact absurd rfl hk

theorem mem_tried {env : SearchEnv} {table : List Reached} {sp : Span} {k : Nat} (h : labelLaw req table e) (hk : k ∈ env.tried e sp) :
    k < 64 := by
  unfold SearchEnv.tried at hk
  split at hk
  · exact List.mem_range.1 (List.mem_of_mem_filter hk)
  · next hany =>
    split at hk
    · obtain rfl := List.mem_singleton.1 hk
      exact channel_of_labelLaw h hany
    · cases hk

theorem mem_leaving {env : SearchEnv} {v : Nat} {way : Nat × End × Span} (h : way ∈ env.leaving v) : way.1 < 8 := by
  obtain ⟨d, hd, hway⟩ := List.mem_filterMap.1 h
  split at hway
  · split at hway
    · cases hway
    · cases hway
      exact List.mem_range.1 hd
  · cases hway

/-- An extension that R136 does not refuse is lawful. -/
theorem extend_labelLaw {env : SearchEnv} {table : List Reached} {w d k : Nat} {sp : Span} (hs : settledAt table e.state = some e)
    (hd : d < 8) (hk : k < 64)
    (hr : ¬ env.refuses ((chain table table.length e).map fun y => y.state.station) w (env.extend e d sp k) = true) :
    labelLaw req table { state := { station := w, channel := k }, label := env.extend e d sp k } := by
  simp only [SearchEnv.refuses, Bool.or_eq_true, List.contains_iff_mem, List.mem_map, decide_eq_true_eq, not_or, not_exists,
    not_and] at hr
  obtain ⟨⟨⟨⟨⟨hout, -⟩, hhops⟩, -⟩, -⟩, -⟩ := hr
  exact ⟨e, hs, hd, hk, rfl, Nat.le_of_not_lt hhops, rfl, hout⟩

/-- The regeneration that R138 allows is lawful. -/
theorem regenerate_labelLaw {env : SearchEnv} {table : List Reached} (hs : settledAt table e.state = some e)
    (hm : env.mayRegenerate e = true) :
    labelLaw env.req table { state := { station := e.state.station, channel := 64 }, label := env.regenerate e } := by
  simp only [SearchEnv.mayRegenerate, Bool.and_eq_true, decide_eq_true_eq] at hm
  obtain ⟨⟨⟨⟨⟨hany, hsrc⟩, -⟩, -⟩, -⟩, hregens⟩ := hm
  exact ⟨e, hs, rfl, hany, hsrc, rfl, rfl, hregens⟩

/-- The extensions over one span keep the label table lawful. -/
theorem extendOver_goesOn (env : SearchEnv) {q : Pen} {way : Nat × End × Span} (hq : p.GoesOn req q)
    (hs : settledAt p.settled e.state = some e) (he : labelLaw req p.settled e) (hd : way.1 < 8) :
    p.GoesOn req (env.extendOver e ((p.chainOf e).map fun y => y.state.station) q way) := by
  refine List.foldlRecOn (motive := fun q : Pen => p.GoesOn req q) _ _ hq fun q hq k hk => ?_
  dsimp only
  split
  · exact hq
  · next hr => exact hq.offer env (extend_labelLaw hs hd (mem_tried he hk) hr)

/-- The work of a settlement keeps the label table lawful. -/
theorem work_goesOn (env : SearchEnv) (h : p.searchLaw env.req) (hs : settledAt p.settled e.state = some e)
    (he : labelLaw env.req p.settled e) : p.GoesOn env.req (env.work e p) := by
  have extended : p.GoesOn env.req
      ((env.leaving e.state.station).foldl (env.extendOver e ((p.chainOf e).map fun y => y.state.station)) p) :=
    List.foldlRecOn (motive := fun q : Pen => p.GoesOn env.req q) _ _ ⟨h, rfl⟩ fun q hq way hway =>
      extendOver_goesOn env hq hs he (mem_leaving hway)
  unfold SearchEnv.work SearchEnv.offerRegen
  dsimp only
  split
  · next hm => exact extended.offer env (regenerate_labelLaw hs hm)
  · exact extended

/-- The best entry of the frontier is settled away from the destination (R134). -/
theorem settle_searchLaw {rest : List Reached} (h : p.searchLaw req) (hf : p.frontier = e :: rest)
    (hd : e.state.station ≠ req.destination) : (p.settle e rest).searchLaw req := by
  obtain ⟨hs, hfront, hn⟩ := h
  rw [hf] at hfront hn
  obtain ⟨hout, hn⟩ := List.nodup_cons.1 hn
  obtain ⟨hnew, he⟩ := hfront e List.mem_cons_self
  refine ⟨⟨hs, hnew, hd, he⟩, fun x hx => ?_, hn⟩
  obtain ⟨hxnew, hxlaw⟩ := hfront x (List.mem_cons_of_mem e hx)
  have hne : e.state ≠ x.state := fun heq => hout (List.mem_map.2 ⟨x, hx, heq.symm⟩)
  exact ⟨(settledAt_cons_ne hne _).trans hxnew, labelLaw_cons hs hnew hxlaw⟩

/-- One settlement that goes on (R134). -/
theorem settle_work_searchLaw {env : SearchEnv} {rest : List Reached} (h : p.searchLaw env.req) (hf : p.frontier = e :: rest)
    (hd : e.state.station ≠ env.req.destination) : (env.work e (p.settle e rest)).searchLaw env.req := by
  obtain ⟨hs, hfront, -⟩ := id h
  rw [hf] at hfront
  obtain ⟨hnew, he⟩ := hfront e List.mem_cons_self
  exact (work_goesOn env (settle_searchLaw h hf hd) (settledAt_cons_self e _) (labelLaw_cons hs hnew he)).lawful

/-- One settlement that reaches the destination (R141). -/
theorem settle_pathOf_lawful {rest : List Reached} (cls : ClassEntry) (h : p.searchLaw req) (hf : p.frontier = e :: rest)
    (hne : req.source ≠ req.destination) (hd : e.state.station = req.destination) : (pathOf cls (p.settle e rest) e).lawful req := by
  obtain ⟨hs, hfront, -⟩ := h
  rw [hf] at hfront
  obtain ⟨hnew, he⟩ := hfront e List.mem_cons_self
  exact pathOf_lawful cls rest hne hs he hnew hd

/-- A search as it is prepared (R124): nothing settled, the source label alone in the frontier. -/
theorem prepared_searchLaw (slot : Nat) (diverse : List End) (ownPairs : List Pair) :
    (Pen.prepared slot req.source diverse ownPairs).searchLaw req :=
  ⟨trivial, fun x hx => by
    obtain rfl := List.mem_singleton.1 hx
    exact ⟨rfl, rfl, rfl, rfl⟩, List.nodup_singleton _⟩

end

end Sys2Proof.Machine
end

section
/-! # Path slots: the laws of slots, paths and intents, and what lets intents fade -/

namespace Sys2Proof.Machine

/-! ## The slot law, by what it reads of a record (R97, R99, R123) -/

/-- The tag the slot `i` holds (R97). -/
def State.tagAt (s : State) (i : Nat) : Option Nat := (s.slotState i).bind SlotState.tag

/-- The slot `i` is QUEUED. -/
def State.queuedAt (s : State) (i : Nat) : Bool := (s.slotState i).any SlotState.isQueued

/-- The slot `i` is RUNNING. -/
def State.runningAt (s : State) (i : Nat) : Bool := (s.slotState i).any SlotState.isRunning

theorem isQueued_iff (st : SlotState) : st.isQueued = true ↔ ∃ job, st = .queued job := by cases st <;> simp [SlotState.isQueued]

theorem isRunning_iff (st : SlotState) : st.isRunning = true ↔ ∃ job epoch, st = .running job epoch := by
  cases st <;> simp [SlotState.isRunning]

theorem queuedAt_iff (s : State) (i : Nat) : s.queuedAt i = true ↔ ∃ job, s.slotState i = some (.queued job) := by
  simp only [State.queuedAt, Option.any_eq_true, isQueued_iff]
  exact ⟨fun ⟨_, h, job, hj⟩ => ⟨job, hj ▸ h⟩, fun ⟨job, h⟩ => ⟨_, h, job, rfl⟩⟩

theorem runningAt_iff (s : State) (i : Nat) : s.runningAt i = true ↔ ∃ job epoch, s.slotState i = some (.running job epoch) := by
  simp only [State.runningAt, Option.any_eq_true, isRunning_iff]
  exact ⟨fun ⟨_, h, job, epoch, hj⟩ => ⟨job, epoch, hj ▸ h⟩, fun ⟨job, epoch, h⟩ => ⟨_, h, job, epoch, rfl⟩⟩

theorem slotLaw_iff (s : State) : s.slotLaw ↔ (∀ i k tag, s.tagAt i = some tag → s.tagAt k = some tag → i = k) ∧ s.reqQueue.Nodup
    ∧ (∀ i, i ∈ s.reqQueue ↔ s.queuedAt i = true) ∧ s.reqQueue.length ≤ 4 ∧ ∀ i, s.pen.searching = some i ↔ s.runningAt i = true := by
  simp only [State.slotLaw, queuedAt_iff, runningAt_iff, State.tagAt, Option.bind_eq_some_iff]
  refine and_congr_left fun _ => ⟨fun h i k tag ⟨a, ha, hta⟩ ⟨b, hb, htb⟩ => h i k a b tag ha hb hta htb,
    fun h i k a b tag ha hb hta htb => h i k tag ⟨a, ha, hta⟩ ⟨b, hb, htb⟩⟩

theorem slotLaw_congr {s t : State} (ht : ∀ i, t.tagAt i = s.tagAt i) (hq : ∀ i, t.queuedAt i = s.queuedAt i)
    (hr : ∀ i, t.runningAt i = s.runningAt i) (hqueue : t.reqQueue = s.reqQueue) (hpen : t.pen.searching = s.pen.searching)
    (h : s.slotLaw) : t.slotLaw := by
  rw [slotLaw_iff] at h ⊢
  simpa only [ht, hq, hr, hqueue, hpen] using h

theorem runningAt_of_idle {s : State} (h : s.anyRunning = false) (i : Nat) : s.runningAt i = false := by
  refine Bool.eq_false_iff.2 fun hr => ?_
  obtain ⟨job, epoch, hi⟩ := (runningAt_iff s i).1 hr
  rw [anyRunning_of_slotState hi] at h
  cases h

theorem slot_of_slotState {s : State} {i : Nat} {st : SlotState} (h : s.slotState i = some st) : ∃ x, s.slot i = some x ∧ x.state = st := by
  rwa [slotState_eq, Option.map_eq_some_iff] at h

theorem slotState_of_slot {s : State} {i : Nat} {x : Slot} (h : s.slot i = some x) : s.slotState i = some x.state := by
  rw [slotState_eq, show s.slots[i]? = some x from h]
  rfl

theorem slotState_congr {s t : State} (h : t.slots.map Slot.state = s.slots.map Slot.state) (i : Nat) : t.slotState i = s.slotState i := by
  rw [slotState_eq, slotState_eq, ← List.getElem?_map, h, List.getElem?_map]

/-! ## The path law, record by record (R95) -/

/-- What the path law asks of the record of a slot: a lawful path in FOUND and INVALID, and of a request that waits or is searched that its
source is not its destination. -/
def SlotState.PathLaw : SlotState → Prop
  | .queued job => job.request.source ≠ job.request.destination
  | .running job _ => job.request.source ≠ job.request.destination
  | .found job _ r => r.lawful job.request
  | .invalid job _ r _ => r.lawful job.request
  | _ => True

/-- The search of a RUNNING slot has a lawful label table. -/
def State.searchesLawfully (s : State) : Prop :=
  ∀ i job epoch, s.pen.searching = some i → s.slotState i = some (.running job epoch) → s.pen.searchLaw job.request

theorem pathLaw_iff (s : State) : s.pathLaw ↔ (∀ i st, s.slotState i = some st → st.PathLaw) ∧ s.searchesLawfully := by
  constructor
  · rintro ⟨hres, hsearch, hreq⟩
    refine ⟨fun i st h => ?_, hsearch⟩
    cases st with
    | free => trivial
    | queued job => exact hreq i job (.inl h)
    | running job epoch => exact hreq i job (.inr ⟨epoch, h⟩)
    | found job epoch r => exact hres i job epoch r (.inl h)
    | invalid job epoch r why => exact hres i job epoch r (.inr ⟨why, h⟩)
    | failed => trivial
  · rintro ⟨hst, hsearch⟩
    refine ⟨fun i job epoch r h => ?_, hsearch, fun i job h => ?_⟩
    · rcases h with h | ⟨why, h⟩
      · exact hst i _ h
      · exact hst i _ h
    · rcases h with h | ⟨epoch, h⟩
      · exact hst i _ h
      · exact hst i _ h

/-! ## The intent law (R145, R147) -/

/-- The slot `x` becomes `y` with no intent that it did not have, none that loses its path, and none that stands anew. -/
structure Slot.Fades (x y : Slot) : Prop where
  held : y.intent ≠ .none → x.intent ≠ .none ∧ (x.state.hops.isSome = true → y.state.hops.isSome = true)
  stands : y.intent.stands = true → x.intent.stands = true ∧ y.intent.pairs = x.intent.pairs

theorem Slot.Fades.refl (x : Slot) : x.Fades x := ⟨fun h => ⟨h, id⟩, fun h => ⟨h, rfl⟩⟩

theorem Slot.Fades.trans {x y z : Slot} (h : x.Fades y) (k : y.Fades z) : x.Fades z where
  held := fun hz =>
    have ⟨hy, hyz⟩ := k.held hz
    have ⟨hx, hxy⟩ := h.held hy
    ⟨hx, hyz ∘ hxy⟩
  stands := fun hz =>
    have ⟨hy, hyz⟩ := k.stands hz
    have ⟨hx, hxy⟩ := h.stands hy
    ⟨hx, hyz.trans hxy⟩

/-- A slot without an intent. -/
theorem Slot.Fades.of_none {x y : Slot} (h : y.intent = .none) : x.Fades y := ⟨fun hn => absurd h hn, fun hs => by rw [h] at hs; cases hs⟩

/-- A new record for a slot that holds no path, so no intent either. -/
theorem Slot.Fades.of_pathless {x y : Slot} (h : y.intent = x.intent) (hx : x.state.hops = none) : x.Fades y :=
  ⟨fun hn => ⟨h ▸ hn, fun hs => by rw [hx] at hs; cases hs⟩, fun hs => ⟨h ▸ hs, by rw [h]⟩⟩

theorem forall₂_fades_refl (l : List Slot) : List.Forall₂ Slot.Fades l l := List.forall₂_same.2 fun x _ => .refl x

theorem forall₂_fades_trans {a b c : List Slot} (h : List.Forall₂ Slot.Fades a b) (k : List.Forall₂ Slot.Fades b c) :
    List.Forall₂ Slot.Fades a c := by
  induction h generalizing c with
  | nil => exact k
  | cons hx _ ih =>
    cases k with
    | cons hy k => exact .cons (hx.trans hy) (ih k)

theorem forall₂_fades_set {l : List Slot} {i : Nat} {x y : Slot} (hx : l[i]? = some x) (h : x.Fades y) :
    List.Forall₂ Slot.Fades l (l.set i y) := by
  induction l generalizing i with
  | nil => cases hx
  | cons z l ih =>
    cases i with
    | zero =>
      cases hx
      exact .cons h (forall₂_fades_refl l)
    | succ i => exact .cons (.refl z) (ih hx)

theorem forall₂_fades_get {a b : List Slot} (h : List.Forall₂ Slot.Fades a b) {i : Nat} {y : Slot} (hy : b[i]? = some y) :
    ∃ x, a[i]? = some x ∧ x.Fades y := by
  induction h generalizing i with
  | nil => cases hy
  | cons hx _ ih =>
    cases i with
    | zero =>
      cases hy
      exact ⟨_, rfl, hx⟩
    | succ i => exact ih hy

/-- The intent law where slots fade, in MEMBER or with no intent left standing. -/
theorem intentLaw_of_fades {s t : State} (h : List.Forall₂ Slot.Fades s.slots t.slots)
    (hm : s.slots.length = 8 → s.dir.station = .member → t.dir.station = .member ∨ ∀ i x, ¬ t.standsIn i x) (law : s.intentLaw) :
    t.intentLaw := by
  obtain ⟨hl, hhops, hmember, hpairs⟩ := law
  have back : ∀ {i y}, t.standsIn i y → ∃ x, s.standsIn i x ∧ y.intent.pairs = x.intent.pairs := fun ⟨hy, hst⟩ =>
    have ⟨x, hx, hf⟩ := forall₂_fades_get h hy
    have ⟨hxst, hps⟩ := hf.stands hst
    ⟨x, ⟨hx, hxst⟩, hps⟩
  refine ⟨h.length_eq.symm.trans hl, fun i y hy hn => ?_, fun i y hst => ?_, fun i k y z hne hy hz p hp hq => ?_⟩
  · obtain ⟨x, hx, hf⟩ := forall₂_fades_get h hy
    obtain ⟨hxn, hkeep⟩ := hf.held hn
    exact hkeep (hhops i x hx hxn)
  · obtain ⟨x, hx, -⟩ := back hst
    exact (hm hl (hmember i x hx)).resolve_right fun hno => hno i y hst
  · obtain ⟨x, hx, hpx⟩ := back hy
    obtain ⟨w, hw, hpw⟩ := back hz
    exact hpairs i k x w hne hx hw p (hpx ▸ hp) (hpw ▸ hq)

/-! ## Keeping the three laws -/

/-- The passage from `s` to `t` keeps the laws of slots, paths and intents. -/
structure KeepsRecords (s t : State) : Prop where
  slots : s.slotLaw → t.slotLaw
  paths : s.pathLaw → t.pathLaw
  intents : s.intentLaw → t.intentLaw

/-- The passage from `s` to `t` touches no record and no search, lets intents fade at most, and leaves MEMBER only without them. -/
structure IntentsFade (s t : State) : Prop where
  slots : List.Forall₂ Slot.Fades s.slots t.slots
  states : t.slots.map Slot.state = s.slots.map Slot.state
  queue : t.reqQueue = s.reqQueue
  pen : t.pen = s.pen
  station : s.dir.station = .member → t.dir.station = .member

namespace IntentsFade

variable {s t u : State}

/-- A passage that leaves alone the slots and what goes with them. -/
theorem of_frame (h : t.slots = s.slots ∧ t.reqQueue = s.reqQueue ∧ t.pen = s.pen ∧ (s.dir.station = .member → t.dir.station = .member)) :
    IntentsFade s t := by
  obtain ⟨hs, hq, hp, hd⟩ := h
  exact ⟨by rw [hs]; exact forall₂_fades_refl _, by rw [hs], hq, hp, hd⟩

theorem refl (s : State) : IntentsFade s s := of_frame ⟨rfl, rfl, rfl, id⟩

theorem trans (h : IntentsFade s t) (k : IntentsFade t u) : IntentsFade s u :=
  ⟨forall₂_fades_trans h.slots k.slots, k.states.trans h.states, k.queue.trans h.queue, k.pen.trans h.pen, k.station ∘ h.station⟩

/-- Transitivity with the second passage first, whose end the goal names. -/
theorem after (k : IntentsFade t u) (h : IntentsFade s t) : IntentsFade s u := h.trans k

theorem foldl {α : Type} (f : State → α → State) (h : ∀ s a, IntentsFade s (f s a)) (l : List α) (s : State) :
    IntentsFade s (l.foldl f s) := by
  induction l generalizing s with
  | nil => exact refl s
  | cons a l ih => exact (h s a).trans (ih _)

end IntentsFade

/-- The records and the search stand. -/
theorem slotLaw_of_states {s t : State} (hs : t.slots.map Slot.state = s.slots.map Slot.state) (hq : t.reqQueue = s.reqQueue)
    (hp : t.pen.searching = s.pen.searching) (h : s.slotLaw) : t.slotLaw := by
  have hst := slotState_congr hs
  refine slotLaw_congr (fun i => ?_) (fun i => ?_) (fun i => ?_) hq hp h
  · rw [State.tagAt, hst, State.tagAt]
  · rw [State.queuedAt, hst, State.queuedAt]
  · rw [State.runningAt, hst, State.runningAt]

theorem pathLaw_of_states {s t : State} (hs : t.slots.map Slot.state = s.slots.map Slot.state) (hp : t.pen = s.pen) (h : s.pathLaw) :
    t.pathLaw := by
  rw [pathLaw_iff] at h ⊢
  simpa only [State.searchesLawfully, slotState_congr hs, hp] using h

namespace KeepsRecords

variable {s t u : State}

theorem refl (s : State) : KeepsRecords s s := ⟨id, id, id⟩

theorem trans (h : KeepsRecords s t) (k : KeepsRecords t u) : KeepsRecords s u :=
  ⟨k.slots ∘ h.slots, k.paths ∘ h.paths, k.intents ∘ h.intents⟩

/-- Transitivity with the second passage first, whose end the goal names. -/
theorem after (k : KeepsRecords t u) (h : KeepsRecords s t) : KeepsRecords s u := h.trans k

theorem of_fade (h : IntentsFade s t) : KeepsRecords s t :=
  ⟨slotLaw_of_states h.states h.queue (by rw [h.pen]), pathLaw_of_states h.states h.pen,
    intentLaw_of_fades h.slots fun _ hm => .inl (h.station hm)⟩

theorem of_frame (h : t.slots = s.slots ∧ t.reqQueue = s.reqQueue ∧ t.pen = s.pen ∧ (s.dir.station = .member → t.dir.station = .member)) :
    KeepsRecords s t := of_fade (.of_frame h)

/-- A passage that may leave MEMBER, where no intent stands. -/
theorem of_unclaimed (h : t.slots = s.slots ∧ t.reqQueue = s.reqQueue ∧ t.pen = s.pen)
    (hn : s.slots.length = 8 → ∀ i x, ¬ s.standsIn i x) : KeepsRecords s t := by
  obtain ⟨hs, hq, hp⟩ := h
  refine ⟨slotLaw_of_states (by rw [hs]) hq (by rw [hp]), pathLaw_of_states (by rw [hs]) hp,
    intentLaw_of_fades (by rw [hs]; exact forall₂_fades_refl _) fun hl _ => .inr fun i x hx => hn hl i x ?_⟩
  rwa [State.standsIn, State.slot, hs] at hx

end KeepsRecords

/-! ## What lets intents fade (R149 to R156) -/

theorem stands_ne_none {x : Intent} (h : x.stands = true) : x ≠ .none := fun hn => by rw [hn] at h; cases h

theorem setIntent_fades {i : Nat} {t : Intent} {s : State} {x : Slot} (hx : s.slot i = some x) (h : x.Fades { x with intent := t }) :
    IntentsFade s (setIntent i t s) := by
  refine ⟨?_, by simp, rfl, rfl, id⟩
  rw [setIntent_eq i t s x hx]
  exact forall₂_fades_set hx h

theorem raise_fades (i : Indication) (s : State) : IntentsFade s (raise i s) := .of_frame (by simp)

theorem handOverPlain_fades (f : Body) (s : State) : IntentsFade s (handOverPlain f s) := .of_frame (by simp)

theorem respondOk_fades (c : Byte) (p : List Byte) (s : State) : IntentsFade s (respondOk c p s) := .of_frame (by simp)

theorem refuse_fades (c : Byte) (st : Status) (s : State) : IntentsFade s (refuse c st s) := .of_frame (by simp)

theorem setService_fades (v : Option Service) (s : State) : IntentsFade s (setService v s) := .of_frame (by simp)

theorem loseIntent_fades (i : Nat) (why : LostReason) (s : State) : IntentsFade s (loseIntent i why s) := by
  unfold loseIntent
  split
  · next x hx =>
    split
    · next hs => exact (raise_fades _ _).after (setIntent_fades hx ⟨fun _ => ⟨stands_ne_none hs, id⟩, fun h => by cases h⟩)
    · exact .refl s
  · exact .refl s

theorem notSent_fades (i p : Nat) (ps : List Pair) (s : State) : IntentsFade s (notSent i p ps s) := by
  unfold notSent
  split
  · exact (loseIntent_fades i _ s).trans (handOverPlain_fades _ _)
  · exact .refl s

theorem handOver_fades (f : Body) (s : State) : IntentsFade s (handOver f s) := by
  have ht := handOverPlain_fades f s
  unfold handOver
  dsimp only
  split
  · split
    · exact ht.trans (notSent_fades _ _ _ _)
    · exact ht
  · exact ht

theorem announce_fades (i : Nat) (s : State) : IntentsFade s (announce i s) := by
  unfold announce
  split
  · split
    · exact handOver_fades _ s
    · exact .refl s
  · exact .refl s

theorem completionReport_fades (i p : Nat) (ps : List Pair) (s : State) : IntentsFade s (completionReport i p ps s) := by
  unfold completionReport
  split
  · next x hx =>
    split
    · next hi =>
      split
      · refine setIntent_fades hx ⟨fun _ => ⟨?_, id⟩, fun _ => ⟨?_, ?_⟩⟩
        all_goals rw [hi]
        · nofun
        · rfl
        · rfl
      · exact .refl s
    · exact .refl s
  · exact .refl s

theorem reportNotSent_fades (f : Body) (s : State) : IntentsFade s (reportNotSent f s) := by
  unfold reportNotSent
  split
  · exact notSent_fades _ _ _ s
  · exact .of_frame (by simp)
  · exact .refl s

theorem claimCompleted_fades (r : Nat) (s : State) : IntentsFade s (claimCompleted r s) := by
  unfold claimCompleted
  split
  · exact .of_frame ⟨rfl, rfl, rfl, id⟩
  · exact .refl s

theorem completeAttempt_fades (v : Service) (s : State) : IntentsFade s (completeAttempt v s) := by
  have ht := setService_fades none s
  unfold completeAttempt
  dsimp only
  split
  · exact ht.trans (claimCompleted_fades _ _)
  · exact ht.trans (completionReport_fades _ _ _ _)
  · exact ht

theorem failAttempt_fades (v : Service) (s : State) : IntentsFade s (failAttempt v s) := by
  unfold failAttempt
  split
  · exact (reportNotSent_fades _ _).after ((raise_fades _ _).after (setService_fades none s))
  · exact .of_frame ⟨rfl, rfl, rfl, id⟩

theorem resolveAttempt_fades (c : Bool) (v : Service) (s : State) : IntentsFade s (resolveAttempt c v s) := by
  cases c
  · exact failAttempt_fades v s
  · exact completeAttempt_fades v s

theorem decideAttempt_fades (c : Bool) (s : State) : IntentsFade s (decideAttempt c s) := by
  unfold decideAttempt
  split
  · split
    · exact setService_fades _ s
    · exact resolveAttempt_fades c _ s
    · exact .refl s
  · exact .refl s

theorem endSend_fades (s : State) : IntentsFade s (endSend s) := by
  unfold endSend
  split
  · split
    · exact resolveAttempt_fades _ _ s
    · exact setService_fades _ s
    · exact .refl s
  · exact .refl s

theorem closeEcho_fades (s : State) : IntentsFade s (closeEcho s) := by
  unfold closeEcho
  split
  · split
    · exact failAttempt_fades _ s
    · exact .refl s
  · exact .refl s

theorem routeEpisode_fades (e : Episode) (s : State) : IntentsFade s (routeEpisode e s) := by
  unfold routeEpisode
  split
  · exact decideAttempt_fades _ s
  · split
    · split
      · exact decideAttempt_fades _ s
      · exact .refl s
    · exact .of_frame (by simp)

theorem endEpisode_fades (levels : List Bool) (s : State) : IntentsFade s (endEpisode levels s) := by
  unfold endEpisode
  split
  · exact (routeEpisode_fades _ _).after (.of_frame (by simp))
  · exact .refl s

theorem setMute_fades (s : State) : IntentsFade s (setMute s) := by
  unfold setMute
  split
  · exact .refl s
  · refine IntentsFade.trans (.of_frame (by simp)) (?_ : IntentsFade (raise .muted { s with sct := { s.sct with mute := true } }) _)
    unfold muteService
    split
    · split
      · exact setService_fades _ _
      · exact (setService_fades none _).trans (reportNotSent_fades _ _)
      · exact .refl _
    · exact .refl _

theorem deliverLol_fades (lol : DegreeSet) (s : State) (x : PinState × Nat) : IntentsFade s (deliverLol lol s x) := by
  unfold deliverLol
  split
  · exact .of_frame (by simp)
  · exact .refl s

theorem samplePins_fades (mute : Bool) (lol : DegreeSet) (s : State) : IntentsFade s (samplePins mute lol s) := by
  have hp : IntentsFade s { s with pins := s.pins.sample mute lol } := .of_frame (by simp)
  refine IntentsFade.trans ?_ (.foldl _ (deliverLol_fades lol) _ _)
  split
  · exact hp.trans (setMute_fades _)
  · exact hp

theorem windowExpired_fades (i : Nat) (s : State) : IntentsFade s (windowExpired i s) := by
  unfold windowExpired
  split
  · next x hx =>
    split
    · next hi =>
      refine (raise_fades _ _).after (setIntent_fades hx ⟨fun _ => ⟨?_, id⟩, fun _ => ⟨?_, ?_⟩⟩)
      all_goals rw [hi]
      · nofun
      · rfl
      · rfl
    · exact .refl s
  · exact .refl s

/-- A refresh timer started again (R150). -/
theorem refreshed_fades (x : Slot) (period : Nat) : x.Fades { x with intent := x.intent.refreshed period } := by
  unfold Intent.refreshed
  split
  · next h => exact ⟨fun _ => ⟨by rw [h]; nofun, id⟩, fun _ => by rw [h]; exact ⟨rfl, rfl⟩⟩
  · next h => exact ⟨fun _ => ⟨by rw [h]; nofun, id⟩, fun _ => by rw [h]; exact ⟨rfl, rfl⟩⟩
  · exact .refl x

theorem refreshIntent_fades (i : Nat) (s : State) : IntentsFade s (refreshIntent i s) := by
  unfold refreshIntent
  split
  · next x hx =>
    split
    · exact (setIntent_fades hx (refreshed_fades x _)).trans (announce_fades i _)
    · exact .refl s
  · exact .refl s

theorem endIntent_fades (i : Nat) (s : State) : IntentsFade s (endIntent i s) := by
  unfold endIntent
  split
  · next x hx =>
    split
    · exact (setIntent_fades hx (.of_none rfl)).trans (handOverPlain_fades _ _)
    · exact .refl s
  · exact .refl s

theorem withdraw_fades (p : List Byte) (s : State) : IntentsFade s (withdraw p s) := by
  unfold withdraw
  dsimp only
  split
  · exact refuse_fades _ _ s
  · split
    · exact (endIntent_fades _ s).trans (respondOk_fades _ _ _)
    · exact refuse_fades _ _ s

theorem compareIntent_fades (u : Uid) (p : Nat) (ps : List Pair) (s : State) (i : Nat) : IntentsFade s (compareIntent u p ps s i) := by
  unfold compareIntent
  split
  · split
    · split
      · exact (loseIntent_fades i _ s).trans (handOverPlain_fades _ _)
      · split
        · exact announce_fades i s
        · exact .refl s
    · exact .refl s
  · exact .refl s

theorem loseAllIntents_fades (s : State) : IntentsFade s (loseAllIntents s) := .foldl _ (fun s i => loseIntent_fades i _ s) _ s

theorem dispatch_fades (n : Nat) (how : Acceptance) (f : Frame) (s : State) : IntentsFade s (dispatch n how f s) := by
  unfold dispatch
  split
  · split
    · exact .of_frame (by simp)
    · exact .refl s
  · split
    · exact .of_frame (by simp)
    · exact .refl s
  · split
    · exact IntentsFade.after (.foldl _ (compareIntent_fades _ _ _) _ _) (.of_frame (by simp))
    · exact .refl s
  · split
    · exact .of_frame (by simp)
    · exact .refl s

theorem accept_fades (n : Nat) (f : Frame) (s : State) : IntentsFade s (accept n f s).2 := by
  have hd := (accept_steady n f s).station
  refine .of_frame ⟨?_, ?_, ?_, fun h => hd.trans h⟩
  all_goals
    unfold accept
    (repeat' split) <;> simp

theorem acceptFrame_fades (n : Nat) (f : Frame) (s : State) : IntentsFade s (acceptFrame n f s) := by
  have ha := accept_fades n f s
  unfold acceptFrame
  split
  · exact .refl s
  · next how t _ h =>
    rw [h] at ha
    exact ha.trans (dispatch_fades n how f t)

theorem tick_fades (x : Slot) : x.Fades x.tick := by
  cases hi : x.intent with
  | none => exact .of_none (by simp [Slot.tick, hi, Intent.tick])
  | lost => exact ⟨fun _ => ⟨by rw [hi]; nofun, id⟩, fun h => by simp [Slot.tick, hi, Intent.tick, Intent.stands] at h⟩
  | claiming => exact ⟨fun _ => ⟨by rw [hi]; nofun, id⟩, fun _ => by simp [Slot.tick, hi, Intent.tick, Intent.stands, Intent.pairs]⟩
  | held => exact ⟨fun _ => ⟨by rw [hi]; nofun, id⟩, fun _ => by simp [Slot.tick, hi, Intent.tick, Intent.stands, Intent.pairs]⟩

theorem tickAll_fades (s : State) : IntentsFade s (tickAll s) where
  slots := List.forall₂_map_right_iff.2 (List.forall₂_same.2 fun x _ => tick_fades x)
  states := by simp [tickAll, Slot.tick]
  queue := rfl
  pen := rfl
  station := id

end Sys2Proof.Machine
end

section
/-! # Path slots: every step keeps the laws of slots, paths and intents -/

namespace Sys2Proof.Machine

/-! ## One slot takes another record (R95, R99 to R103) -/

/-- The slot `i` turns from `x` into `y`; every other slot and the station state stand. -/
structure Turns (s t : State) (i : Nat) (x y : Slot) : Prop where
  held : s.slot i = some x
  slots : t.slots = s.slots.set i y
  station : t.dir.station = s.dir.station

namespace Turns

variable {s t : State} {i : Nat} {x y : Slot}

theorem slot_self (h : Turns s t i x y) : t.slot i = some y := by
  obtain ⟨hi, -⟩ := List.getElem?_eq_some_iff.1 h.held
  rw [State.slot, h.slots, List.getElem?_set_self hi]

theorem slot_ne (h : Turns s t i x y) {k : Nat} (hk : k ≠ i) : t.slot k = s.slot k := by
  rw [State.slot, h.slots, List.getElem?_set_ne hk.symm, State.slot]

theorem slotState_self (h : Turns s t i x y) : t.slotState i = some y.state := slotState_of_slot h.slot_self

theorem slotState_ne (h : Turns s t i x y) {k : Nat} (hk : k ≠ i) : t.slotState k = s.slotState k := by
  rw [slotState_eq, show t.slots[k]? = s.slots[k]? from h.slot_ne hk, slotState_eq]

theorem tagAt_self (h : Turns s t i x y) : t.tagAt i = y.state.tag := by rw [State.tagAt, h.slotState_self, Option.bind_some]

theorem tagAt_ne (h : Turns s t i x y) {k : Nat} (hk : k ≠ i) : t.tagAt k = s.tagAt k := by rw [State.tagAt, h.slotState_ne hk, State.tagAt]

theorem queuedAt_eq (h : Turns s t i x y) (k : Nat) : t.queuedAt k = if k = i then y.state.isQueued else s.queuedAt k := by
  split
  · next hk => rw [hk, State.queuedAt, h.slotState_self, Option.any_some]
  · next hk => rw [State.queuedAt, h.slotState_ne hk, State.queuedAt]

theorem runningAt_eq (h : Turns s t i x y) (k : Nat) : t.runningAt k = if k = i then y.state.isRunning else s.runningAt k := by
  split
  · next hk => rw [hk, State.runningAt, h.slotState_self, Option.any_some]
  · next hk => rw [State.runningAt, h.slotState_ne hk, State.runningAt]

/-- The slot law after the turn of a slot, where its tag stays or is new, and request queue and PEN follow. -/
theorem slotLaw (h : Turns s t i x y) (htag : ∀ tag, y.state.tag = some tag → x.state.tag = some tag ∨ ∀ k, s.tagAt k ≠ some tag)
    (hnodup : s.reqQueue.Nodup → t.reqQueue.Nodup) (hlength : s.reqQueue.length ≤ 4 → t.reqQueue.length ≤ 4)
    (hqueue : ∀ k, k ∈ t.reqQueue ↔ if k = i then y.state.isQueued = true else k ∈ s.reqQueue)
    (hsearch : ∀ k, t.pen.searching = some k ↔ if k = i then y.state.isRunning = true else s.pen.searching = some k)
    (law : s.slotLaw) : t.slotLaw := by
  obtain ⟨ltag, lnodup, lqueue, llength, lsearch⟩ := (slotLaw_iff s).1 law
  have hx : s.tagAt i = x.state.tag := by rw [State.tagAt, slotState_of_slot h.held, Option.bind_some]
  have apart : ∀ k tag, k ≠ i → t.tagAt i = some tag → t.tagAt k ≠ some tag := fun k tag hk hi hn => by
    rw [h.tagAt_self] at hi
    rw [h.tagAt_ne hk] at hn
    rcases htag tag hi with hold | hnew
    · exact hk (ltag k i tag hn (hx.trans hold))
    · exact hnew k hn
  refine (slotLaw_iff t).2 ⟨fun k m tag hk hm => ?_, hnodup lnodup, fun k => ?_, hlength llength, fun k => ?_⟩
  · by_cases hki : k = i <;> by_cases hmi : m = i
    · rw [hki, hmi]
    · subst hki
      exact absurd hm (apart m tag hmi hk)
    · subst hmi
      exact absurd hk (apart k tag hki hm)
    · rw [h.tagAt_ne hki] at hk
      rw [h.tagAt_ne hmi] at hm
      exact ltag k m tag hk hm
  · rw [hqueue, h.queuedAt_eq]
    split
    · exact Iff.rfl
    · exact lqueue k
  · rw [hsearch, h.runningAt_eq]
    split
    · exact Iff.rfl
    · exact lsearch k

/-- The path law after the turn of a slot to a lawful record, with a search that goes on lawfully. -/
theorem pathLaw (h : Turns s t i x y) (hy : s.pathLaw → y.state.PathLaw) (hsearch : s.pathLaw → t.searchesLawfully) (law : s.pathLaw) :
    t.pathLaw := by
  obtain ⟨lstate, -⟩ := (pathLaw_iff s).1 law
  refine (pathLaw_iff t).2 ⟨fun k st hk => ?_, hsearch law⟩
  by_cases hki : k = i
  · subst hki
    rw [h.slotState_self] at hk
    cases hk
    exact hy law
  · rw [h.slotState_ne hki] at hk
    exact lstate k st hk

/-- Under the turn to a record that is not RUNNING a search goes on as it was. -/
theorem searchesLawfully (h : Turns s t i x y) (hp : t.pen = s.pen) (hy : y.state.isRunning = false) (law : s.pathLaw) :
    t.searchesLawfully := by
  obtain ⟨-, lsearch⟩ := (pathLaw_iff s).1 law
  intro k job epoch hk hrun
  rw [hp] at hk ⊢
  by_cases hki : k = i
  · subst hki
    rw [h.slotState_self, Option.some_inj] at hrun
    rw [hrun] at hy
    cases hy
  · rw [h.slotState_ne hki] at hrun
    exact lsearch k job epoch hk hrun

theorem intentLaw (h : Turns s t i x y) (hf : x.Fades y) : s.intentLaw → t.intentLaw :=
  intentLaw_of_fades (by rw [h.slots]; exact forall₂_fades_set h.held hf) fun _ hm => .inl (h.station.trans hm)

end Turns

theorem searchesLawfully_of_idle {t : State} (h : t.pen.searching = none) : t.searchesLawfully := fun i _ _ hi => by
  rw [h] at hi
  cases hi

theorem setSlotState_eq {i : Nat} (st : SlotState) {s : State} {x : Slot} (h : s.slot i = some x) :
    setSlotState i st s = { s with slots := s.slots.set i { x with state := st } } := by
  rw [setSlotState, modify_eq_set _ i x _ h]

theorem freeSlot_eq {i : Nat} {s : State} {x : Slot} (h : s.slot i = some x) :
    freeSlot i s = { s with slots := s.slots.set i { state := .free, intent := .none } } := by
  rw [freeSlot, modify_eq_set _ i x _ h]

theorem setSlotState_turns {i : Nat} (st : SlotState) {s : State} {x : Slot} (h : s.slot i = some x) :
    Turns s (setSlotState i st s) i x { x with state := st } := ⟨h, by rw [setSlotState_eq st h], rfl⟩

theorem freeSlot_turns {i : Nat} {s : State} {x : Slot} (h : s.slot i = some x) :
    Turns s (freeSlot i s) i x { state := .free, intent := .none } := ⟨h, by rw [freeSlot_eq h], rfl⟩

section
variable {s : State} {i : Nat} {x : Slot}

theorem mem_reqQueue_iff (law : s.slotLaw) (hx : s.slot i = some x) : i ∈ s.reqQueue ↔ x.state.isQueued = true := by
  obtain ⟨-, -, lqueue, -⟩ := (slotLaw_iff s).1 law
  rw [lqueue, State.queuedAt, slotState_of_slot hx, Option.any_some]

theorem searching_iff (law : s.slotLaw) (hx : s.slot i = some x) : s.pen.searching = some i ↔ x.state.isRunning = true := by
  obtain ⟨-, -, -, -, lsearch⟩ := (slotLaw_iff s).1 law
  rw [lsearch, State.runningAt, slotState_of_slot hx, Option.any_some]

/-- The PEN searches no slot but the one that runs (R123). -/
theorem not_searching_of_running (law : s.slotLaw) (hx : s.slot i = some x) (hr : x.state.isRunning = true) {k : Nat} (hk : k ≠ i) :
    s.pen.searching ≠ some k := fun hs => hk (Option.some.inj (hs.symm.trans ((searching_iff law hx).2 hr)))

/-- Where no slot runs the PEN searches none (R123). -/
theorem searching_of_idle (law : s.slotLaw) (hr : s.anyRunning = false) (k : Nat) : s.pen.searching ≠ some k := fun hk => by
  obtain ⟨-, -, -, -, lsearch⟩ := (slotLaw_iff s).1 law
  rw [lsearch, runningAt_of_idle hr] at hk
  cases hk

end

/-- A slot that holds a result, or a failure, becomes FREE (R103). -/
theorem freeSlot_keepsRecords {i : Nat} {s : State} (h : s.restsAt i) : KeepsRecords s (freeSlot i s) := by
  cases hx : s.slot i with
  | none =>
    have hl : s.slots.length ≤ i := List.getElem?_eq_none_iff.1 hx
    rw [show freeSlot i s = s by rw [freeSlot, List.modify_eq_self hl]]
    exact .refl s
  | some x =>
    have ht := freeSlot_turns hx
    obtain ⟨hq, hr⟩ := h _ (slotState_of_slot hx)
    refine ⟨fun law => ht.slotLaw nofun id id (fun k => ?_) (fun k => ?_) law,
      ht.pathLaw (fun _ => trivial) (ht.searchesLawfully rfl rfl), ht.intentLaw (.of_none rfl)⟩
    · split
      · next hk => rw [hk, freeSlot_reqQueue, mem_reqQueue_iff law hx, hq]; rfl
      · rfl
    · split
      · next hk => rw [hk, freeSlot_pen, searching_iff law hx, hr]; rfl
      · rfl

/-- A QUEUED slot that is cancelled becomes FREE, and leaves the request queue (R102). -/
theorem cancelQueued_keepsRecords {i : Nat} {s : State} {job : Job} (h : s.slotState i = some (.queued job)) :
    KeepsRecords s { freeSlot i s with reqQueue := s.reqQueue.filter fun j => j != i } := by
  obtain ⟨x, hx, hst⟩ := slot_of_slotState h
  have hf := freeSlot_turns hx
  have ht : Turns s { freeSlot i s with reqQueue := s.reqQueue.filter fun j => j != i } i x _ := ⟨hf.held, hf.slots, hf.station⟩
  refine ⟨fun law => ht.slotLaw nofun (fun hn => hn.filter _) (fun hl => (List.length_filter_le _ _).trans hl) (fun k => ?_)
    (fun k => ?_) law, ht.pathLaw (fun _ => trivial) (ht.searchesLawfully rfl rfl), ht.intentLaw (.of_none rfl)⟩
  · split
    · next hk => simp [hk, SlotState.isQueued]
    · next hk => simp [hk]
  · split
    · next hk =>
      show s.pen.searching = some k ↔ _
      rw [hk, searching_iff law hx, hst]
      rfl
    · rfl

/-- The RUNNING slot takes a record that is neither QUEUED nor RUNNING, and the search ends (R101, R102). -/
theorem endSearch_keepsRecords {i : Nat} {s t : State} {x y : Slot} (ht : Turns s t i x y) (hrun : x.state.isRunning = true)
    (hqueue : t.reqQueue = s.reqQueue) (hpen : t.pen.searching = none) (htag : ∀ tag, y.state.tag = some tag → x.state.tag = some tag)
    (hq : y.state.isQueued = false) (hr : y.state.isRunning = false) (hlaw : s.pathLaw → y.state.PathLaw) (hf : x.Fades y) :
    KeepsRecords s t := by
  have hxq : x.state.isQueued = false := by
    obtain ⟨job, epoch, hst⟩ := (isRunning_iff _).1 hrun
    rw [hst]
    rfl
  refine ⟨fun law => ht.slotLaw (fun tag h => .inl (htag tag h)) (fun h => hqueue ▸ h) (fun h => hqueue ▸ h) (fun k => ?_) (fun k => ?_) law,
    ht.pathLaw hlaw fun _ => searchesLawfully_of_idle hpen, ht.intentLaw hf⟩
  · rw [hqueue]
    split
    · next hk => rw [hk, mem_reqQueue_iff law ht.held, hxq, hq]
    · rfl
  · rw [hpen]
    split
    · simp [hr]
    · next hk => simp [not_searching_of_running law ht.held hrun hk]

/-! ## A slot starts (R100, R101, R124) -/

/-- The head of the request queue turns into a record that is not QUEUED, while none is RUNNING. -/
theorem startTurn_slotLaw {s t : State} {i : Nat} {rest : List Nat} {x y : Slot} (ht : Turns s t i x y) (hq : s.reqQueue = i :: rest)
    (hidle : s.anyRunning = false) (hrest : t.reqQueue = rest) (htag : y.state.tag = x.state.tag) (hy : y.state.isQueued = false)
    (hsearch : s.slotLaw → ∀ k, t.pen.searching = some k ↔ k = i ∧ y.state.isRunning = true) (law : s.slotLaw) : t.slotLaw := by
  obtain ⟨-, hnodup, -, -, -⟩ := id law
  rw [hq, List.nodup_cons] at hnodup
  obtain ⟨hout, hnodup⟩ := hnodup
  refine ht.slotLaw (fun tag h => .inl (htag ▸ h)) (fun _ => hrest ▸ hnodup) (fun h => ?_) (fun k => ?_) (fun k => ?_) law
  · rw [hq] at h
    rw [hrest]
    exact Nat.le_of_succ_le h
  · rw [hrest]
    split
    · next hk => simp [hk, hout, hy]
    · next hk => simp [hq, hk]
  · rw [hsearch law]
    split
    · next hk => simp [hk]
    · next hk => simp [hk, searching_of_idle law hidle k]

/-- The head of the request queue starts, or fails at its start (R100, R101, R124). -/
theorem startHead_keepsRecords {s : State} {i : Nat} {rest : List Nat} {job : Job} (hq : s.reqQueue = i :: rest)
    (hi : s.slotState i = some (.queued job)) (hidle : s.anyRunning = false) :
    KeepsRecords s (startHead i job { s with reqQueue := rest }) := by
  obtain ⟨x, hx, hst⟩ := slot_of_slotState hi
  have hfades : ∀ st, x.Fades { x with state := st } := fun st => .of_pathless rfl (by rw [hst]; rfl)
  have hends : s.pathLaw → job.request.source ≠ job.request.destination := fun law =>
    have ⟨lstate, _⟩ := (pathLaw_iff s).1 law
    lstate i _ hi
  unfold startHead
  split
  · next why _ =>
    have ht : Turns s (raise .requestDone (setSlotState i (.failed job s.tdb.epoch why false) { s with reqQueue := rest })) i x
        { x with state := .failed job s.tdb.epoch why false } :=
      ⟨hx, by rw [raise_slots, setSlotState_eq (s := { s with reqQueue := rest }) _ hx], rfl⟩
    exact ⟨startTurn_slotLaw ht hq hidle rfl (by rw [hst]; rfl) rfl fun law k => by simp [searching_of_idle law hidle k, SlotState.isRunning],
      ht.pathLaw (fun _ => trivial) (ht.searchesLawfully rfl rfl), ht.intentLaw (hfades _)⟩
  · have ht : Turns s (setPen (Pen.prepared i job.request.source (State.diverseCopy { s with reqQueue := rest } job.request)
        (State.otherIntentPairs { s with reqQueue := rest } i))
        (setSlotState i (.running job s.tdb.epoch) { s with reqQueue := rest })) i x { x with state := .running job s.tdb.epoch } :=
      ⟨hx, by rw [setPen_slots, setSlotState_eq (s := { s with reqQueue := rest }) _ hx], rfl⟩
    refine ⟨startTurn_slotLaw ht hq hidle rfl (by rw [hst]; rfl) rfl fun law k => ?_,
      ht.pathLaw hends fun law k job' epoch hk hrun => ?_, ht.intentLaw (hfades _)⟩
    · simp [setPen, Pen.prepared, SlotState.isRunning, eq_comm]
    · obtain rfl : i = k := Option.some.inj hk
      rw [ht.slotState_self] at hrun
      cases hrun
      exact prepared_searchLaw i _ _

theorem judgeStart_keepsRecords (n : Nat) (s : State) : KeepsRecords s (judgeStart n s) := by
  induction n generalizing s with
  | zero => exact .refl s
  | succ n ih =>
    unfold judgeStart
    split
    · exact .refl s
    · next hc =>
      have hidle : s.anyRunning = false := by
        simp only [Bool.or_eq_true, not_or, Bool.not_eq_true] at hc
        obtain ⟨hidle, -⟩ := hc
        exact hidle
      split
      · exact .refl s
      · next i rest hq =>
        dsimp only
        split
        · next job hi => exact (startHead_keepsRecords hq hi hidle).trans (ih _)
        · next hi =>
          refine KeepsRecords.trans (t := { s with reqQueue := rest }) ⟨fun law => ?_, id, id⟩ (ih _)
          obtain ⟨-, -, lqueue, -⟩ := law
          obtain ⟨job, hjob⟩ := (lqueue i).1 (by simp [hq])
          exact absurd hjob (hi job)

theorem startQueued_keepsRecords (s : State) : KeepsRecords s (startQueued s) := judgeStart_keepsRecords _ s

/-! ## The result watch (R105 to R110) -/

/-- The slots after the watch: each is watched on its own. -/
theorem resultWatch_slot (s : State) (i : Nat) : (resultWatch s).slot i = (s.slot i).map (watchSlot s i) := by
  have hmap : (resultWatch s).slots = s.slots.zipIdx.map fun y => watchSlot s y.2 y.1 := by simp [resultWatch]
  rw [State.slot, hmap, List.getElem?_map, List.getElem?_zipIdx, Option.map_map, Nat.zero_add, State.slot]
  rfl

/-- The state on which a transfer's watch runs (R89): the view is copied and its spans resolved. -/
def State.viewed (s : State) : State :=
  raise .epoch { s with tdb := { s.tdb.copied with spans := resolveSpans { s with tdb := s.tdb.copied } } }

theorem transfer_eq (s : State) : transfer s = resultWatch s.viewed := rfl

theorem transfer_slot (s : State) (i : Nat) : (transfer s).slot i = (s.slot i).map (watchSlot s.viewed i) := resultWatch_slot s.viewed i

/-- A slot that is not FOUND is not judged (R105). -/
theorem watchSlot_idle {s : State} {i : Nat} {x : Slot} (h : ∀ j e r, x.state ≠ .found j e r) : watchSlot s i x = x := by
  unfold watchSlot
  split
  · next hst => exact absurd hst (h _ _ _)
  · rfl

theorem watchSlot_fails {s : State} {i : Nat} {x : Slot} {j : Job} {e : BitVec 16} {r : PathResult} {why : InvalidReason}
    (h : x.state = .found j e r) (hw : pathFailure s i x.intent j.request r.hops = some why) :
    watchSlot s i x = { x with state := .invalid j e r why } := by
  simp only [watchSlot, h, hw]

theorem watchSlot_passes {s : State} {i : Nat} {x : Slot} {j : Job} {e : BitVec 16} {r : PathResult}
    (h : x.state = .found j e r) (hw : pathFailure s i x.intent j.request r.hops = none) :
    watchSlot s i x = { x with state := .found j e (refreshTotals s j.request r) } := by
  simp only [watchSlot, h, hw]

/-- The watch leaves a slot, or judges a FOUND one (R105, R110). -/
theorem watchSlot_cases (s : State) (i : Nat) (x : Slot) : watchSlot s i x = x ∨ ∃ j e r, x.state = .found j e r
    ∧ ((∃ why, watchSlot s i x = { x with state := .invalid j e r why })
      ∨ pathFailure s i x.intent j.request r.hops = none
        ∧ watchSlot s i x = { x with state := .found j e (refreshTotals s j.request r) }) := by
  by_cases h : ∃ j e r, x.state = .found j e r
  · obtain ⟨j, e, r, hst⟩ := h
    refine .inr ⟨j, e, r, hst, ?_⟩
    cases hw : pathFailure s i x.intent j.request r.hops with
    | some why => exact .inl ⟨why, watchSlot_fails hst hw⟩
    | none => exact .inr ⟨rfl, watchSlot_passes hst hw⟩
  · exact .inl (watchSlot_idle fun j e r hst => h ⟨j, e, r, hst⟩)

/-- The watch leaves a slot's tag, and whether it is QUEUED or RUNNING. -/
theorem watchSlot_role (s : State) (i : Nat) (x : Slot) : (watchSlot s i x).state.tag = x.state.tag
    ∧ (watchSlot s i x).state.isQueued = x.state.isQueued ∧ (watchSlot s i x).state.isRunning = x.state.isRunning := by
  rcases watchSlot_cases s i x with h | ⟨j, e, r, hst, ⟨why, h⟩ | ⟨-, h⟩⟩
  · rw [h]
    exact ⟨rfl, rfl, rfl⟩
  · rw [h, hst]
    exact ⟨rfl, rfl, rfl⟩
  · rw [h, hst]
    exact ⟨rfl, rfl, rfl⟩

theorem watchSlot_fades (s : State) (i : Nat) (x : Slot) : x.Fades (watchSlot s i x) := by
  rcases watchSlot_cases s i x with h | ⟨j, e, r, hst, ⟨why, h⟩ | ⟨-, h⟩⟩
  · rw [h]
    exact .refl x
  · rw [h]
    exact ⟨fun hn => ⟨hn, fun _ => rfl⟩, fun hs => ⟨hs, rfl⟩⟩
  · rw [h]
    exact ⟨fun hn => ⟨hn, fun _ => rfl⟩, fun hs => ⟨hs, rfl⟩⟩

/-- A slot that is RUNNING after the watch was so before it. -/
theorem running_of_watchSlot {s : State} {i : Nat} {x : Slot} {job : Job} {epoch : BitVec 16}
    (h : (watchSlot s i x).state = .running job epoch) : x.state = .running job epoch := by
  rcases watchSlot_cases s i x with hw | ⟨j, e, r, hst, ⟨why, hw⟩ | ⟨-, hw⟩⟩
  · rwa [hw] at h
  · rw [hw] at h
    cases h
  · rw [hw] at h
    cases h

/-! ### The totals of a path that passed (R108, R110) -/

/-- A hop for which check 1 of R105 passes has its span. -/
theorem hopSpan_of_passes {s : State} {i : Nat} {intent : Intent} {req : Request} {h : Hop} (hp : hopFailure s i intent req h = none) :
    (hopSpan s.tdb h).isSome = true := by
  unfold hopFailure at hp
  split at hp
  · cases hp
  · next hsp => rw [hsp]; rfl

theorem crossings_hops {t : Tdb} {hops : List Hop} (h : ∀ g ∈ hops, (hopSpan t g).isSome = true) :
    (crossings t hops).map Crossing.hop = hops := by
  induction hops with
  | nil => rfl
  | cons g hops ih =>
    obtain ⟨sp, hsp⟩ := Option.isSome_iff_exists.1 (h g List.mem_cons_self)
    have hrest := ih fun k hk => h k (List.mem_cons_of_mem g hk)
    unfold crossings at hrest ⊢
    rw [List.filterMap_cons_some (by rw [hsp]; rfl), List.map_cons, hrest]

/-- A flagged hop opens a segment (R108). -/
theorem foldl_sumSegment_length (t : Tdb) (cls : ClassEntry) (path : List Crossing) (acc : List (Nat × Nat)) (h : acc ≠ []) :
    (path.foldl (sumSegment t cls) acc).length = acc.length + path.countP fun c => c.hop.regen := by
  induction path generalizing acc with
  | nil => rfl
  | cons c path ih =>
    cases acc with
    | nil => exact absurd rfl h
    | cons g acc =>
      rw [List.foldl_cons, sumSegment, List.countP_cons]
      cases c.hop.regen
      · simp [ih]
      · simp only [if_true, ih _ (List.cons_ne_nil _ _), List.length_cons]
        omega

/-- One segment more than flags, where the first hop is not flagged (R95, R108). -/
theorem sumSegments_length (t : Tdb) (cls : ClassEntry) (path : List Crossing) (hne : path ≠ [])
    (hfirst : ∀ c, path.head? = some c → c.hop.regen = false) :
    (sumSegments t cls path).length = (path.countP fun c => c.hop.regen) + 1 := by
  cases path with
  | nil => exact absurd rfl hne
  | cons c path =>
    rw [sumSegments, List.length_reverse, List.foldl_cons, foldl_sumSegment_length _ _ _ _ (by simp [sumSegment]), List.countP_cons,
      hfirst c rfl]
    simp [sumSegment, Nat.add_comm]

theorem hops_pass {s : State} {i : Nat} {intent : Intent} {req : Request} {hops : List Hop}
    (h : pathFailure s i intent req hops = none) : ∀ g ∈ hops, hopFailure s i intent req g = none := by
  unfold pathFailure at h
  dsimp only at h
  split at h
  · cases h
  · next hf => exact fun g hg => List.findSome?_eq_none_iff.1 hf g hg

theorem refreshTotals_lawful {s : State} {i : Nat} {intent : Intent} {req : Request} {r : PathResult}
    (hp : pathFailure s i intent req r.hops = none) (h : r.lawful req) : (refreshTotals s req r).lawful req := by
  obtain ⟨hpos, hmax, hleads, hapart, hfields, hfirst, hflags, hregens, -⟩ := h
  refine ⟨hpos, hmax, hleads, hapart, hfields, hfirst, hflags, hregens, ?_⟩
  have hhops := crossings_hops fun g hg => hopSpan_of_passes (hops_pass hp g hg)
  have hne : crossings s.tdb r.hops ≠ [] := fun hn => by
    rw [hn] at hhops
    rw [← hhops] at hpos
    cases hpos
  rw [refreshTotals, List.length_map, sumSegments_length _ _ _ hne fun c hc => hfirst c.hop (by rw [← hhops, List.head?_map, hc]; rfl)]
  show _ = r.regens + 1
  rw [← hflags]
  conv_rhs => rw [← hhops, List.countP_map]
  rfl

theorem watchSlot_pathLaw (s : State) (i : Nat) (x : Slot) (h : x.state.PathLaw) : (watchSlot s i x).state.PathLaw := by
  rcases watchSlot_cases s i x with hw | ⟨j, e, r, hst, ⟨why, hw⟩ | ⟨hp, hw⟩⟩
  · rwa [hw]
  · rw [hst] at h
    rw [hw]
    exact h
  · rw [hst] at h
    rw [hw]
    exact refreshTotals_lawful hp h

theorem resultWatch_keepsRecords (s : State) : KeepsRecords s (resultWatch s) := by
  have hst : ∀ i, (resultWatch s).slotState i = (s.slot i).map fun x => (watchSlot s i x).state := fun i => by
    rw [slotState_eq, show (resultWatch s).slots[i]? = _ from resultWatch_slot s i, Option.map_map]
    rfl
  have hst₀ : ∀ i, s.slotState i = (s.slot i).map Slot.state := slotState_eq s
  refine ⟨slotLaw_congr (fun i => ?_) (fun i => ?_) (fun i => ?_) (resultWatch_reqQueue s) (by rw [resultWatch_pen]), fun law => ?_,
    intentLaw_of_fades ?_ fun _ hm => .inl ((resultWatch_dir s).symm ▸ hm)⟩
  · rw [State.tagAt, State.tagAt, hst, hst₀]
    cases s.slot i with
    | none => rfl
    | some x => exact (watchSlot_role s i x).1
  · rw [State.queuedAt, State.queuedAt, hst, hst₀]
    cases s.slot i with
    | none => rfl
    | some x => exact (watchSlot_role s i x).2.1
  · rw [State.runningAt, State.runningAt, hst, hst₀]
    cases s.slot i with
    | none => rfl
    | some x => exact (watchSlot_role s i x).2.2
  · obtain ⟨lstate, lsearch⟩ := (pathLaw_iff s).1 law
    refine (pathLaw_iff _).2 ⟨fun i st h => ?_, fun i job epoch hp hrun => ?_⟩
    · rw [hst, Option.map_eq_some_iff] at h
      obtain ⟨x, hx, rfl⟩ := h
      exact watchSlot_pathLaw s i x (lstate i _ (slotState_of_slot hx))
    · rw [resultWatch_pen] at hp ⊢
      rw [hst, Option.map_eq_some_iff] at hrun
      obtain ⟨x, hx, hr⟩ := hrun
      exact lsearch i job epoch hp (by rw [slotState_of_slot hx, running_of_watchSlot hr])
  · have hmap : (resultWatch s).slots = s.slots.zipIdx.map fun y => watchSlot s y.2 y.1 := by simp [resultWatch]
    rw [hmap, List.forall₂_map_right_iff, List.forall₂_iff_get]
    refine ⟨by simp, fun i h₁ h₂ => ?_⟩
    simpa using watchSlot_fades s i s.slots[i]

theorem transfer_keepsRecords (s : State) : KeepsRecords s (transfer s) :=
  (resultWatch_keepsRecords s.viewed).after (.of_frame ⟨rfl, rfl, rfl, id⟩)

/-! ## Searches and epochs (R86 to R89, R134, R140 to R143) -/

theorem leftRunning_keepsRecords (s : State) : KeepsRecords s (leftRunning s) := by
  refine (startQueued_keepsRecords _).after ?_
  split
  · exact transfer_keepsRecords s
  · exact .refl s

/-- The RUNNING slot completes, with the label table as the search leaves it (R101). -/
theorem complete_keepsRecords {i : Nat} {s : State} {job : Job} {epoch : BitVec 16} {st : SlotState} (q : Pen)
    (h : s.slotState i = some (.running job epoch)) (htag : st.tag = some job.tag) (hq : st.isQueued = false) (hr : st.isRunning = false)
    (hlaw : s.pathLaw → st.PathLaw) : KeepsRecords s (complete i st (setPen q s)) := by
  obtain ⟨x, hx, hst⟩ := slot_of_slotState h
  have ht : Turns s (raise .requestDone (setSlotState i st (setPen q.ended s))) i x { x with state := st } :=
    ⟨hx, by rw [raise_slots, setSlotState_eq (s := setPen q.ended s) st hx]; rfl, rfl⟩
  refine (leftRunning_keepsRecords _).after (endSearch_keepsRecords ht (by rw [hst]; rfl) rfl rfl (fun tag hn => ?_) hq hr hlaw
    (.of_pathless rfl (by rw [hst]; rfl)))
  rw [hst]
  exact htag.symm.trans hn

/-- The search of the RUNNING slot goes on. -/
theorem searchOn_keepsRecords {i : Nat} {s : State} {job : Job} {epoch : BitVec 16} {q : Pen} (hs : s.pen.searching = some i)
    (h : s.slotState i = some (.running job epoch)) (hq : q.searching = some i) (hlaw : s.pathLaw → q.searchLaw job.request) :
    KeepsRecords s (setPen q s) := by
  refine ⟨slotLaw_of_states rfl rfl (hq.trans hs.symm), fun law => ?_, id⟩
  obtain ⟨lstate, -⟩ := (pathLaw_iff s).1 law
  refine (pathLaw_iff _).2 ⟨lstate, fun k job' epoch' hk hrun => ?_⟩
  obtain rfl : i = k := Option.some.inj (hq.symm.trans hk)
  cases h.symm.trans hrun
  exact hlaw law

/-- One settlement (R134, R140, R141). -/
theorem settleSlot_keepsRecords {i : Nat} {s : State} {job : Job} {epoch : BitVec 16} (hs : s.pen.searching = some i)
    (h : s.slotState i = some (.running job epoch)) : KeepsRecords s (settleSlot i job epoch s) := by
  have hlaw : s.pathLaw → s.pen.searchLaw job.request ∧ job.request.source ≠ job.request.destination := fun law =>
    have ⟨lstate, lsearch⟩ := (pathLaw_iff s).1 law
    ⟨lsearch i job epoch hs h, lstate i _ h⟩
  unfold settleSlot
  split
  · exact complete_keepsRecords s.pen h rfl rfl rfl fun _ => trivial
  · next e rest hf =>
    dsimp only
    split
    · next hd =>
      exact complete_keepsRecords _ h rfl rfl rfl fun law =>
        have ⟨lsearch, hne⟩ := hlaw law
        settle_pathOf_lawful _ lsearch hf hne hd
    · next hd =>
      split
      · exact complete_keepsRecords _ h rfl rfl rfl fun _ => trivial
      · exact searchOn_keepsRecords hs h ((work_searching _ _ _).trans hs) fun law =>
          have ⟨lsearch, _⟩ := hlaw law
          settle_work_searchLaw (env := s.searchEnv job) lsearch hf hd

theorem settle_keepsRecords (s : State) : KeepsRecords s (settle s) := by
  unfold settle
  split
  · next hs =>
    split
    · next h => exact settleSlot_keepsRecords hs h
    · exact .refl s
  · exact .refl s

theorem decideExpiry_keepsRecords (s : State) : KeepsRecords s (decideExpiry s) := by
  unfold decideExpiry
  split
  · exact .refl s
  · split
    · exact .of_frame ⟨rfl, rfl, rfl, id⟩
    · exact (transfer_keepsRecords s).trans (startQueued_keepsRecords _)

theorem epochExpired_keepsRecords (s : State) : KeepsRecords s (epochExpired s) := by
  unfold epochExpired
  split
  · exact .refl s
  · dsimp only
    split
    · exact .of_frame ⟨rfl, rfl, rfl, id⟩
    · exact (decideExpiry_keepsRecords _).after (.of_frame ⟨rfl, rfl, rfl, id⟩)

theorem decideForce_keepsRecords (s : State) : KeepsRecords s (decideForce s) := by
  unfold decideForce
  split
  · exact .of_frame ⟨rfl, rfl, rfl, id⟩
  · split
    · exact .of_frame ⟨rfl, rfl, rfl, id⟩
    · split
      · exact .of_frame ⟨rfl, rfl, rfl, id⟩
      · exact ((transfer_keepsRecords _).trans (startQueued_keepsRecords _)).after (.of_frame (by simp))

theorem forceEpoch_keepsRecords (p : List Byte) (s : State) : KeepsRecords s (forceEpoch p s) := by
  unfold forceEpoch
  split
  · exact .of_frame (by simp)
  · exact decideForce_keepsRecords s

theorem takeHeld_keepsRecords (l : List EpochAsk) (s : State) : KeepsRecords s (takeHeld l s) := by
  induction l generalizing s with
  | nil => exact .of_frame ⟨rfl, rfl, rfl, id⟩
  | cons ask l ih =>
    cases ask with
    | expiry =>
      unfold takeHeld
      split
      · exact .of_frame ⟨rfl, rfl, rfl, id⟩
      · exact (decideExpiry_keepsRecords s).trans (ih _)
    | force =>
      unfold takeHeld
      split
      · exact .of_frame ⟨rfl, rfl, rfl, id⟩
      · exact (decideForce_keepsRecords s).trans (ih _)

theorem endTransfer_keepsRecords (s : State) : KeepsRecords s (endTransfer s) := by
  unfold endTransfer
  split
  · refine (takeHeld_keepsRecords _ _).after (.of_frame ?_)
    split <;> exact ⟨rfl, rfl, rfl, id⟩
  · exact .refl s

/-! ## The commands on slots (R98, R102, R103, R147) -/

theorem cancel_keepsRecords (p : List Byte) (s : State) : KeepsRecords s (cancel p s) := by
  unfold cancel
  dsimp only
  split
  · exact .of_frame ⟨rfl, rfl, rfl, id⟩
  · next h => exact (cancelQueued_keepsRecords h).trans (.of_frame ⟨rfl, rfl, rfl, id⟩)
  · next h =>
    obtain ⟨x, hx, hst⟩ := slot_of_slotState h
    have hf := freeSlot_turns (s := setPen s.pen.ended s) hx
    have ht : Turns s (freeSlot (payloadByte p 0) (setPen s.pen.ended s)) (payloadByte p 0) x _ := ⟨hx, hf.slots, hf.station⟩
    exact ((endSearch_keepsRecords ht (by rw [hst]; rfl) rfl rfl nofun rfl rfl (fun _ => trivial) (.of_none rfl)).trans
      (leftRunning_keepsRecords _)).trans (.of_frame ⟨rfl, rfl, rfl, id⟩)
  · exact .of_frame ⟨rfl, rfl, rfl, id⟩

/-- RELEASE SLOT frees only slots that hold a result or a failure (R103). -/
theorem released_keepsRecords {i : Nat} {s : State} (h : s.restsAt i) :
    KeepsRecords s (respondOk cmdReleaseSlot [] (freeSlot i (endIntent i s))) := by
  have hi := endIntent_fades i s
  have hrest : (endIntent i s).restsAt i := restsAt_of_slotState (slotState_congr hi.states i) h
  exact ((KeepsRecords.of_fade hi).trans (freeSlot_keepsRecords hrest)).trans (.of_frame ⟨rfl, rfl, rfl, id⟩)

theorem releaseSlot_keepsRecords (p : List Byte) (s : State) : KeepsRecords s (releaseSlot p s) := by
  unfold releaseSlot
  dsimp only
  split
  case h_5 st _ hq hr h =>
    refine released_keepsRecords fun st' hst' => ?_
    obtain rfl : st = st' := Option.some.inj (h.symm.trans hst')
    cases st with
    | queued job => exact absurd rfl (hq job)
    | running job epoch => exact absurd rfl (hr job epoch)
    | free => exact ⟨rfl, rfl⟩
    | found => exact ⟨rfl, rfl⟩
    | invalid => exact ⟨rfl, rfl⟩
    | failed => exact ⟨rfl, rfl⟩
  all_goals exact .of_frame ⟨rfl, rfl, rfl, id⟩

/-! ### SUBMIT (R97 to R99) -/

theorem isFree_iff (st : SlotState) : st.isFree = true ↔ st = .free := by cases st <;> simp [SlotState.isFree]

/-- The request queue is no longer than the QUEUED slots are many. -/
theorem reqQueue_length_le {s : State} (law : s.slotLaw) : s.reqQueue.length ≤ s.slots.countP fun x => x.state.isQueued := by
  obtain ⟨-, lnodup, lqueue, -⟩ := (slotLaw_iff s).1 law
  rw [← List.length_findIdxs (s := 0)]
  refine (List.subperm_of_subset lnodup fun i hi => ?_).length_le
  obtain ⟨job, hj⟩ := (queuedAt_iff s i).1 ((lqueue i).1 hi)
  obtain ⟨x, hx, hst⟩ := slot_of_slotState hj
  obtain ⟨hlt, he⟩ := List.getElem?_eq_some_iff.1 hx
  exact List.mem_findIdxs_iff_exists_getElem_pos.2 ⟨hlt, by rw [he, hst]; rfl⟩

theorem tagInUse_iff (s : State) (tag : Nat) : s.tagInUse tag = true ↔ ∃ k, s.tagAt k = some tag := by
  simp only [State.tagInUse, List.any_eq_true, State.tagAt, Option.bind_eq_some_iff, beq_iff_eq]
  constructor
  · rintro ⟨x, hx, ht⟩
    obtain ⟨k, hk⟩ := List.getElem?_of_mem hx
    exact ⟨k, _, slotState_of_slot hk, ht⟩
  · rintro ⟨k, st, hst, ht⟩
    obtain ⟨x, hx, rfl⟩ := slot_of_slotState hst
    exact ⟨x, List.mem_of_getElem? hx, ht⟩

/-- What the checks of R98 leave of a SUBMIT that none of them refuses. -/
theorem submitRefusal_none {s : State} {p : List Byte} (h : s.submitRefusal p = none) :
    (submitRequest p).source ≠ (submitRequest p).destination ∧ s.tagInUse (payloadByte p 0) = false
      ∧ (s.slots.countP fun x => x.state.isQueued) < 4 := by
  unfold State.submitRefusal at h
  dsimp only at h
  split at h; · cases h
  split at h; · cases h
  split at h; · cases h
  next hends =>
  split at h; · cases h
  split at h; · cases h
  split at h; · cases h
  next htag =>
  split at h; · cases h
  split at h; · cases h
  split at h; · cases h
  next hqueue => exact ⟨hends, Bool.eq_false_iff.2 htag, Nat.lt_of_not_le hqueue⟩

/-- A slot that takes a request: QUEUED, without an intent, at the end of the request queue (R98). -/
def State.enqueued (s : State) (i : Nat) (job : Job) : State :=
  { s with slots := s.slots.set i { state := .queued job, intent := .none }, reqQueue := s.reqQueue ++ [i] }

theorem setIntent_setSlotState_eq {s : State} {i : Nat} {x : Slot} (st : SlotState) (t : Intent) (h : s.slot i = some x) :
    setIntent i t (setSlotState i st s) = { s with slots := s.slots.set i { state := st, intent := t } } := by
  have ht := setSlotState_turns st h
  rw [setIntent_eq i t _ _ ht.slot_self, ht.slots, List.set_set]
  rfl

theorem enqueued_keepsRecords {s : State} {i : Nat} {job : Job} {x : Slot} (hx : s.slot i = some x) (hfree : x.state.isFree = true)
    (htag : s.tagInUse job.tag = false) (hends : job.request.source ≠ job.request.destination)
    (hroom : (s.slots.countP fun x => x.state.isQueued) < 4) : KeepsRecords s (s.enqueued i job) := by
  have hst : x.state = .free := (isFree_iff _).1 hfree
  have ht : Turns s (s.enqueued i job) i x { state := .queued job, intent := .none } := ⟨hx, rfl, rfl⟩
  refine ⟨fun law => ?_, ht.pathLaw (fun _ => hends) (ht.searchesLawfully rfl rfl), ht.intentLaw (.of_none rfl)⟩
  have hout : i ∉ s.reqQueue := fun hm => by
    rw [mem_reqQueue_iff law hx, hst] at hm
    cases hm
  refine ht.slotLaw (fun tag h => .inr fun k hk => ?_) (fun hn => ?_) (fun _ => ?_) (fun k => ?_) (fun k => ?_) law
  · rw [Bool.eq_false_iff, Ne, tagInUse_iff] at htag
    exact htag ⟨k, hk.trans h.symm⟩
  · exact List.nodup_append.2 ⟨hn, List.nodup_singleton i, fun a ha b hb hab => hout (by rwa [← List.mem_singleton.1 hb, ← hab])⟩
  · have hlen := reqQueue_length_le law
    show (s.reqQueue ++ [i]).length ≤ 4
    rw [List.length_append, List.length_singleton]
    omega
  · show k ∈ s.reqQueue ++ [i] ↔ _
    split
    · next hk => simp [hk, SlotState.isQueued]
    · next hk => simp [hk]
  · split
    · next hk =>
      show s.pen.searching = some k ↔ _
      rw [hk, searching_iff law hx, hst]
      rfl
    · rfl

theorem submit_keepsRecords (p : List Byte) (s : State) : KeepsRecords s (submit p s) := by
  unfold submit
  split
  · exact .of_frame ⟨rfl, rfl, rfl, id⟩
  · next hr =>
    split
    · exact .of_frame ⟨rfl, rfl, rfl, id⟩
    · next i hi =>
      obtain ⟨hends, htag, hroom⟩ := submitRefusal_none hr
      obtain ⟨hlt, hfree, -⟩ := List.findIdx?_eq_some_iff_getElem.1 hi
      have hx : s.slot i = some s.slots[i] := List.getElem?_eq_getElem hlt
      dsimp only
      rw [setIntent_setSlotState_eq _ _ hx]
      refine (startQueued_keepsRecords _).after (KeepsRecords.trans (t := s.enqueued i (s.submitJob p)) ?_ (.of_frame ⟨rfl, rfl, rfl, id⟩))
      exact enqueued_keepsRecords hx hfree htag hends hroom

/-! ### COMMIT INTENT (R147) -/

/-- The pairs of the other standing intents (R107, R125, R147). -/
theorem mem_otherIntentPairs (s : State) (i : Nat) (p : Pair) :
    p ∈ s.otherIntentPairs i ↔ ∃ k y, k ≠ i ∧ s.standsIn k y ∧ p ∈ y.intent.pairs := by
  simp only [State.otherIntentPairs, List.mem_flatMap, List.mem_filter, bne_iff_ne, Prod.exists, List.mk_mem_zipIdx_iff_getElem?,
    Intent.standingPairs]
  constructor
  · rintro ⟨y, k, ⟨hy, hk⟩, hp⟩
    split at hp
    · next hst => exact ⟨k, y, hk, ⟨hy, hst⟩, hp⟩
    · cases hp
  · rintro ⟨k, y, hk, ⟨hy, hst⟩, hp⟩
    exact ⟨y, k, ⟨hy, hk⟩, by rwa [if_pos hst]⟩

/-- A path that no other standing intent overlaps is claimed. -/
theorem startClaim_keepsRecords {s : State} {i pr : Nat} {ps : List Pair} {x : Slot} (hx : s.slot i = some x)
    (hpath : x.state.hops.isSome = true) (hm : s.dir.station = .member) (hapart : ∀ p ∈ ps, p ∉ s.otherIntentPairs i) :
    KeepsRecords s (startClaim i pr ps s) := by
  refine ⟨slotLaw_of_states (by simp [startClaim]) rfl rfl, pathLaw_of_states (by simp [startClaim]) rfl, ?_⟩
  have ht : Turns s (startClaim i pr ps s) i x { x with intent := .claiming pr ps none s.intentPeriod } :=
    ⟨hx, by rw [startClaim, setIntent_eq i _ s x hx], rfl⟩
  have others : ∀ {k y}, k ≠ i → (startClaim i pr ps s).standsIn k y → s.standsIn k y := fun hk ⟨hy, hst⟩ =>
    ⟨(ht.slot_ne hk).symm.trans hy, hst⟩
  have self : ∀ {y}, (startClaim i pr ps s).standsIn i y → y.intent.pairs = ps := fun ⟨hy, _⟩ => by
    cases ht.slot_self.symm.trans hy
    rfl
  rintro ⟨hl, hhops, -, hpairs⟩
  refine ⟨by rw [ht.slots, List.length_set, hl], fun k y hy hn => ?_, fun _ _ _ => hm, fun k m y z hne hy hz p hp hq => ?_⟩
  · by_cases hk : k = i
    · subst hk
      cases ht.slot_self.symm.trans hy
      exact hpath
    · exact hhops k y ((ht.slot_ne hk).symm.trans hy) hn
  · by_cases hk : k = i <;> by_cases hm : m = i
    · exact hne (hk.trans hm.symm)
    · subst hk
      exact hapart p (self hy ▸ hp) ((mem_otherIntentPairs s k p).2 ⟨m, z, hm, others hm hz, hq⟩)
    · subst hm
      exact hapart p (self hz ▸ hq) ((mem_otherIntentPairs s m p).2 ⟨k, y, hk, others hk hy, hp⟩)
    · exact hpairs k m y z hne (others hk hy) (others hm hz) p hp hq

theorem commitIntent_keepsRecords (p : List Byte) (s : State) : KeepsRecords s (commitIntent p s) := by
  have refused : ∀ st, KeepsRecords s (refuse cmdCommitIntent st s) := fun st => .of_frame ⟨rfl, rfl, rfl, id⟩
  unfold commitIntent
  dsimp only
  split
  · exact refused _
  · next x hx =>
    split
    · exact refused _
    · next hm =>
      split
      · next hst =>
        split
        · exact refused _
        · split
          · exact refused _
          · next hover =>
            have hapart : ∀ q ∈ pathPairs s.tdb _, q ∉ s.otherIntentPairs (payloadByte p 0) := fun q hq hin =>
              hover (List.any_eq_true.2 ⟨q, hq, by simpa using hin⟩)
            exact (startClaim_keepsRecords hx (by rw [hst]; rfl) (not_not.1 hm) hapart).trans
              (.of_fade ((announce_fades _ _).trans (respondOk_fades _ _ _)))
      · exact refused _

/-! ## The station state (R26 to R33, R169, R177) -/

/-- Renumbering leaves MEMBER, with every intent that stood LOST (R32, R156). -/
theorem renumber_keepsRecords (strap : BitVec 3) (n : Nat) (s : State) : KeepsRecords s (renumber strap n s) := by
  have hf := loseAllIntents_fades s
  refine (KeepsRecords.of_fade hf).trans (.of_unclaimed ?_ fun hl => loseAllIntents_stands s (hf.slots.length_eq.trans hl))
  simp [renumber]

theorem ownNumberRule_keepsRecords (strap : BitVec 3) (n : Nat) (f : Frame) (s : State) :
    KeepsRecords s (ownNumberRule strap n f s) := by
  unfold ownNumberRule
  split
  · exact (renumber_keepsRecords strap n s).trans (.of_fade (acceptFrame_fades n f _))
  · exact .of_frame (by simp)

theorem takeFrame_keepsRecords (strap : BitVec 3) (f : Frame) (s : State) : KeepsRecords s (takeFrame strap f s) := by
  unfold takeFrame
  dsimp only
  split
  · exact .refl s
  · have hy : KeepsRecords s (if s.conflicts f = true then yieldNumber f.number? s else s) := by
      split
      · next hc =>
        obtain ⟨hj, -⟩ := conflicts_candidate hc
        exact .of_frame ⟨by simp, by simp, by simp, fun hm => by rw [hj] at hm; cases hm⟩
      · exact .refl s
    split
    · exact hy.trans (ownNumberRule_keepsRecords strap _ f _)
    · exact hy.trans (.of_fade (acceptFrame_fades _ f _))

theorem takeOldest_keepsRecords (strap : BitVec 3) (s : State) : KeepsRecords s (takeOldest strap s) := by
  unfold takeOldest
  split
  · split
    · exact (takeFrame_keepsRecords strap _ _).after (.of_frame ⟨rfl, rfl, rfl, id⟩)
    · exact .refl s
  · exact .refl s

theorem roundExpired_keepsRecords (s : State) : KeepsRecords s (roundExpired s) :=
  .of_frame ⟨by simp, by simp, by simp, fun hm => by simp only [roundExpired, hm]⟩

theorem noNumberExpired_keepsRecords (strap : BitVec 3) (s : State) : KeepsRecords s (noNumberExpired strap s) :=
  .of_frame ⟨by simp, by simp, by simp, fun hm => by simp only [noNumberExpired, hm]⟩

theorem startStation_keepsRecords (strap : BitVec 3) (p : List Byte) (s : State) : KeepsRecords s (startStation strap p s) :=
  .of_frame ⟨by simp, by simp, by simp, fun hm => by simp [startStation, hm]⟩

theorem endLoad_keepsRecords (s : State) : KeepsRecords s (endLoad s) :=
  .of_frame ⟨by simp, by simp, by simp, fun hm => by simp [endLoad, State.loadRuns, hm]⟩

/-- Every slot FREE, nothing queued, nothing searched (R94, R111, R144, R158). -/
theorem cleared_keepsRecords {s t : State} (hs : t.slots = List.replicate Config.slots Slot.deviceReset) (hq : t.reqQueue = [])
    (hp : t.pen.searching = none) : KeepsRecords s t := by
  have hslot : ∀ {i x}, t.slot i = some x → x = Slot.deviceReset := fun h => by
    rw [State.slot, hs] at h
    exact List.eq_of_mem_replicate (List.mem_of_getElem? h)
  have hstate : ∀ {i st}, t.slotState i = some st → st = .free := fun h => by
    obtain ⟨x, hx, rfl⟩ := slot_of_slotState h
    rw [hslot hx]
    rfl
  have hnone : ∀ {i x}, ¬ t.standsIn i x := fun ⟨hx, hst⟩ => by
    rw [hslot hx] at hst
    cases hst
  refine ⟨fun _ => ⟨fun i _ a _ _ ha _ ht => ?_, ?_, fun i => ⟨fun h => ?_, fun ⟨_, h⟩ => ?_⟩, ?_, fun i => ⟨fun h => ?_, fun ⟨_, _, h⟩ => ?_⟩⟩,
    fun _ => (pathLaw_iff t).2 ⟨fun i st h => ?_, searchesLawfully_of_idle hp⟩,
    fun _ => ⟨by simp [hs, Config.slots], fun i x hx hn => ?_, fun _ _ h => absurd h hnone, fun _ _ _ _ _ h => absurd h hnone⟩⟩
  · rw [hstate ha] at ht
    cases ht
  · simp [hq]
  · simp [hq] at h
  · cases hstate h
  · simp [hq]
  · rw [hp] at h
    cases h
  · cases hstate h
  · rw [hstate h]
    trivial
  · rw [hslot hx] at hn
    exact absurd rfl hn

theorem restart_keepsRecords (p : List Byte) (s : State) : KeepsRecords s (restart p s) := by
  unfold restart
  split
  · exact .of_frame ⟨rfl, rfl, rfl, id⟩
  · split
    · exact .of_frame ⟨rfl, rfl, rfl, id⟩
    · dsimp only
      split
      · exact cleared_keepsRecords (by simp [restartBlocks]) (by simp [restartBlocks]) (by simp [restartBlocks, Pen.ended])
      · exact cleared_keepsRecords rfl rfl rfl

/-! ## Every row, every step -/

theorem live_keepsRecords {f : State → State} {s : State} (h : KeepsRecords s (f s)) : KeepsRecords s (live f s) := by
  unfold live
  split
  · exact .refl s
  · exact h

/-- A row outside device reset that touches neither slots nor search nor station state. -/
theorem live_frame_keepsRecords {f : State → State} {s : State} (h : (f s).slots = s.slots ∧ (f s).reqQueue = s.reqQueue
    ∧ (f s).pen = s.pen ∧ (s.dir.station = .member → (f s).dir.station = .member)) : KeepsRecords s (live f s) :=
  live_keepsRecords (.of_frame h)

/-- A command transaction keeps the laws when what the command does with its payload keeps them (R161). -/
theorem takeCommand_keepsRecords {c : Byte} {agrees : List Byte → Bool} {rest : List Byte} {act : List Byte → State → State} {s : State}
    (h : ∀ p u, KeepsRecords u (act p u)) : KeepsRecords s (takeCommand c agrees rest act s) := by
  have port : ∀ x, KeepsRecords s { s with lrp := x } := fun _ => .of_frame ⟨rfl, rfl, rfl, id⟩
  unfold takeCommand endTransaction
  dsimp only
  split
  · exact port _
  · split
    · exact port _
    · split
      · exact port _
      · split
        · exact KeepsRecords.trans (port _) (h _ _)
        · exact port _

/-- A command that touches neither slots nor search nor station state. -/
theorem command_frame_keepsRecords {c : Byte} {agrees : List Byte → Bool} {rest : List Byte} {act : List Byte → State → State} {s : State}
    (h : ∀ p u, (act p u).slots = u.slots ∧ (act p u).reqQueue = u.reqQueue ∧ (act p u).pen = u.pen
      ∧ (u.dir.station = .member → (act p u).dir.station = .member)) : KeepsRecords s (takeCommand c agrees rest act s) :=
  takeCommand_keepsRecords fun p u => .of_frame (h p u)

/-- Every row keeps the laws of slots, paths and intents. -/
theorem exec_keepsRecords (c : Instr) (s t : State) (h : exec c s = .next t) : KeepsRecords s t := by
  cases c <;> cases h
  case deviceReset => exact cleared_keepsRecords rfl rfl rfl
  case resetRelease | readResponse | ignoredTransaction | unknownCommand => exact .of_frame (by simp)
  case loadEnd => exact live_keepsRecords (endLoad_keepsRecords s)
  case pinSample => exact live_keepsRecords (.of_fade (samplePins_fades _ _ s))
  case episodeEnd => exact live_keepsRecords (.of_fade (endEpisode_fades _ s))
  case sendEnd => exact live_keepsRecords (.of_fade (endSend_fades s))
  case echoCheckClose => exact live_keepsRecords (.of_fade (closeEcho_fades s))
  case takeReceivedFrame => exact live_keepsRecords (takeOldest_keepsRecords _ s)
  case peerLifetimeExpiry => exact live_frame_keepsRecords ⟨by simp, by simp, by simp, fun h => (purge_steady _ s).station.trans h⟩
  case claimRoundTimerExpiry => exact live_keepsRecords (roundExpired_keepsRecords s)
  case noNumberTimerExpiry => exact live_keepsRecords (noNumberExpired_keepsRecords _ s)
  case epochTimerExpiry => exact live_keepsRecords (epochExpired_keepsRecords s)
  case settlement => exact live_keepsRecords (settle_keepsRecords s)
  case windowTimerExpiry => exact live_keepsRecords (.of_fade (windowExpired_fades _ s))
  case intentRefreshExpiry => exact live_keepsRecords (.of_fade (refreshIntent_fades _ s))
  case epochTransferEnd => exact live_keepsRecords (endTransfer_keepsRecords s)
  case frameStart | carrierEnd | darkTimerExpiry | takeIntoService | quietGapExpiry | traceWordSend | traceSyncMatch | traceWordJudgement
      | huntTimerExpiry | qualifierTimerExpiry | holdDownExpiry | refreshTimerExpiry | peerIntentLifetimeExpiry | storeBusyExpiry
      | loadWordRead => exact live_frame_keepsRecords (by simp)
  case submit => exact takeCommand_keepsRecords submit_keepsRecords
  case cancel => exact takeCommand_keepsRecords cancel_keepsRecords
  case releaseSlot => exact takeCommand_keepsRecords releaseSlot_keepsRecords
  case commitIntent => exact takeCommand_keepsRecords commitIntent_keepsRecords
  case withdraw => exact takeCommand_keepsRecords fun p u => .of_fade (withdraw_fades p u)
  case forceEpoch => exact takeCommand_keepsRecords forceEpoch_keepsRecords
  case start => exact takeCommand_keepsRecords (startStation_keepsRecords _)
  case restart => exact takeCommand_keepsRecords restart_keepsRecords
  case mute => exact takeCommand_keepsRecords fun p u => .of_fade ((setMute_fades u).trans (respondOk_fades _ _ _))
  case readStatus | readDirectoryEntry | readDegree | readReport | readPeerIntent | writeNodeReport | writeSpanReport | clearLatch | readSlot
      | clearMute | setEnables | clearIndications | readStoreWord | writeStoreWord =>
    exact command_frame_keepsRecords fun _ _ => by simp

/-- Every step keeps the laws: a row does, and so does an idle millisecond. -/
theorem step_keepsRecords (s t : State) (h : step s = .next t) : KeepsRecords s t := by
  unfold step at h
  split at h
  · exact (exec_keepsRecords _ _ t h).after (.of_frame ⟨rfl, rfl, rfl, id⟩)
  · cases h
    exact live_keepsRecords (.of_fade (tickAll_fades s))

/-- Settles O54: the slot law is one of those every step keeps. -/
theorem stepKeepsTheSlotLaw : Obligations.StepKeepsTheSlotLaw := fun s t _ law h => (step_keepsRecords s t h).slots law

/-- Settles O55: the path law is one of those every step keeps. -/
theorem stepKeepsThePathLaw : Obligations.StepKeepsThePathLaw := fun s t law h => (step_keepsRecords s t h).paths law

/-- Settles O56: the intent law is one of those every step keeps. -/
theorem stepKeepsTheIntentLaw : Obligations.StepKeepsTheIntentLaw := fun s t law h => (step_keepsRecords s t h).intents law

end Sys2Proof.Machine
end

section
/-! # Path slots: starts, CANCEL and RELEASE SLOT -/

namespace Sys2Proof.Machine

/-! ## The start of a queued slot (R100, R101) -/

theorem anyRunning_eq_false_iff (s : State) : s.anyRunning = false ↔ ∀ m x, s.slot m = some x → x.state.isRunning = false := by
  simp only [State.anyRunning, List.any_eq_false, Bool.not_eq_true, List.mem_iff_getElem?, State.slot]
  exact ⟨fun h m x hx => h x ⟨m, hx⟩, fun h x ⟨m, hx⟩ => h m x hx⟩

theorem startQueued_empty {s : State} (h : s.reqQueue = []) : startQueued s = s := by rw [startQueued, h]; rfl

/-- Behind a running search or a pending epoch nothing starts (R100). -/
theorem startQueued_waits {s : State} (h : s.anyRunning = true ∨ s.tdb.pendingEpoch = true) : startQueued s = s := by
  have hc : (s.anyRunning || s.tdb.pendingEpoch) = true := Bool.or_eq_true_iff.2 h
  unfold startQueued
  cases s.reqQueue.length with
  | zero => rfl
  | succ n => rw [judgeStart, if_pos hc]

/-- The start of a slot leaves the others. -/
theorem startHead_slot_ne {i k : Nat} (h : i ≠ k) (job : Job) (s : State) : (startHead i job s).slot k = s.slot k := by
  have hset : ∀ st, (setSlotState i st s).slot k = s.slot k := fun st => by
    rw [State.slot, setSlotState_slots, List.getElem?_modify_ne _ _ h, State.slot]
  unfold startHead
  split
  · exact hset _
  · exact hset _

/-- A slot that is not QUEUED stands while slots start (R100). -/
theorem judgeStart_slot {k : Nat} {x : Slot} (hq : x.state.isQueued = false) (n : Nat) (s : State) (h : s.slot k = some x) :
    (judgeStart n s).slot k = some x := by
  induction n generalizing s with
  | zero => exact h
  | succ n ih =>
    unfold judgeStart
    split
    · exact h
    · split
      · exact h
      · next i rest _ =>
        dsimp only
        split
        · next job hi =>
          have hne : i ≠ k := by
            rintro rfl
            have hst : x.state = .queued job := Option.some.inj ((slotState_of_slot (s := { s with reqQueue := rest }) h).symm.trans hi)
            rw [hst] at hq
            cases hq
          exact ih _ ((startHead_slot_ne hne job _).trans h)
        · exact ih _ h

/-- The state in which slot `k` is searched (R100, R124, R125). -/
def State.started (s : State) (k : Nat) (job : Job) : State :=
  setPen (Pen.prepared k job.request.source (s.diverseCopy job.request) (s.otherIntentPairs k))
    (setSlotState k (.running job s.tdb.epoch) s)

section
variable {s : State} {k : Nat} {rest : List Nat} {job : Job} (hidle : s.anyRunning = false) (hp : s.tdb.pendingEpoch = false)
  (hq : s.reqQueue = k :: rest) (hk : s.slotState k = some (.queued job))
include hidle hp hq hk

/-- On an idle part the head of the request queue starts (R100). -/
theorem startQueued_head : startQueued s = judgeStart rest.length (startHead k job { s with reqQueue := rest }) := by
  have hk' : State.slotState { s with reqQueue := rest } k = some (.queued job) := hk
  rw [startQueued, hq, List.length_cons, judgeStart]
  simp only [hidle, hp, Bool.or_self, Bool.false_eq_true, if_false, hq, hk']

/-- The start checks pass: the slot runs, and nothing starts behind it. -/
theorem startQueued_starts (hc : State.startCheck { s with reqQueue := rest } job = none) :
    startQueued s = State.started { s with reqQueue := rest } k job := by
  have hstart : startHead k job { s with reqQueue := rest } = State.started { s with reqQueue := rest } k job := by
    simp only [startHead, hc, State.started]
  have hrun : (State.started { s with reqQueue := rest } k job).slotState k = some (.running job s.tdb.epoch) := by
    have hset := setSlotState_slotState_self k (.running job s.tdb.epoch) s
    rw [hk] at hset
    exact hset
  rw [startQueued_head hidle hp hq hk, hstart]
  cases rest with
  | nil => rfl
  | cons i rest => rw [List.length_cons, judgeStart, anyRunning_of_slotState hrun, Bool.true_or, if_pos rfl]

/-- A start check fails: the slot is FAILED, and nothing else was queued. -/
theorem startQueued_fails {why : FailReason} (hc : State.startCheck { s with reqQueue := rest } job = some why) (hr : rest = []) :
    startQueued s = raise .requestDone (setSlotState k (.failed job s.tdb.epoch why false) { s with reqQueue := [] }) := by
  subst hr
  rw [startQueued_head hidle hp hq hk]
  simp only [startHead, hc]
  rfl

end

/-- The endpoints are known, and no other slot is referred to (R124). -/
theorem startCheck_passes {s : State} {job : Job} (hsrc : (reportUnder s.tdb.active job.request.source).isSome = true)
    (hdst : (reportUnder s.tdb.active job.request.destination).isSome = true) (hlost : s.refLost job = false) : s.startCheck job = none := by
  simp [State.startCheck, ← Option.not_isSome, hsrc, hdst, hlost]

/-! ## A slot leaves RUNNING (R88, R100, R101) -/

theorem leftRunning_idle {s : State} (hp : s.tdb.pendingEpoch = false) (hq : s.reqQueue = []) : leftRunning s = s := by
  rw [leftRunning, hp]
  exact startQueued_empty hq

/-- The state in which the head of the request queue starts when a slot has left RUNNING: after a pending transfer (R88). -/
def State.transferredIfPending (s : State) : State := if s.tdb.pendingEpoch then transfer s else s

theorem leftRunning_eq (s : State) : leftRunning s = startQueued s.transferredIfPending := rfl

theorem transferredIfPending_reqQueue (s : State) : s.transferredIfPending.reqQueue = s.reqQueue := by
  unfold State.transferredIfPending
  split <;> simp

theorem transferredIfPending_pendingEpoch (s : State) : s.transferredIfPending.tdb.pendingEpoch = false := by
  unfold State.transferredIfPending
  split
  · rw [transfer_tdb]
    rfl
  · next h => exact Bool.eq_false_iff.2 h

/-- A pending transfer judges FOUND slots alone (R105). -/
theorem transferredIfPending_slot (s : State) (m : Nat) : s.transferredIfPending.slot m = s.slot m
    ∨ s.transferredIfPending.slot m = (s.slot m).map (watchSlot s.viewed m) := by
  unfold State.transferredIfPending
  split
  · exact .inr (transfer_slot s m)
  · exact .inl rfl

theorem transferredIfPending_idle {s : State} (h : s.anyRunning = false) : s.transferredIfPending.anyRunning = false := by
  rw [anyRunning_eq_false_iff] at h ⊢
  intro m y hy
  rcases transferredIfPending_slot s m with hm | hm
  · exact h m y (hm.symm.trans hy)
  · obtain ⟨x, hx, rfl⟩ := Option.map_eq_some_iff.1 (hm.symm.trans hy)
    obtain ⟨-, -, hrun⟩ := watchSlot_role s.viewed m x
    exact hrun.trans (h m x hx)

theorem transferredIfPending_queued {s : State} {k : Nat} {job : Job} (h : s.slotState k = some (.queued job)) :
    s.transferredIfPending.slotState k = some (.queued job) := by
  obtain ⟨x, hx, hst⟩ := slot_of_slotState h
  rcases transferredIfPending_slot s k with hk | hk
  · rw [slotState_of_slot (hk.trans hx), hst]
  · rw [hx, Option.map_some, watchSlot_idle fun j e r hn => by rw [hst] at hn; cases hn] at hk
    rw [slotState_of_slot hk, hst]

/-- A FREE slot stands when another leaves RUNNING. -/
theorem leftRunning_slot_of_free {s : State} {k : Nat} {x : Slot} (h : s.slot k = some x) (hf : x.state = .free) :
    (leftRunning s).slot k = some x := by
  have hw : s.transferredIfPending.slot k = some x := by
    rcases transferredIfPending_slot s k with hk | hk
    · exact hk.trans h
    · rw [hk, h, Option.map_some, watchSlot_idle fun j e r hn => by rw [hf] at hn; cases hn]
  exact judgeStart_slot (by rw [hf]; rfl) _ _ hw

/-- A slot `i` has left RUNNING, in `u`: a pending transfer takes place, then the head of the request queue starts (R88, R101). -/
theorem leftRunning_leftRunningTo {s u : State} {i : Nat} (htdb : u.tdb = s.tdb) (hqueue : u.reqQueue = s.reqQueue)
    (hother : ∀ m, m ≠ i → u.slot m = s.slot m) (hi : u.restsAt i) (hs : ∀ job, s.slotState i ≠ some (.queued job)) :
    s.leftRunningTo (leftRunning u) i := by
  refine ⟨fun hp => ?_, fun hp => ?_, fun k rest job hq hk hdiv hruns hsrc hdst => ?_⟩
  · have ht : leftRunning u = startQueued (transfer u) := by rw [leftRunning, htdb, if_pos hp]
    have h := startQueued_transferred u
    rw [ht, h.tdb, htdb]
    exact ⟨rfl, rfl, rfl, rfl, rfl, h.shown⟩
  · rw [leftRunning, htdb, hp, if_neg (by decide), startQueued_tdb, htdb]
  · have hki : k ≠ i := by
      rintro rfl
      exact hs job hk
    have huk : u.slotState k = some (.queued job) := by
      obtain ⟨x, hx, hst⟩ := slot_of_slotState hk
      rw [slotState_of_slot ((hother k hki).trans hx), hst]
    have hidle : u.anyRunning = false := (anyRunning_eq_false_iff u).2 fun m x hx => by
      by_cases hm : m = i
      · subst hm
        obtain ⟨-, hr⟩ := hi _ (slotState_of_slot hx)
        exact hr
      · exact hruns m x hm ((hother m hm).symm.trans hx)
    have hvq : u.transferredIfPending.reqQueue = k :: rest := (transferredIfPending_reqQueue u).trans (hqueue.trans hq)
    have hvk := transferredIfPending_queued huk
    have hlost : State.refLost { u.transferredIfPending with reqQueue := rest } job = false := by simp only [State.refLost, hdiv]
    rw [leftRunning_eq, startQueued_tdb] at hsrc hdst
    rw [leftRunning_eq, startQueued_starts (transferredIfPending_idle hidle) (transferredIfPending_pendingEpoch u) hvq hvk
      (startCheck_passes hsrc hdst hlost)]
    refine ⟨?_, rfl, rfl⟩
    have hset := setSlotState_slotState_self k (.running job u.transferredIfPending.tdb.epoch) u.transferredIfPending
    rw [hvk] at hset
    exact hset

/-! ## Commands that name a slot (R102, R103, R104, R147, R155) -/

theorem takeCommand_slot (c : Byte) (act : List Byte → State → State) {s : State} (i : Byte) (h : s.listens) :
    takeCommand c (hasLength 1) [1, i] act s = act [i] (clockZeros 3 s) := takeCommand_taken c _ 1 [i] act s h rfl rfl

theorem payloadByte_single (i : Byte) : payloadByte [i] 0 = i.toNat := field_one i []

theorem slotState_none {s : State} {i : Nat} (h : s.slot i = none) : s.slotState i = none := by
  rw [slotState_eq, show s.slots[i]? = none from h]
  rfl

section
variable {s : State} {i : Byte}

/-- An index without a slot is refused. -/
theorem slotCommands_refused (h : s.slot i.toNat = none) :
    cancel [i] s = refuse cmdCancel .badField s ∧ releaseSlot [i] s = refuse cmdReleaseSlot .badField s
      ∧ readSlot [i] s = refuse cmdReadSlot .badField s ∧ commitIntent [i] s = refuse cmdCommitIntent .badField s
      ∧ withdraw [i] s = refuse cmdWithdraw .badField s := by
  have hst := slotState_none h
  simp [cancel, releaseSlot, readSlot, commitIntent, withdraw, payloadByte_single, h, hst]

section
variable {x : Slot} (hx : s.slot i.toNat = some x)
include hx

theorem cancel_queued {j : Job} (hst : x.state = .queued j) : cancel [i] s = respondOk cmdCancel [] { s with
    slots := s.slots.set i.toNat { state := .free, intent := .none }, reqQueue := s.reqQueue.filter (· != i.toNat) } := by
  simp only [cancel, payloadByte_single, slotState_of_slot hx, hst, freeSlot_eq hx]

/-- The RUNNING slot freed, with the search abandoned (R102, R143). -/
def State.abandoned (s : State) (i : Nat) : State :=
  { s with slots := s.slots.set i { state := .free, intent := .none }, pen := s.pen.ended }

theorem cancel_running {j : Job} {e : BitVec 16} (hst : x.state = .running j e) :
    cancel [i] s = respondOk cmdCancel [] (leftRunning (s.abandoned i.toNat)) := by
  simp only [cancel, payloadByte_single, slotState_of_slot hx, hst, freeSlot_eq (s := setPen s.pen.ended s) hx]
  rfl

theorem cancel_refused (hq : ∀ j, x.state ≠ .queued j) (hr : ∀ j e, x.state ≠ .running j e) :
    cancel [i] s = refuse cmdCancel .badState s := by
  have hst := slotState_of_slot hx
  cases hc : x.state with
  | queued j => exact absurd hc (hq j)
  | running j e => exact absurd hc (hr j e)
  | free | found | invalid | failed => simp only [cancel, payloadByte_single, hst, hc]

theorem releaseSlot_refused (h : x.state = .free ∨ x.state.isQueued = true ∨ x.state.isRunning = true) :
    releaseSlot [i] s = refuse cmdReleaseSlot .badState s := by
  have hst := slotState_of_slot hx
  cases hc : x.state with
  | free | queued | running => simp only [releaseSlot, payloadByte_single, hst, hc]
  | found | invalid | failed => simp [hc, SlotState.isQueued, SlotState.isRunning] at h

theorem releaseSlot_frees (hf : x.state ≠ .free) (hq : x.state.isQueued = false) (hr : x.state.isRunning = false) :
    releaseSlot [i] s = respondOk cmdReleaseSlot [] (freeSlot i.toNat (endIntent i.toNat s)) := by
  have hst := slotState_of_slot hx
  cases hc : x.state with
  | free => exact absurd hc hf
  | queued | running => simp [hc, SlotState.isQueued, SlotState.isRunning] at hq hr
  | found | invalid | failed => simp only [releaseSlot, payloadByte_single, hst, hc]

end

end

/-- A hand-over does not read the slots. -/
theorem handOverPlain_withSlots (f : Body) (s : State) (slots : List Slot) :
    handOverPlain f { s with slots := slots } = { handOverPlain f s with slots := slots } := by
  simp only [handOverPlain_eq]
  split
  · split <;> rfl
  · rfl

/-- A slot freed after its intent has ended (R103, R155). -/
theorem freeSlot_endIntent {s : State} {i : Nat} {x : Slot} (hx : s.slot i = some x) : freeSlot i (endIntent i s) =
    if x.intent.stands then handOverPlain (.release i) { s with slots := s.slots.set i { state := .free, intent := .none } }
    else { s with slots := s.slots.set i { state := .free, intent := .none } } := by
  split
  · next hs =>
    have hend : endIntent i s = handOverPlain (.release i) { s with slots := s.slots.set i { x with intent := .none } } := by
      simp only [endIntent, hx, hs, if_true, announceRelease, setIntent_eq i .none s x hx]
    have hself : (endIntent i s).slots = s.slots.set i { x with intent := .none } := by rw [hend, handOverPlain_slots]
    obtain ⟨hi, -⟩ := List.getElem?_eq_some_iff.1 hx
    have hslot : (endIntent i s).slot i = some { x with intent := .none } := by rw [State.slot, hself, List.getElem?_set_self hi]
    rw [freeSlot_eq hslot, hself, List.set_set, hend, handOverPlain_withSlots]
    exact (handOverPlain_withSlots (.release i) s _).symm
  · next hs =>
    have hend : endIntent i s = s := by simp only [endIntent, hx, hs, if_false, Bool.false_eq_true]
    rw [hend, freeSlot_eq hx]

/-- What CANCEL and RELEASE SLOT make of a slot, by its state (R102, R103). -/
theorem slot_cancelled_or_released {s : State} {i : Byte} {x : Slot} {freed : List Slot} (h : s.listens) (hx : s.slot i.toNat = some x)
    (hfreed : freed = s.slots.set i.toNat { state := .free, intent := .none }) :
    (∀ j, x.state = .queued j → exec (.cancel [1, i]) s = .next
      (State.answered { s with slots := freed, reqQueue := s.reqQueue.filter (· != i.toNat) } 3 33 .ok false []))
    ∧ (∀ j e, x.state = .running j e → s.tdb.pendingEpoch = false → s.reqQueue = [] → exec (.cancel [1, i]) s = .next
        (State.answered { s with slots := freed, pen := { s.pen with searching := none, diverse := [], ownPairs := [] } } 3 33 .ok false []))
    ∧ ((∀ j, x.state ≠ .queued j) → (∀ j e, x.state ≠ .running j e) →
        exec (.cancel [1, i]) s = .next (s.answered 3 33 .badState false []))
    ∧ (x.state = .free ∨ x.state.isQueued = true ∨ x.state.isRunning = true →
        exec (.releaseSlot [1, i]) s = .next (s.answered 3 34 .badState false []))
    ∧ (x.state ≠ .free → x.state.isQueued = false → x.state.isRunning = false → exec (.releaseSlot [1, i]) s = .next
        (let u : State := { s with slots := freed }
        if x.intent.stands then State.answered (handOverPlain (.release i.toNat) u) 3 34 .ok false []
        else State.answered u 3 34 .ok false [])) := by
  subst hfreed
  have hz : (clockZeros 3 s).slot i.toNat = some x := hx
  have hcancel : exec (.cancel [1, i]) s = .next (cancel [i] (clockZeros 3 s)) := congrArg Host.Outcome.next (takeCommand_slot _ cancel i h)
  have hrelease : exec (.releaseSlot [1, i]) s = .next (releaseSlot [i] (clockZeros 3 s)) :=
    congrArg Host.Outcome.next (takeCommand_slot _ releaseSlot i h)
  rw [hcancel, hrelease]
  refine ⟨fun j hst => ?_, fun j e hst hp hq => ?_, fun hq hr => ?_, fun hb => ?_, fun hf hq hr => ?_⟩
  · rw [cancel_queued hz hst]
    rfl
  · rw [cancel_running hz hst, leftRunning_idle (s := (clockZeros 3 s).abandoned i.toNat) hp hq]
    rfl
  · rw [cancel_refused hz hq hr]
    rfl
  · rw [releaseSlot_refused hz hb]
    rfl
  · rw [releaseSlot_frees hz hf hq hr, freeSlot_endIntent hz]
    dsimp only
    split
    · exact congrArg (fun u => Host.Outcome.next (respondOk cmdReleaseSlot [] u)) (handOverPlain_clockZeros (.release i.toNat) 3
        { s with slots := s.slots.set i.toNat { state := .free, intent := .none } })
    · rfl

/-- The CANCEL of the RUNNING slot, whatever waits behind it (R88, R100, R102). -/
theorem running_cancelled {s : State} {i : Byte} {x : Slot} {j : Job} {ep : BitVec 16} (h : s.listens) (hx : s.slot i.toNat = some x)
    (hst : x.state = .running j ep) : ∃ t, exec (.cancel [1, i]) s = .next t ∧ t.slot i.toNat = some { state := .free, intent := .none }
        ∧ t.lrp = (s.answered 3 33 .ok false []).lrp ∧ s.leftRunningTo t i.toNat := by
  have hcancel : exec (.cancel [1, i]) s = .next (cancel [i] (clockZeros 3 s)) := congrArg Host.Outcome.next (takeCommand_slot _ cancel i h)
  have hz : (clockZeros 3 s).slot i.toNat = some x := hx
  have ht : Turns (clockZeros 3 s) ((clockZeros 3 s).abandoned i.toNat) i.toNat x _ := ⟨hz, rfl, rfl⟩
  rw [hcancel, cancel_running hz hst]
  refine ⟨_, rfl, ?_, ?_, leftRunning_leftRunningTo (u := (clockZeros 3 s).abandoned i.toNat) rfl rfl (fun m hm => ht.slot_ne hm)
    (fun st hs => ?_) fun job hn => ?_⟩
  · exact leftRunning_slot_of_free ht.slot_self rfl
  · rw [respondOk, respond, leftRunning_lrp]
    rfl
  · rw [ht.slotState_self] at hs
    cases hs
    exact ⟨rfl, rfl⟩
  · rw [slotState_of_slot hx, hst] at hn
    cases hn

/-- Settles O39: CANCEL and RELEASE SLOT by the state of the slot, an index without one, and what follows a CANCEL of the RUNNING slot. -/
theorem cancelAndReleaseFreeASlot : Obligations.CancelAndReleaseFreeASlot := by
  refine ⟨fun s i x freed h hx hfreed => slot_cancelled_or_released h hx hfreed, fun s i h hx => ?_,
    fun s i x j ep h hx hst => running_cancelled h hx hst⟩
  obtain ⟨hcancel, hrelease, hread, hcommit, hwithdraw⟩ := slotCommands_refused (s := clockZeros 3 s) hx
  have port := fun c act => takeCommand_slot c act i h
  refine ⟨?_, ?_, ?_, ?_, ?_⟩
  · exact congrArg Host.Outcome.next ((port cmdCancel cancel).trans hcancel)
  · exact congrArg Host.Outcome.next ((port cmdReleaseSlot releaseSlot).trans hrelease)
  · exact congrArg Host.Outcome.next ((port cmdReadSlot readSlot).trans hread)
  · exact congrArg Host.Outcome.next ((port cmdCommitIntent commitIntent).trans hcommit)
  · exact congrArg Host.Outcome.next ((port cmdWithdraw withdraw).trans hwithdraw)

end Sys2Proof.Machine
end

section
/-! # Path slots: SUBMIT -/

namespace Sys2Proof.Machine

/-! ## The payload of SUBMIT (R98, R188) -/

theorem payloadByte_of_getElem? {p : List Byte} {k : Nat} {b : Byte} (h : p[k]? = some b) : payloadByte p k = b.toNat := by
  rw [payloadByte, field, slice, List.take_one, List.head?_drop, h]
  simp [ofBytes]

/-- Pairs of bytes one after the other are read back at their offsets. -/
theorem payloadByte_pairs (head : List Byte) (items : List (Byte × Byte)) :
    (List.range items.length).map (fun i => (payloadByte (head ++ items.flatMap fun x => [x.1, x.2]) (head.length + 2 * i),
      payloadByte (head ++ items.flatMap fun x => [x.1, x.2]) (head.length + 2 * i + 1)))
      = items.map fun x => (x.1.toNat, x.2.toNat) := by
  induction items generalizing head with
  | nil => rfl
  | cons x items ih =>
    have hrest := ih (head ++ [x.1, x.2])
    have hfirst : payloadByte (head ++ (x.1 :: x.2 :: items.flatMap fun x => [x.1, x.2])) head.length = x.1.toNat :=
      payloadByte_of_getElem? (by simp)
    have hsecond : payloadByte (head ++ (x.1 :: x.2 :: items.flatMap fun x => [x.1, x.2])) (head.length + 1) = x.2.toNat :=
      payloadByte_of_getElem? (by simp)
    simp only [List.append_assoc, List.cons_append, List.nil_append, List.length_append, List.length_cons, List.length_nil] at hrest
    rw [List.length_cons, List.range_succ_eq_map, List.map_cons, List.map_map, List.map_cons, List.flatMap_cons, ← hrest]
    simp only [List.cons_append, List.nil_append, Nat.mul_zero, Nat.add_zero, hfirst, hsecond, Function.comp_def]
    congr 1
    exact List.map_congr_left fun i _ => by rw [show head.length + 2 * (i + 1) = head.length + (0 + 1 + 1) + 2 * i by omega]

namespace SubmitForm

variable (f : SubmitForm)

/-- The payload before the items: the eight fixed bytes, then the hint and the diverse-from index that are present. -/
def fixedPart : List Byte :=
  [f.tag, f.src, f.dst, f.cls, f.policy, f.flags, f.prio, f.presence] ++ f.hint.toList ++ f.diverse.toList

theorem payload_eq : f.payload = f.fixedPart ++ f.items.flatMap fun x => [x.1, x.2] := rfl

theorem fixedPart_length : f.fixedPart.length = 8 + f.hint.isSome.toNat + f.diverse.isSome.toNat := by
  cases hh : f.hint <;> cases hd : f.diverse <;> simp [fixedPart, hh, hd]

theorem payload_length : f.payload.length = 8 + f.hint.isSome.toNat + f.diverse.isSome.toNat + 2 * f.items.length := by
  have hitems : (f.items.flatMap fun x => [x.1, x.2]).length = 2 * f.items.length := by
    induction f.items with
    | nil => rfl
    | cons x items ih =>
      rw [List.flatMap_cons, List.length_append, ih]
      simp
      omega
  rw [payload_eq, List.length_append, fixedPart_length, hitems]

theorem presence_read : submitPresence f.payload = f.presence.toNat := payloadByte_of_getElem? rfl

theorem hasHint_read : submitHasHint f.payload = f.hint.isSome := by
  rw [submitHasHint, presence_read, BitVec.testBit_toNat, presence, BitVec.getLsbD_append]
  simp

theorem hasDiverse_read : submitHasDiverse f.payload = f.diverse.isSome := by
  rw [submitHasDiverse, presence_read, BitVec.testBit_toNat, presence, BitVec.getLsbD_append, BitVec.getLsbD_append]
  simp

theorem count_read (h : f.items.length < 16) : submitCount f.payload = f.items.length := by
  have hspare := f.spare.isLt
  have hdiverse := (BitVec.ofBool f.diverse.isSome).isLt
  have hhint := (BitVec.ofBool f.hint.isSome).isLt
  rw [submitCount, presence_read, presence, BitVec.toNat_append, BitVec.toNat_append, BitVec.toNat_append,
    ← Nat.shiftLeft_add_eq_or_of_lt hhint, ← Nat.shiftLeft_add_eq_or_of_lt hdiverse, ← Nat.shiftLeft_add_eq_or_of_lt hspare,
    BitVec.toNat_ofNat]
  simp only [Nat.shiftLeft_eq]
  omega

theorem itemsAt_read : submitItemsAt f.payload = f.fixedPart.length := by
  rw [submitItemsAt, hasHint_read, hasDiverse_read, fixedPart_length]

theorem length_read (h : f.items.length < 16) : submitLength f.payload = true := by
  rw [submitLength, hasHint_read, hasDiverse_read, f.count_read h, payload_length]
  simp
  omega

theorem items_read (h : f.items.length < 16) : submitItems f.payload = f.items.map fun x => (x.1.toNat, x.2.toNat) := by
  rw [submitItems, f.count_read h, itemsAt_read]
  exact payloadByte_pairs f.fixedPart f.items

theorem hint_read : submitHint f.payload = f.hint.map BitVec.toNat := by
  rw [submitHint, hasHint_read]
  cases hh : f.hint with
  | none => rfl
  | some b =>
    have hb : payloadByte f.payload 8 = b.toNat := payloadByte_of_getElem? (by simp [payload, hh])
    rw [hb]
    rfl

theorem diverse_read : submitDiverse f.payload = f.diverse.map BitVec.toNat := by
  rw [submitDiverse, hasDiverse_read, hasHint_read]
  cases hd : f.diverse with
  | none => rfl
  | some b =>
    have hb : payloadByte f.payload (8 + f.hint.isSome.toNat) = b.toNat := by
      refine payloadByte_of_getElem? ?_
      cases hh : f.hint with
      | none => simp [payload, hh, hd]
      | some c => simp [payload, hh, hd]
    rw [hb]
    rfl

/-- An item names a station or an end as its bytes do. -/
theorem decodeExclusion_bytes (x : Byte × Byte) : decodeExclusion (x.1.toNat, x.2.toNat)
    = if x.2 = 255 then .station x.1.toNat else .atEnd { station := x.1.toNat, degree := x.2.toNat } := by
  have h : x.2.toNat = 255 ↔ x.2 = 255 := by bv_omega
  simp only [decodeExclusion, h]

theorem request_read (s : State) (h : f.items.length < 16) : submitRequest f.payload = (s.jobOf f).request := by
  have h0 : f.policy.toNat = 0 ↔ f.policy = 0 := by bv_omega
  have hex : (f.items.map fun x => (x.1.toNat, x.2.toNat)).map decodeExclusion
      = f.items.map fun x => if x.2 = 255 then .station x.1.toNat else .atEnd { station := x.1.toNat, degree := x.2.toNat } := by
    rw [List.map_map]
    exact List.map_congr_left fun x _ => decodeExclusion_bytes x
  have b1 : payloadByte f.payload 1 = f.src.toNat := payloadByte_of_getElem? rfl
  have b2 : payloadByte f.payload 2 = f.dst.toNat := payloadByte_of_getElem? rfl
  have b3 : payloadByte f.payload 3 = f.cls.toNat := payloadByte_of_getElem? rfl
  have b4 : payloadByte f.payload 4 = f.policy.toNat := payloadByte_of_getElem? rfl
  have b5 : payloadByte f.payload 5 = f.flags.toNat := payloadByte_of_getElem? rfl
  have b6 : payloadByte f.payload 6 = f.prio.toNat := payloadByte_of_getElem? rfl
  simp only [submitRequest, b1, b2, b3, b4, b5, b6, h0, BitVec.testBit_toNat, f.hint_read, f.items_read h, f.diverse_read, hex, State.jobOf]

theorem tag_read : payloadByte f.payload 0 = f.tag.toNat := payloadByte_of_getElem? rfl

theorem job_read (s : State) (h : f.items.length < 16) : s.submitJob f.payload = s.jobOf f := by
  have hreq := f.request_read s h
  have hdiv : (s.jobOf f).request.diverse = f.diverse.map BitVec.toNat := rfl
  have href : ((f.diverse.map BitVec.toNat).bind fun i => (s.slot i).bind fun x => x.state.tag) = (s.jobOf f).refTag := by
    rw [Option.bind_map]
    refine congrArg f.diverse.bind (funext fun d => ?_)
    rw [slotState_eq, Option.bind_map]
    rfl
  rw [State.submitJob, hreq, hdiv, href, tag_read]
  rfl

theorem fieldBad_read (h : f.items.length < 16) : submitFieldBad f.payload = f.outOfRange := by
  have b1 : payloadByte f.payload 1 = f.src.toNat := payloadByte_of_getElem? rfl
  have b2 : payloadByte f.payload 2 = f.dst.toNat := payloadByte_of_getElem? rfl
  have b3 : payloadByte f.payload 3 = f.cls.toNat := payloadByte_of_getElem? rfl
  have b4 : payloadByte f.payload 4 = f.policy.toNat := payloadByte_of_getElem? rfl
  have b6 : payloadByte f.payload 6 = f.prio.toNat := payloadByte_of_getElem? rfl
  have h0 : f.tag.toNat = 0 ↔ f.tag = 0 := by bv_omega
  have h255 : ∀ b : Byte, b.toNat = 255 ↔ b = 255 := fun b => by bv_omega
  simp only [submitFieldBad, outOfRange, tag_read, b1, b2, b3, b4, b6, f.hint_read, f.items_read h, f.diverse_read, f.count_read h, h0,
    Option.any_map, List.any_map, Function.comp_def, ne_eq, h255, Nat.lt_iff_add_one_le, Nat.reduceAdd]

theorem excludesEndpoint_read (s : State) : (s.jobOf f).request.excludesEndpoint = f.excludesEndpoint := by
  simp only [Request.excludesEndpoint, excludesEndpoint, State.jobOf, List.any_map]
  refine congrArg f.items.any (funext fun x => ?_)
  by_cases hx : x.2 = 255
  · simp only [Function.comp_apply, hx, if_true, BitVec.toNat_inj, decide_true, Bool.true_and, Bool.decide_or]
  · simp only [Function.comp_apply, hx, if_false, decide_false, Bool.false_and]

end SubmitForm

/-! ## SUBMIT (R98 to R101) -/

theorem exec_submit {s : State} {f : SubmitForm} (h : s.listens) (hi : f.items.length < 16) :
    exec f.row s = .next (submit f.payload (clockZeros (f.payload.length + 2) s)) := by
  have hlen : f.payload.length < 256 := by
    rw [f.payload_length]
    have := f.hint.isSome.toNat_le
    have := f.diverse.isSome.toNat_le
    omega
  exact congrArg Host.Outcome.next
    (takeCommand_taken cmdSubmit submitLength (byte f.payload.length) f.payload submit s h (byte_toNat _ hlen).symm (f.length_read hi))

theorem badRef_read (s : State) (f : SubmitForm) : (s.jobOf f).request.diverse.any (fun i => !((s.slot i).any fun x => x.state.hops.isSome))
    = s.badRef f := by
  rw [State.badRef, show (s.jobOf f).request.diverse = f.diverse.map BitVec.toNat from rfl, Option.any_map]
  refine congrArg (Option.any · f.diverse) (funext fun d => ?_)
  rw [slotState_eq, State.slot]
  cases s.slots[d.toNat]? with
  | none => rfl
  | some x => simp

/-- The checks 2 to 10 of R98 on the fields of the payload. -/
theorem submitRefusal_read (s : State) {f : SubmitForm} (hi : f.items.length < 16) : s.submitRefusal f.payload =
    if s.dir.station = .loading ∨ s.dir.station = .faulted then some .badState
    else if f.outOfRange then some .badField
    else if f.src = f.dst then some .badEndpoints
    else if f.excludesEndpoint then some .badExclusion
    else if (s.classOf f.cls.toNat).budget = 0 then some .badClass
    else if s.slots.any (fun x => x.state.tag == some f.tag.toNat) then some .tagInUse
    else if s.badRef f then some .badRef
    else if s.slots.all (fun x => !x.state.isFree) then some .noSlot
    else if 4 ≤ s.slots.countP (fun x => x.state.isQueued) then some .queueFull
    else none := by
  have hends : (s.jobOf f).request.source = (s.jobOf f).request.destination ↔ f.src = f.dst := BitVec.toNat_inj
  simp only [State.submitRefusal, f.request_read s hi, f.fieldBad_read hi, f.excludesEndpoint_read, f.tag_read, badRef_read, hends,
    List.not_any_eq_all_not, State.tagInUse, Config.queueDepth]
  rfl

/-- Settles O37: the checks are read off the fields of the payload, and the first that refuses answers. -/
theorem submitChecksRefuseInOrder : Obligations.SubmitChecksRefuseInOrder := by
  intro s f status h hi hstatus hok
  have hdecided : (s.submitRefusal f.payload).getD .ok = status := by
    rw [submitRefusal_read s hi, hstatus]
    simp only [apply_ite (Option.getD · Status.ok), Option.getD_some, Option.getD_none]
  have hrefused : State.submitRefusal (clockZeros (f.payload.length + 2) s) f.payload = some status := by
    change s.submitRefusal f.payload = some status
    cases hr : s.submitRefusal f.payload with
    | none => exact absurd (by rw [← hdecided, hr]; rfl) hok
    | some st => rw [← hdecided, hr]; rfl
  rw [exec_submit h hi, submit, hrefused]
  rfl

/-! ### A SUBMIT that passes -/

section
variable {s : State} {f : SubmitForm} {i : Nat} {x : Slot}

theorem submitRefusal_passes (hi : f.items.length < 16) (hl : s.dir.station ≠ .loading) (hf : s.dir.station ≠ .faulted)
    (hrange : f.outOfRange = false) (hends : f.src ≠ f.dst) (hexcl : f.excludesEndpoint = false)
    (hbudget : (s.classOf f.cls.toNat).budget ≠ 0) (htag : ∀ y ∈ s.slots, y.state.tag ≠ some f.tag.toNat) (href : s.badRef f = false)
    (hx : s.slot i = some x) (hfree : x.state = .free) (hroom : s.slots.countP (fun y => y.state.isQueued) < 4) :
    s.submitRefusal f.payload = none := by
  have htags : s.slots.any (fun y => y.state.tag == some f.tag.toNat) = false := by
    simpa using htag
  have hslot : s.slots.all (fun y => !y.state.isFree) = false := by
    rw [List.all_eq_false]
    exact ⟨x, List.mem_of_getElem? hx, by rw [hfree]; decide⟩
  rw [submitRefusal_read s hi]
  simp only [hl, hf, or_self, hrange, hends, hexcl, hbudget, htags, href, hslot, Nat.not_le.2 hroom, if_false, Bool.false_eq_true]

/-- The slot a SUBMIT takes is the lowest FREE one (R98). -/
theorem lowestFree (hx : s.slot i = some x) (hfree : x.state = .free) (hlow : ∀ k, k < i → s.slotState k ≠ some .free) :
    s.slots.findIdx? (fun y => y.state.isFree) = some i := by
  obtain ⟨hlt, he⟩ := List.getElem?_eq_some_iff.1 hx
  refine List.findIdx?_eq_some_iff_getElem.2 ⟨hlt, by rw [he, hfree]; rfl, fun k hk hn => hlow k hk ?_⟩
  have hslot : s.slot k = some (s.slots[k]'(hk.trans hlt)) := List.getElem?_eq_getElem (hk.trans hlt)
  rw [slotState_of_slot hslot, (isFree_iff _).1 hn]

/-- A SUBMIT that passes is answered with the slot, which joins the request queue and may start at once (R98, R100). -/
theorem submit_enqueues (hi : f.items.length < 16) (hpass : s.submitRefusal f.payload = none) (hx : s.slot i = some x)
    (hlow : s.slots.findIdx? (fun y => y.state.isFree) = some i) :
    submit f.payload s = startQueued (respondOk cmdSubmit [byte i] (s.enqueued i (s.jobOf f))) := by
  rw [submit, hpass]
  simp only [hlow, setIntent_setSlotState_eq _ _ hx, f.job_read s hi]
  rfl

theorem enqueued_turns (job : Job) (hx : s.slot i = some x) : Turns s (s.enqueued i job) i x { state := .queued job, intent := .none } :=
  ⟨hx, rfl, rfl⟩

/-- The slot a SUBMIT refers to holds a path, so it is not the one the SUBMIT takes (R98 check 8). -/
theorem diverse_path (hx : s.slot i = some x) (hfree : x.state = .free) (href : s.badRef f = false) {d : Byte} (hd : f.diverse = some d) :
    ∃ y hops, d.toNat ≠ i ∧ s.slot d.toNat = some y ∧ y.state.hops = some hops := by
  rw [State.badRef, hd, Option.any_some, slotState_eq] at href
  cases hy : s.slot d.toNat with
  | none => simp [show s.slots[d.toNat]? = none from hy] at href
  | some y =>
    rw [show s.slots[d.toNat]? = some y from hy, Option.map_some, Option.all_some, Option.isNone_eq_false_iff] at href
    obtain ⟨hops, hh⟩ := Option.isSome_iff_exists.1 href
    refine ⟨y, hops, ?_, rfl, hh⟩
    rintro rfl
    rw [hx, Option.some_inj] at hy
    rw [← hy, hfree] at hh
    cases hh

/-- The search of a taken SUBMIT keeps off the ends of the slot it refers to (R124, R125). -/
theorem diverse_enqueued (hx : s.slot i = some x) (hfree : x.state = .free) (href : s.badRef f = false) :
    (s.enqueued i (s.jobOf f)).diverseCopy (s.jobOf f).request = s.endsOf f ∧ (s.enqueued i (s.jobOf f)).refLost (s.jobOf f) = false := by
  cases hd : f.diverse with
  | none => simp [State.diverseCopy, State.refLost, State.endsOf, State.jobOf, hd]
  | some d =>
    obtain ⟨y, hops, hne, hy, hh⟩ := diverse_path hx hfree href hd
    have hu : ∀ job, (s.enqueued i job).slot d.toNat = some y := fun job => ((enqueued_turns job hx).slot_ne hne).trans hy
    have hs := slotState_of_slot hy
    refine ⟨?_, ?_⟩
    · rw [State.diverseCopy, State.endsOf, show (s.jobOf f).request.diverse = some d.toNat by simp [State.jobOf, hd], hd, Option.bind_some,
        Option.bind_some, hu, hs, Option.bind_some, hh]
      simp only [hh, Option.getD_some]
    · rw [State.refLost, show (s.jobOf f).request.diverse = some d.toNat by simp [State.jobOf, hd],
        show (s.jobOf f).refTag = y.state.tag by simp [State.jobOf, hd, hs]]
      simp only [hu, hh, Option.isSome_some, BEq.rfl, Bool.and_self, Bool.not_true]

/-- The other slots do not change with a slot. -/
theorem zipIdx_set_filter_ne {α : Type} (l : List α) (i k : Nat) (y : α) :
    ((l.set i y).zipIdx k).filter (fun z => z.2 != k + i) = (l.zipIdx k).filter fun z => z.2 != k + i := by
  induction l generalizing i k with
  | nil => rfl
  | cons a l ih =>
    cases i with
    | zero => simp [List.zipIdx_cons]
    | succ i =>
      have hi := ih i (k + 1)
      rw [show k + 1 + i = k + (i + 1) by omega] at hi
      rw [List.set_cons_succ, List.zipIdx_cons, List.zipIdx_cons, List.filter_cons, List.filter_cons, hi]

theorem otherIntentPairs_enqueued (s : State) (i : Nat) (job : Job) : (s.enqueued i job).otherIntentPairs i = s.otherIntentPairs i := by
  have h := zipIdx_set_filter_ne s.slots i 0 { state := .queued job, intent := .none }
  rw [Nat.zero_add] at h
  rw [State.otherIntentPairs, State.otherIntentPairs]
  exact congrArg (List.flatMap fun z => z.1.intent.standingPairs) h

theorem anyRunning_enqueued {job : Job} (hx : s.slot i = some x) (hfree : x.state = .free) :
    (s.enqueued i job).anyRunning = s.anyRunning := by
  have ht := enqueued_turns job hx
  rw [← Bool.not_inj_iff, Bool.eq_iff_iff, Bool.not_eq_true', Bool.not_eq_true', anyRunning_eq_false_iff, anyRunning_eq_false_iff]
  refine ⟨fun h m y hy => ?_, fun h m y hy => ?_⟩
  · by_cases hm : m = i
    · subst hm
      cases hx.symm.trans hy
      rw [hfree]
      rfl
    · exact h m y ((ht.slot_ne hm).trans hy)
  · by_cases hm : m = i
    · subst hm
      cases ht.slot_self.symm.trans hy
      rfl
    · exact h m y ((ht.slot_ne hm).symm.trans hy)

/-- The answered SUBMIT with its slot taken from the request queue again, for its start. -/
def State.answeredHead (s : State) (i : Nat) (job : Job) : State :=
  { respondOk cmdSubmit [byte i] (s.enqueued i job) with reqQueue := [] }

theorem setSlotState_answeredHead {job : Job} (st : SlotState) (hx : s.slot i = some x) (hq : s.reqQueue = []) :
    setSlotState i st (s.answeredHead i job)
      = respondOk cmdSubmit [byte i] { s with slots := s.slots.set i { state := st, intent := .none } } := by
  have hset : (s.answeredHead i job).slots.set i { state := st, intent := .none } = s.slots.set i { state := st, intent := .none } :=
    List.set_set _
  rw [setSlotState_eq st (s := s.answeredHead i job) (enqueued_turns job hx).slot_self, hset, State.answeredHead, ← hq]
  rfl

section
variable {job : Job} (hx : s.slot i = some x) (hfree : x.state = .free) (hidle : s.anyRunning = false) (hp : s.tdb.pendingEpoch = false)
  (hq : s.reqQueue = [])
include hx hfree hidle hp hq

/-- On an idle part the slot that has just joined the empty request queue runs, where the start checks pass (R100, R124, R125). -/
theorem enqueued_starts (hc : (s.enqueued i job).startCheck job = none) :
    startQueued (respondOk cmdSubmit [byte i] (s.enqueued i job)) = respondOk cmdSubmit [byte i] { s with
      slots := s.slots.set i { state := .running job s.tdb.epoch, intent := .none }
      pen := Pen.prepared i job.request.source ((s.enqueued i job).diverseCopy job.request) (s.otherIntentPairs i) } := by
  have ht := enqueued_turns job hx
  have hstart := startQueued_starts (s := respondOk cmdSubmit [byte i] (s.enqueued i job)) (rest := [])
    ((anyRunning_enqueued hx hfree).trans hidle) hp (congrArg (· ++ [i]) hq) ht.slotState_self hc
  have hset := setSlotState_answeredHead (job := job) (.running job s.tdb.epoch) hx hq
  rw [hstart, ← otherIntentPairs_enqueued s i job]
  exact congrArg (setPen _) hset

/-- It is FAILED where they do not (R101, R124). -/
theorem enqueued_fails {why : FailReason} (hc : (s.enqueued i job).startCheck job = some why) :
    startQueued (respondOk cmdSubmit [byte i] (s.enqueued i job)) = respondOk cmdSubmit [byte i] (raise .requestDone { s with
      slots := s.slots.set i { state := .failed job s.tdb.epoch why false, intent := .none } }) := by
  have ht := enqueued_turns job hx
  have hstart := startQueued_fails (s := respondOk cmdSubmit [byte i] (s.enqueued i job)) (rest := [])
    ((anyRunning_enqueued hx hfree).trans hidle) hp (congrArg (· ++ [i]) hq) ht.slotState_self hc rfl
  have hset := setSlotState_answeredHead (job := job) (.failed job s.tdb.epoch why false) hx hq
  rw [hstart]
  exact congrArg (raise .requestDone) hset

end

end

/-- Settles O38: the lowest FREE slot joins the request queue, and the start condition is judged. -/
theorem submitTakesTheLowestFreeSlot : Obligations.SubmitTakesTheLowestFreeSlot := by
  intro s f i x h hi hl hf hrange hends hexcl hbudget htag href hx hfree hlow hroom
  have hpass := submitRefusal_passes hi hl hf hrange hends hexcl hbudget htag href hx hfree hroom
  obtain ⟨hdiverse, hlost⟩ := diverse_enqueued hx hfree href
  have hexec : exec f.row s = .next (startQueued
      (respondOk cmdSubmit [byte i] (State.enqueued (clockZeros (f.payload.length + 2) s) i (s.jobOf f)))) :=
    (exec_submit h hi).trans (congrArg Host.Outcome.next (submit_enqueues hi hpass hx (lowestFree hx hfree hlow)))
  rw [hexec]
  refine ⟨fun hw => ?_, fun hidle hp hq hsrc hdst => ?_, fun hidle hp hq hends => ?_⟩
  · have hw' := hw.imp_left ((anyRunning_enqueued (job := s.jobOf f) hx hfree).trans ·)
    rw [startQueued_waits (s := respondOk cmdSubmit [byte i] (State.enqueued (clockZeros (f.payload.length + 2) s) i (s.jobOf f))) hw']
    rfl
  · have hc : (s.enqueued i (s.jobOf f)).startCheck (s.jobOf f) = none := startCheck_passes hsrc hdst hlost
    rw [enqueued_starts (s := clockZeros (f.payload.length + 2) s) hx hfree hidle hp hq hc, ← hdiverse]
    rfl
  · have hc : (s.enqueued i (s.jobOf f)).startCheck (s.jobOf f) = some .endpointUnknown :=
      if_pos (hends.imp Option.isNone_iff_eq_none.2 Option.isNone_iff_eq_none.2)
    rw [enqueued_fails (s := clockZeros (f.payload.length + 2) s) hx hfree hidle hp hq hc]
    rfl

end Sys2Proof.Machine
end

section
/-! # Path slots: the result watch of a transfer -/

namespace Sys2Proof.Machine

/-! ## The checks of the result watch (R105 to R109) -/

/-- An active peer-intent entry that counts holds the pair. -/
theorem peerHolds_iff (t : Tdb) (counts : PeerIntent → Bool) (pair : Pair) : peerHolds t counts pair = true
    ↔ ∃ p e, place t.activeIntents p = some e ∧ counts e = true ∧ pair ∈ e.pairs := by
  simp only [peerHolds, List.any_eq_true, Option.any_eq_true, Bool.and_eq_true, List.contains_iff_mem, place_some]
  constructor
  · rintro ⟨_, hx, e, rfl, hc, hp⟩
    obtain ⟨p, hp'⟩ := List.mem_iff_getElem?.1 hx
    exact ⟨p, e, hp', hc, hp⟩
  · rintro ⟨p, e, hx, hc, hp⟩
    exact ⟨_, List.mem_of_getElem? hx, e, rfl, hc, hp⟩

theorem outranks_iff (own : Uid) (priority : Nat) (u : Uid) (p : Nat) :
    outranks own priority u p = true ↔ priority < p ∨ p = priority ∧ u < own := by
  simp only [outranks, Bool.or_eq_true, Bool.and_eq_true, decide_eq_true_eq]

section
variable (s : State) (i : Nat) (x : Slot) (req : Request)

/-- The channel test of R107. -/
theorem freeForSlot_iff (sp : Span) (k : Nat) : freeForSlot s i x.intent req sp k = true ↔ s.freeFor i x req sp k := by
  have hcounts : ∀ e : PeerIntent,
      (if x.intent.stands then fun e : PeerIntent => outranks s.ownUid req.priority e.uid e.priority else fun _ => true) e = true
        ↔ (x.intent.stands = true → req.priority < e.priority ∨ e.priority = req.priority ∧ e.uid < s.ownUid) := fun e => by
    split
    · next hs => simp only [outranks_iff, hs, forall_const]
    · next hs => simp only [hs, Bool.false_eq_true, false_imp_iff]
  have hpeers : peerHolds s.tdb (if x.intent.stands then fun e => outranks s.ownUid req.priority e.uid e.priority else fun _ => true)
      (sp.pair k) = false ↔ ∀ p e, place s.tdb.activeIntents p = some e →
        (x.intent.stands = true → req.priority < e.priority ∨ e.priority = req.priority ∧ e.uid < s.ownUid) → sp.pair k ∉ e.pairs := by
    rw [← Bool.not_eq_true, peerHolds_iff]
    simp only [hcounts, not_exists, not_and]
  have hown : (s.otherIntentPairs i).contains (sp.pair k) = false ↔ ∀ m y, m ≠ i → s.standsIn m y → sp.pair k ∉ y.intent.pairs := by
    rw [← Bool.not_eq_true, List.contains_iff_mem, mem_otherIntentPairs]
    simp only [not_exists, not_and]
  simp only [freeForSlot, State.freeFor, channelCarried, Bool.and_eq_true, Bool.or_eq_true, Bool.not_eq_true', Option.any_eq_true, hpeers, hown,
    and_assoc]

/-- Checks 1 to 3 of R105 on a hop, by their reasons. -/
theorem hopFails_iff (h : Hop) (why : InvalidReason) : s.hopFails i x req h why ↔ hopFailure s i x.intent req h = some why := by
  unfold hopFailure
  cases hsp : hopSpan s.tdb h with
  | none => cases why <;> simp [State.hopFails, hsp]
  | some sp =>
    by_cases hd : sp.degraded = true ∧ req.allowDegraded = false
    · cases why <;> simp [State.hopFails, hsp, hd]
    · have hclear : sp.degraded = false ∨ req.allowDegraded = true := by
        rwa [not_and_or, Bool.not_eq_true, Bool.not_eq_false] at hd
      simp only [if_neg hd]
      by_cases hf : s.freeFor i x req sp h.channel
      · rw [if_pos ((freeForSlot_iff s i x req sp h.channel).2 hf)]
        cases why <;> simp [State.hopFails, hsp, hf, hd]
      · rw [if_neg (mt (freeForSlot_iff s i x req sp h.channel).1 hf)]
        cases why <;> simp [State.hopFails, hsp, hf, hd, hclear]

theorem hop_passes_iff (h : Hop) : (∀ w, ¬ s.hopFails i x req h w) ↔ hopFailure s i x.intent req h = none := by
  simp only [hopFails_iff, Option.eq_none_iff_forall_ne_some, ne_eq]

/-- The first hop that fails decides the reason (R105). -/
theorem pathFailure_hop {a b : List Hop} {h : Hop} {why : InvalidReason} (ha : ∀ g ∈ a, ∀ w, ¬ s.hopFails i x req g w)
    (hh : s.hopFails i x req h why) : pathFailure s i x.intent req (a ++ h :: b) = some why := by
  have hfirst : a.findSome? (hopFailure s i x.intent req) = none :=
    List.findSome?_eq_none_iff.2 fun g hg => (hop_passes_iff s i x req g).1 (ha g hg)
  have hfail := (hopFails_iff s i x req h why).1 hh
  simp only [pathFailure, List.findSome?_append, hfirst, Option.none_or, List.findSome?_cons, hfail]

/-- Check 4 of R105 fails: a segment exceeds its budget or its pass-throughs. -/
theorem segments_fail_iff (cls : ClassEntry) (segs : List (Nat × Nat)) :
    segs.all (segmentPasses cls) = false ↔ ∃ g ∈ segs, cls.budget < g.1 ∨ cls.maxPasses < g.2 := by
  simp only [List.all_eq_false, segmentPasses, Bool.and_eq_true, decide_eq_true_eq, not_and_or, Nat.not_le]

theorem segments_pass_iff (cls : ClassEntry) (segs : List (Nat × Nat)) :
    segs.all (segmentPasses cls) = true ↔ ∀ g ∈ segs, g.1 ≤ cls.budget ∧ g.2 ≤ cls.maxPasses := by
  simp only [List.all_eq_true, segmentPasses, Bool.and_eq_true, decide_eq_true_eq]

theorem latencyPasses_iff (cls : ClassEntry) (latency : Nat) :
    latencyPasses cls latency = true ↔ cls.maxLatency = 0 ∨ latency ≤ cls.maxLatency := by
  simp only [latencyPasses, Bool.or_eq_true, decide_eq_true_eq]

/-- Check 6 of R105 on one hop. -/
theorem regenPasses_iff (t : Tdb) (intent : Intent) (h : Hop) : regenPasses t intent h = true
    ↔ (h.regen = true → intent.isHeld = true ∨ ∃ p, reportUnder t.active h.src = some p ∧ 1 ≤ p.regens) := by
  simp only [regenPasses, Bool.or_eq_true, Bool.not_eq_true', Option.any_eq_true, decide_eq_true_eq, or_assoc]
  rw [← Bool.not_eq_true, ← imp_iff_not_or]

theorem regens_fail_iff (t : Tdb) (intent : Intent) (hops : List Hop) : hops.all (regenPasses t intent) = false
    ↔ ∃ h ∈ hops, h.regen = true ∧ intent.isHeld = false ∧ ∀ p, reportUnder t.active h.src = some p → p.regens = 0 := by
  simp only [List.all_eq_false, regenPasses_iff, Classical.not_imp, not_or, Bool.not_eq_true, not_exists, not_and, Nat.not_le, Nat.lt_one_iff]

section
variable {s i x req} {hops : List Hop} {cls : ClassEntry} {path : List Crossing} {segs : List (Nat × Nat)}
  (hpass : ∀ h ∈ hops, ∀ w, ¬ s.hopFails i x req h w) (hcls : cls = s.classOf req.cls) (hpath : path = crossings s.tdb hops)
  (hsegs : segs = sumSegments s.tdb cls path)
include hpass hcls hpath hsegs

/-- Where no hop fails, segments, latency and regenerators decide, in this order (R105). -/
theorem pathFailure_totals : pathFailure s i x.intent req hops =
    if segs.all (segmentPasses cls) = false then some .budgetExceeded
    else if latencyPasses cls (sumLatency path) = false then some .latencyExceeded
    else if hops.all (regenPasses s.tdb x.intent) = false then some .regenGone
    else none := by
  have hhops : hops.findSome? (hopFailure s i x.intent req) = none :=
    List.findSome?_eq_none_iff.2 fun h hh => (hop_passes_iff s i x req h).1 (hpass h hh)
  subst hcls hpath hsegs
  simp only [pathFailure, hhops, Bool.not_eq_true']

theorem pathFailure_budget (hb : ∃ g ∈ segs, cls.budget < g.1 ∨ cls.maxPasses < g.2) :
    pathFailure s i x.intent req hops = some .budgetExceeded := by
  rw [pathFailure_totals hpass hcls hpath hsegs, if_pos ((segments_fail_iff cls segs).2 hb)]

section
variable (hb : ∀ g ∈ segs, g.1 ≤ cls.budget ∧ g.2 ≤ cls.maxPasses)
include hb

theorem pathFailure_latency (hl : cls.maxLatency ≠ 0) (hlt : cls.maxLatency < sumLatency path) :
    pathFailure s i x.intent req hops = some .latencyExceeded := by
  have hlatency : ¬ latencyPasses cls (sumLatency path) = true := by
    rw [latencyPasses_iff, not_or]
    exact ⟨hl, Nat.not_le.2 hlt⟩
  rw [pathFailure_totals hpass hcls hpath hsegs, (segments_pass_iff cls segs).2 hb, if_neg (by decide),
    if_pos (Bool.eq_false_iff.2 hlatency)]

section
variable (hl : cls.maxLatency = 0 ∨ sumLatency path ≤ cls.maxLatency)
include hl

theorem pathFailure_regens (hr : ∃ h ∈ hops, h.regen = true ∧ x.intent.isHeld = false
    ∧ ∀ p, reportUnder s.tdb.active h.src = some p → p.regens = 0) : pathFailure s i x.intent req hops = some .regenGone := by
  rw [pathFailure_totals hpass hcls hpath hsegs, (segments_pass_iff cls segs).2 hb, if_neg (by decide), (latencyPasses_iff cls _).2 hl,
    if_neg (by decide), if_pos ((regens_fail_iff _ _ _).2 hr)]

theorem pathFailure_none (hr : ∀ h ∈ hops, h.regen = true → x.intent.isHeld = true
    ∨ ∃ p, reportUnder s.tdb.active h.src = some p ∧ 1 ≤ p.regens) : pathFailure s i x.intent req hops = none := by
  have hregens : hops.all (regenPasses s.tdb x.intent) = true := List.all_eq_true.2 fun h hh => (regenPasses_iff _ _ h).2 (hr h hh)
  rw [pathFailure_totals hpass hcls hpath hsegs, (segments_pass_iff cls segs).2 hb, if_neg (by decide), (latencyPasses_iff cls _).2 hl,
    if_neg (by decide), hregens, if_neg (by decide)]

end

end

end

end

/-! ## The result watch reads what it does not change -/

/-- The pairs of the other intents depend on the intents alone. -/
theorem otherIntentPairs_congr {s t : State} (h : t.slots.map Slot.intent = s.slots.map Slot.intent) (i : Nat) :
    t.otherIntentPairs i = s.otherIntentPairs i := by
  have of_intents : ∀ u : State, u.otherIntentPairs i
      = ((u.slots.map Slot.intent).zipIdx.filter fun z => z.2 != i).flatMap fun z => z.1.standingPairs := fun u => by
    rw [List.zipIdx_map, List.filter_map, List.flatMap_map]
    rfl
  rw [of_intents, of_intents, h]

theorem watchSlot_intent (s : State) (i : Nat) (x : Slot) : (watchSlot s i x).intent = x.intent := by
  rcases watchSlot_cases s i x with h | ⟨j, e, r, -, ⟨why, h⟩ | ⟨-, h⟩⟩
  all_goals rw [h]

theorem resultWatch_intents (s : State) : (resultWatch s).slots.map Slot.intent = s.slots.map Slot.intent := by
  refine List.ext_getElem? fun i => ?_
  rw [List.getElem?_map, List.getElem?_map, show (resultWatch s).slots[i]? = _ from resultWatch_slot s i, Option.map_map]
  exact congrArg (Option.map · s.slots[i]?) (funext fun x => watchSlot_intent s i x)

section
variable (s : State) (i : Nat) (intent : Intent) (req : Request)

theorem resultWatch_classOf (c : Nat) : (resultWatch s).classOf c = s.classOf c := by rw [State.classOf, State.classOf, resultWatch_psr]

theorem freeForSlot_resultWatch : freeForSlot (resultWatch s) i intent req = freeForSlot s i intent req := by
  funext sp k
  rw [freeForSlot, freeForSlot, otherIntentPairs_congr (resultWatch_intents s), resultWatch_tdb, resultWatch_classOf, State.ownUid,
    State.ownUid, resultWatch_psr]

theorem hopFailure_resultWatch : hopFailure (resultWatch s) i intent req = hopFailure s i intent req := by
  funext h
  rw [hopFailure, hopFailure, resultWatch_tdb, freeForSlot_resultWatch]

theorem pathFailure_resultWatch (hops : List Hop) :
    pathFailure (resultWatch s) i intent req hops = pathFailure s i intent req hops := by
  rw [pathFailure, pathFailure, hopFailure_resultWatch, resultWatch_tdb, resultWatch_classOf]

theorem refreshTotals_resultWatch (r : PathResult) : refreshTotals (resultWatch s) req r = refreshTotals s req r := by
  rw [refreshTotals, refreshTotals, resultWatch_tdb, resultWatch_classOf]

/-- The watch could as well read the state it leaves. -/
theorem watchSlot_resultWatch (x : Slot) : watchSlot (resultWatch s) i x = watchSlot s i x := by
  unfold watchSlot
  split
  · rw [pathFailure_resultWatch, refreshTotals_resultWatch]
  · rfl

end

/-! ## The transfer of an epoch expiry (R85, R89, R105) -/

/-- RESULT_INVALID is raised when a slot becomes INVALID, and by nothing else of the watch (R105). -/
theorem resultWatch_shows (s : State) : (resultWatch s).shows .resultInvalid
    ↔ (∃ i x, s.slot i = some x ∧ x.state.isInvalid = false ∧ (watchSlot s i x).state.isInvalid = true) ∨ s.shows .resultInvalid := by
  have hnewly : ((s.slots.zip (s.slots.zipIdx.map fun y => watchSlot s y.2 y.1)).any fun y =>
      !y.1.state.isInvalid && y.2.state.isInvalid) = true
      ↔ ∃ i x, s.slot i = some x ∧ x.state.isInvalid = false ∧ (watchSlot s i x).state.isInvalid = true := by
    have hafter : ∀ i, (s.slots.zipIdx.map fun y => watchSlot s y.2 y.1)[i]? = (s.slot i).map (watchSlot s i) := fun i => by
      rw [← resultWatch_slot, State.slot]
      simp [resultWatch]
    simp only [List.any_eq_true, List.mem_iff_getElem?, List.getElem?_zip_eq_some, hafter, Bool.and_eq_true, Bool.not_eq_true']
    constructor
    · rintro ⟨⟨x, y⟩, ⟨i, hx, hy⟩, hnot, hinv⟩
      have hslot : s.slot i = some x := hx
      rw [hslot, Option.map_some, Option.some_inj] at hy
      exact ⟨i, x, hslot, hnot, hy ▸ hinv⟩
    · rintro ⟨i, x, hx, hnot, hinv⟩
      exact ⟨(x, watchSlot s i x), ⟨i, hx, by rw [hx, Option.map_some]⟩, hnot, hinv⟩
  rw [resultWatch, raiseIf_shows, hnewly]
  simp only [and_true]
  rfl

/-- What an epoch expiry leaves when its transfer takes place with nothing queued (R85, R87, R89). -/
theorem expiry_transfers {s : State} {n : Nat} (hr : s.inReset = false) (ht : s.tdb.epochTimer = some n) (htr : s.tdb.transferring = false)
    (hd : s.tdb.dirty = true) (hidle : s.anyRunning = false) (hq : s.reqQueue = []) :
    exec .epochTimerExpiry s = .next (resultWatch s.periodBegun.viewed) := by
  have hqueue : (transfer s.periodBegun).reqQueue = [] := (transfer_reqQueue _).trans hq
  rw [exec_epochTimerExpiry hr, epochExpired_decided ht htr, decideExpiry_transfers (s := s.periodBegun) hd hidle, startQueued_empty hqueue,
    transfer_eq]

/-- Settles O33: the watch judges each slot by the ordered checks, on the view the transfer has made. -/
theorem resultWatchJudgesFoundSlots : Obligations.ResultWatchJudgesFoundSlots := by
  intro s n hr ht htr hd hidle hq
  have hslot : ∀ i, (resultWatch s.periodBegun.viewed).slot i = (s.slot i).map (watchSlot s.periodBegun.viewed i) :=
    resultWatch_slot s.periodBegun.viewed
  have hshows : s.periodBegun.viewed.shows .resultInvalid ↔ s.shows .resultInvalid := by
    rw [State.viewed, raise_shows]
    exact or_iff_right nofun
  refine ⟨_, expiry_transfers hr ht htr hd hidle hq, fun ⟨i, x, y, hx, hy, hnot, hinv⟩ => ?_, fun hnone => ?_, fun i x hx => ?_⟩
  · rw [hslot, hx, Option.map_some, Option.some_inj] at hy
    exact (resultWatch_shows _).2 (.inl ⟨i, x, hx, hnot, hy ▸ hinv⟩)
  · rw [resultWatch_shows, hshows]
    refine or_iff_right fun ⟨i, x, hx, hnot, hinv⟩ => ?_
    have hy := hnone i x _ hx ((hslot i).trans (congrArg _ hx)) hinv
    exact absurd (hnot.symm.trans hy) (by decide)
  · refine ⟨watchSlot s.periodBegun.viewed i x, (hslot i).trans (congrArg _ hx), watchSlot_intent _ i x, watchSlot_idle,
      fun j e r hst => ?_⟩
    rw [← watchSlot_resultWatch]
    generalize resultWatch s.periodBegun.viewed = t
    have invalid : ∀ {why}, pathFailure t i x.intent j.request r.hops = some why → (watchSlot t i x).state = .invalid j e r why :=
      fun hw => by rw [watchSlot_fails hst hw]
    refine ⟨fun a h b why hhops ha hh => invalid (by rw [hhops, pathFailure_hop t i x j.request ha hh]),
      fun hpass cls path segs hcls hpath hsegs => ⟨fun hb => invalid (pathFailure_budget hpass hcls hpath hsegs hb), fun hb =>
        ⟨fun hl hlt => invalid (pathFailure_latency hpass hcls hpath hsegs hb hl hlt), fun hl =>
          ⟨fun hg => invalid (pathFailure_regens hpass hcls hpath hsegs hb hl hg), fun hg => ?_⟩⟩⟩⟩
    rw [watchSlot_passes hst (pathFailure_none hpass hcls hpath hsegs hb hl hg), hsegs, hpath, hcls]
    rfl

end Sys2Proof.Machine
end

section
/-! # The path search: limits, order and states of the frontier -/

namespace Sys2Proof.Machine

/-! ## What one offer does to the frontier (R131, R137, R139) -/

/-- An offer leaves the frontier as it is, or places the label in a part of it; where no state stood twice, that part holds no label of
the same state. -/
theorem offer_frontier_cases (env : SearchEnv) (x : Reached) (p : Pen) :
    (env.offer x p).frontier = p.frontier
    ∨ ∃ l, l.Sublist p.frontier ∧ ((p.frontier.map fun y => y.state).Nodup → ∀ y ∈ l, y.state ≠ x.state)
        ∧ (env.offer x p).frontier = env.insert x l := by
  unfold SearchEnv.offer
  split
  · exact .inl rfl
  · split
    · split
      · exact .inr ⟨_, removeFirst_sublist _ _, fun hn => removeFirst_state_ne hn x.state, rfl⟩
      · exact .inl rfl
    · next hf =>
      have absent : ∀ y ∈ p.frontier, y.state ≠ x.state := fun y hy he => List.find?_eq_none.1 hf y hy (beq_of_eq he)
      split
      · exact .inr ⟨_, List.Sublist.refl _, fun _ => absent, rfl⟩
      · split
        · split
          · exact .inr ⟨_, List.dropLast_sublist _, fun _ y hy => absent y (List.mem_of_mem_dropLast hy), rfl⟩
          · exact .inl rfl
        · exact .inl rfl

/-- A label placed by its key stands before the first label it is better than, so nothing after it is better (R131, R133). -/
theorem insert_ordered {env : SearchEnv} {l : List Reached} (x : Reached) (h : env.ordered l) : env.ordered (env.insert x l) := by
  induction l with
  | nil => exact List.pairwise_singleton _ x
  | cons y l ih =>
    obtain ⟨hy, hl⟩ := List.pairwise_cons.1 h
    unfold SearchEnv.insert
    split
    · next hxy =>
      have behind : ∀ z, env.better z y = false → env.better z x = false := fun z hzy =>
        Bool.eq_false_iff.2 fun hzx => Bool.eq_false_iff.1 hzy (better_trans _ _ _ hzx hxy)
      refine List.pairwise_cons.2 ⟨List.forall_mem_cons.2 ⟨behind y (better_irrefl _), fun z hz => behind z (hy z hz)⟩, h⟩
    · next hxy =>
      refine List.pairwise_cons.2 ⟨fun z hz => ?_, ih hl⟩
      rcases (mem_insert env x z l).1 hz with rfl | hz
      · exact Bool.eq_false_iff.2 hxy
      · exact hy z hz

theorem offer_ordered {env : SearchEnv} {p : Pen} (x : Reached) (h : env.ordered p.frontier) : env.ordered (env.offer x p).frontier := by
  rcases offer_frontier_cases env x p with heq | ⟨l, hl, -, heq⟩
  · exact heq ▸ h
  · exact heq ▸ insert_ordered x (h.sublist hl)

theorem offer_states_nodup {p : Pen} (env : SearchEnv) (x : Reached) (h : (p.frontier.map fun y => y.state).Nodup) :
    ((env.offer x p).frontier.map fun y => y.state).Nodup := by
  rcases offer_frontier_cases env x p with heq | ⟨l, hl, hout, heq⟩
  · exact heq ▸ h
  · have hx : x.state ∉ l.map fun y => y.state := fun hm =>
      have ⟨y, hy, he⟩ := List.mem_map.1 hm
      hout h y hy he
    rw [heq, (insert_states_perm env x l).nodup_iff]
    exact List.nodup_cons.2 ⟨hx, (hl.map _).nodup h⟩

/-- The frontier after an offer holds the label offered and labels it held before. -/
theorem mem_offer {env : SearchEnv} {x y : Reached} {p : Pen} (h : y ∈ (env.offer x p).frontier) : y = x ∨ y ∈ p.frontier := by
  rcases offer_frontier_cases env x p with heq | ⟨l, hl, -, heq⟩
  · exact .inr (heq ▸ h)
  · exact ((mem_insert env x y l).1 (heq ▸ h)).imp_right fun hy => hl.subset hy

/-! ## The labels that the work offers (R134 to R138) -/

/-- The labels that the work on the settled label `e` can offer: extensions that R136 does not refuse, and the regeneration where R138
allows it. -/
inductive SearchEnv.Offers (env : SearchEnv) (e : Reached) : Label → Prop
  | extension {stations : List Nat} {d w k : Nat} {sp : Span} : ¬ env.refuses stations w (env.extend e d sp k) = true →
      env.Offers e (env.extend e d sp k)
  | regeneration : env.mayRegenerate e = true → env.Offers e (env.regenerate e)

/-- The work is a run of offers: what each of them keeps, the work keeps (R134). -/
theorem work_keeps {env : SearchEnv} {e : Reached} {p : Pen} {P : Pen → Prop} (hp : P p)
    (hoffer : ∀ x q, env.Offers e x.label → P q → P (env.offer x q)) : P (env.work e p) := by
  have extended : P ((env.leaving e.state.station).foldl (env.extendOver e ((p.chainOf e).map fun y => y.state.station)) p) :=
    List.foldlRecOn _ _ hp fun q hq way _ => List.foldlRecOn _ _ hq fun u hu k _ => by
      dsimp only
      split
      · exact hu
      · next hr => exact hoffer _ u (.extension hr) hu
  unfold SearchEnv.work SearchEnv.offerRegen
  dsimp only
  split
  · next hm => exact hoffer _ _ (.regeneration hm) extended
  · exact extended

/-- The checks of R136 hold an extension to the limits; a regeneration starts a new segment, one regeneration more (R116, R138). -/
theorem SearchEnv.Offers.withinLimits {env : SearchEnv} {e : Reached} {l : Label} (h : env.Offers e l)
    (he : e.label.withinLimits env.cls) : l.withinLimits env.cls := by
  obtain ⟨-, -, hlatency, hhops, hregens⟩ := he
  cases h with
  | extension hr =>
    simp only [SearchEnv.refuses, Bool.or_eq_true, Bool.and_eq_true, decide_eq_true_eq, not_or, not_and, Nat.not_lt] at hr
    obtain ⟨⟨⟨⟨-, hhops⟩, hnoise⟩, hpasses⟩, hlatency⟩ := hr
    exact ⟨hnoise, hpasses, or_iff_not_imp_left.2 hlatency, hhops, hregens⟩
  | regeneration hm =>
    simp only [SearchEnv.mayRegenerate, Bool.and_eq_true, decide_eq_true_eq] at hm
    obtain ⟨-, hregens⟩ := hm
    exact ⟨Nat.zero_le _, Nat.zero_le _, hlatency, hhops, hregens⟩

/-! ## The work of a settlement -/

/-- Settles O41: each label the work offers is within the limits, and each offer keeps the frontier's order, its bound and its states
single. -/
theorem searchKeepsTheFrontier : Obligations.SearchKeepsTheFrontier := by
  constructor
  · intro env e p he hp
    refine work_keeps (P := fun q => ∀ y ∈ q.frontier, y.label.withinLimits env.cls) hp fun x q hx hq y hy => ?_
    rcases mem_offer hy with rfl | hy
    · exact hx.withinLimits he
    · exact hq y hy
  · intro env e p hord hlen hnodup
    exact ⟨work_keeps (P := fun q => env.ordered q.frontier) hord fun x q _ hq => offer_ordered x hq,
      work_frontier env e p hlen,
      work_keeps (P := fun q => (q.frontier.map fun y => y.state).Nodup) hnodup fun x q _ hq => offer_states_nodup env x hq⟩

end Sys2Proof.Machine
end

section
/-! # The path search: what one settlement makes of the slot that is searched -/

namespace Sys2Proof.Machine

/-! ## The RUNNING slot completes (R88, R100, R101) -/

theorem transfer_shown (s : State) : Shown s (transfer s) := fun k hk =>
  (raiseIf_shows _ _ k _).2 (.inr ((raise_shows .epoch k _).2 (.inr hk)))

theorem leftRunning_shown (s : State) : Shown s (leftRunning s) := by
  unfold leftRunning
  split
  · exact fun k hk => judgeStart_shown _ _ k (transfer_shown s k hk)
  · exact judgeStart_shown _ s

/-- A slot that no start and no result watch takes up stands when another leaves RUNNING (R100, R105). -/
theorem leftRunning_slot {s : State} {k : Nat} {x : Slot} (h : s.slot k = some x) (hq : x.state.isQueued = false)
    (hf : ∀ j e r, x.state ≠ .found j e r) : (leftRunning s).slot k = some x := by
  have hw : s.transferredIfPending.slot k = some x := by
    rcases transferredIfPending_slot s k with hk | hk
    · exact hk.trans h
    · rw [hk, h, Option.map_some, watchSlot_idle hf]
  exact judgeStart_slot hq _ _ hw

/-- The slot `i` holds its completion `st` and the search has ended; what follows when a slot leaves RUNNING has yet to follow (R101). -/
def State.completed (s : State) (i : Nat) (x : Slot) (st : SlotState) : State :=
  raise .requestDone { s with slots := s.slots.set i { x with state := st }, pen := s.pen.ended }

theorem complete_shows (i : Nat) (st : SlotState) (s : State) : (complete i st s).shows .requestDone :=
  leftRunning_shown _ _ ((raise_shows _ _ _).2 (.inl rfl))

section
variable {s : State} {i : Nat} {x : Slot} (hx : s.slot i = some x) (st : SlotState)
include hx

theorem complete_eq : complete i st s = leftRunning (s.completed i x st) := by
  rw [complete, setSlotState_eq (s := setPen s.pen.ended s) st hx]
  rfl

theorem completed_turns : Turns s (s.completed i x st) i x { x with state := st } := ⟨hx, rfl, rfl⟩

/-- Nothing waits for the search to end. -/
theorem complete_idle (hp : s.tdb.pendingEpoch = false) (hq : s.reqQueue = []) : complete i st s = s.completed i x st := by
  rw [complete_eq hx, leftRunning_idle (s := s.completed i x st) hp hq]

/-- A failure stands, whatever follows the end of its search (R101). -/
theorem complete_slotState_failed (j : Job) (e : BitVec 16) (why : FailReason) (pruned : Bool) :
    (complete i (.failed j e why pruned) s).slotState i = some (.failed j e why pruned) := by
  have hslot := (completed_turns hx (.failed j e why pruned)).slot_self
  rw [complete_eq hx]
  exact slotState_of_slot (leftRunning_slot hslot rfl nofun)

/-- The completion is one that neither waits nor runs: a pending transfer takes place, then the head of the request queue starts. -/
theorem complete_leftRunningTo {j : Job} {e : BitVec 16} (hrun : x.state = .running j e) (hq : st.isQueued = false)
    (hr : st.isRunning = false) : s.leftRunningTo (complete i st s) i := by
  have ht := completed_turns hx st
  rw [complete_eq hx]
  refine leftRunning_leftRunningTo rfl rfl (fun m hm => ht.slot_ne hm) (fun st' hs => ?_) fun job hn => ?_
  · obtain rfl : st = st' := Option.some.inj (ht.slotState_self.symm.trans hs)
    exact ⟨hq, hr⟩
  · rw [slotState_of_slot hx, hrun] at hn
    cases hn

end

/-! ## One settlement (R134, R140, R141) -/

/-- A SETTLEMENT works on the search of the slot that runs (R123, R134). -/
theorem exec_settlement_of_running {s : State} {i : Nat} {x : Slot} {j : Job} {ep : BitVec 16} (hreset : s.inReset = false)
    (hs : s.pen.searching = some i) (hx : s.slot i = some x) (hrun : x.state = .running j ep) :
    exec .settlement s = .next (settleSlot i j ep s) := by
  have hi : s.slotState i = some (.running j ep) := by rw [slotState_of_slot hx, hrun]
  have hsettle : settle s = settleSlot i j ep s := by simp only [settle, hs, hi]
  exact congrArg Host.Outcome.next ((live_of_running settle s hreset).trans hsettle)

section
variable (i : Nat) (j : Job) (ep : BitVec 16) {s : State}

theorem settleSlot_of_empty (hf : s.pen.frontier = []) :
    settleSlot i j ep s = complete i (.failed j ep .noPath s.pen.pruned) s := by simp only [settleSlot, hf]

section
variable {e : Reached} {rest : List Reached} (hf : s.pen.frontier = e :: rest)
include hf

theorem settleSlot_of_destination (hd : e.state.station = j.request.destination) : settleSlot i j ep s =
    complete i (.found j ep (pathOf (s.classOf j.request.cls) (s.pen.settle e rest) e))
      (setPen { s.pen.settle e rest with frontier := [] } s) := by simp only [settleSlot, hf, hd, if_true]

theorem settleSlot_of_other (hd : e.state.station ≠ j.request.destination) : settleSlot i j ep s =
    (let q := (s.searchEnv j).work e (s.pen.settle e rest)
    if q.frontier.isEmpty then complete i (.failed j ep .noPath q.pruned) (setPen q s) else setPen q s) := by
  simp only [settleSlot, hf, hd, if_false]

end

end

/-- Settles O40: what a settlement leaves by the frontier's best label where nothing waits, and what follows an end of the search where
an epoch or a request waits. -/
theorem settlementEndsOrWorksFromTheBestLabel : Obligations.SettlementEndsOrWorksFromTheBestLabel := by
  constructor
  · intro s i x j ep hreset hs hx hrun hq hp
    rw [exec_settlement_of_running hreset hs hx hrun]
    refine ⟨fun hf => ?empty, fun e rest p hf hpen => ?_⟩
    case empty =>
      rw [settleSlot_of_empty i j ep hf, complete_idle hx _ hp hq]
      rfl
    obtain rfl : p = s.pen.settle e rest := hpen
    have ended : ∀ st q, complete i st (setPen q s) = (setPen q s).completed i x st := fun st q =>
      complete_idle (s := setPen q s) hx st hp hq
    refine ⟨fun hd => ⟨_, rfl, ?found⟩, fun hd hne => ?worksOn, fun hd he => ⟨_, rfl, ?emptied⟩⟩
    case found =>
      rw [settleSlot_of_destination i j ep hf hd]
      refine ⟨complete_shows _ _ _, ?_⟩
      rw [ended]
      exact ⟨rfl, rfl, rfl, rfl, rfl, rfl⟩
    case worksOn =>
      rw [settleSlot_of_other i j ep hf hd]
      exact congrArg Host.Outcome.next (if_neg fun he => hne (List.isEmpty_iff.1 he))
    case emptied =>
      have hend := (settleSlot_of_other i j ep hf hd).trans (if_pos (List.isEmpty_iff.2 he))
      rw [hend]
      refine ⟨complete_shows _ _ _, ?_⟩
      rw [ended]
      rfl
  · intro s i x j ep hreset hs hx hrun
    rw [exec_settlement_of_running hreset hs hx hrun]
    refine ⟨fun hf => ⟨_, rfl, ?empty⟩, fun e rest hf hd => ⟨_, rfl, ?found⟩⟩
    case empty =>
      rw [settleSlot_of_empty i j ep hf]
      exact ⟨complete_shows _ _ _, complete_slotState_failed hx j ep .noPath _, complete_leftRunningTo hx _ hrun rfl rfl⟩
    case found =>
      rw [settleSlot_of_destination i j ep hf hd]
      exact ⟨complete_shows _ _ _,
        complete_leftRunningTo (s := setPen { s.pen.settle e rest with frontier := [] } s) hx _ hrun rfl rfl⟩

end Sys2Proof.Machine
end

section
/-! # Channel intents: commitment, timers, withdrawal, comparison with peers -/

namespace Sys2Proof.Machine

/-! ## The intent of a slot that holds a known record -/

section
variable {s : State} {i : Nat} {x : Slot}

theorem setIntent_turns (hx : s.slot i = some x) (t : Intent) : Turns s (setIntent i t s) i x { x with intent := t } :=
  ⟨hx, by rw [setIntent_eq i t s x hx], rfl⟩

theorem announce_standing (h : s.standsIn i x) : announce i s = handOver (.intent i x.intent.priority x.intent.pairs) s := by
  simp only [announce, h.1, h.2, if_true]

/-- An intent that is set and stands is announced with its own priority and pairs (R148). -/
theorem announce_setIntent (hx : s.slot i = some x) {t : Intent} (ht : t.stands = true) :
    announce i (setIntent i t s) = handOver (.intent i t.priority t.pairs) { s with slots := s.slots.set i { x with intent := t } } := by
  rw [announce_standing ⟨(setIntent_turns hx t).slot_self, ht⟩, setIntent_eq i t s x hx]

theorem endIntent_standing (h : s.standsIn i x) :
    endIntent i s = handOverPlain (.release i) { s with slots := s.slots.set i { x with intent := .none } } := by
  simp only [endIntent, h.1, h.2, if_true, announceRelease, setIntent_eq i .none s x h.1]

theorem refreshIntent_standing (h : s.standsIn i x) :
    refreshIntent i s = announce i (setIntent i (x.intent.refreshed s.intentPeriod) s) := by
  simp only [refreshIntent, h.1, h.2, if_true]

end

/-! ## Hand-overs and the zeros on data-out (R159) -/

theorem loseIntent_clockZeros (i : Nat) (why : LostReason) (n : Nat) (s : State) :
    loseIntent i why (clockZeros n s) = clockZeros n (loseIntent i why s) := by
  unfold loseIntent
  rw [show (clockZeros n s).slot i = s.slot i from rfl]
  split
  · split <;> rfl
  · rfl

theorem notSent_clockZeros (i p : Nat) (ps : List Pair) (n : Nat) (s : State) :
    notSent i p ps (clockZeros n s) = clockZeros n (notSent i p ps s) := by
  unfold notSent
  rw [show reportMatches i p ps (clockZeros n s) = reportMatches i p ps s from rfl]
  split
  · rw [loseIntent_clockZeros, handOverPlain_clockZeros]
  · rfl

theorem handOver_clockZeros (f : Body) (n : Nat) (s : State) : handOver f (clockZeros n s) = clockZeros n (handOver f s) := by
  unfold handOver
  rw [handOverPlain_clockZeros, show (clockZeros n s).transmits = s.transmits from rfl, clockZeros_sct]
  dsimp only
  split
  · split
    · exact notSent_clockZeros ..
    · rfl
  · rfl

/-! ## COMMIT INTENT (R146 to R148, R150) -/

section
variable {s : State} {i : Byte} {x : Slot} (hx : s.slot i.toNat = some x)
include hx

theorem commitIntent_outside (hm : s.dir.station ≠ .member) : commitIntent [i] s = refuse cmdCommitIntent .notMember s := by
  simp only [commitIntent, payloadByte_single, hx, hm, ne_eq, not_false_eq_true, if_true]

theorem commitIntent_badState (hm : s.dir.station = .member) (h : (∀ j e r, x.state ≠ .found j e r) ∨ x.intent.stands = true) :
    commitIntent [i] s = refuse cmdCommitIntent .badState s := by
  simp only [commitIntent, payloadByte_single, hx, hm, ne_eq, not_true_eq_false, if_false]
  cases hst : x.state with
  | found j e r => exact if_pos (h.resolve_left fun hn => hn j e r hst)
  | free | queued | running | invalid | failed => rfl

theorem commitIntent_found (hm : s.dir.station = .member) {j : Job} {e : BitVec 16} {r : PathResult} (hst : x.state = .found j e r)
    (hn : x.intent.stands = false) : commitIntent [i] s =
      if (pathPairs s.tdb r.hops).any (s.otherIntentPairs i.toNat).contains then refuse cmdCommitIntent .overlap s
      else claimPath i.toNat j.request.priority (pathPairs s.tdb r.hops) s := by
  simp only [commitIntent, payloadByte_single, hx, hm, hst, hn, ne_eq, not_true_eq_false, if_false, Bool.false_eq_true]

end

/-- A path overlaps when it shares a pair with a standing intent of another slot (R147). -/
theorem overlaps_iff (s : State) (i : Nat) (ps : List Pair) : ps.any (s.otherIntentPairs i).contains = true ↔
    ∃ k y p, k ≠ i ∧ s.standsIn k y ∧ p ∈ y.intent.pairs ∧ p ∈ ps := by
  simp only [List.any_eq_true, List.contains_iff_mem, mem_otherIntentPairs]
  constructor
  · rintro ⟨p, hp, k, y, hk, hy, hpy⟩
    exact ⟨k, y, p, hk, hy, hpy, hp⟩
  · rintro ⟨k, y, p, hk, hy, hpy, hp⟩
    exact ⟨p, hp, k, y, hk, hy, hpy⟩

/-- The claim of a path during the transaction that asks for it. -/
theorem claimPath_clockZeros {s : State} {i : Nat} {x : Slot} (hx : s.slot i = some x) (pr : Nat) (ps : List Pair) (n : Nat) :
    claimPath i pr ps (clockZeros n s) = State.answered (handOver (.intent i pr ps) { s with slots := s.slots.set i { x with
      intent := .claiming pr ps none s.intentPeriod } }) n cmdCommitIntent .ok false [] := by
  have hann : announce i (startClaim i pr ps (clockZeros n s)) = handOver (.intent i pr ps) (clockZeros n { s with
      slots := s.slots.set i { x with intent := .claiming pr ps none s.intentPeriod } }) :=
    announce_setIntent (s := clockZeros n s) hx rfl
  rw [claimPath, hann, handOver_clockZeros]
  rfl

/-- Settles O42: the refusals in their order, then the claim. -/
theorem commitIntentClaimsThePath : Obligations.CommitIntentClaimsThePath := by
  intro s i x hl hx
  have hexec : exec (.commitIntent [1, i]) s = .next (commitIntent [i] (clockZeros 3 s)) :=
    congrArg Host.Outcome.next (takeCommand_slot _ commitIntent i hl)
  have hz : (clockZeros 3 s).slot i.toNat = some x := hx
  rw [hexec]
  refine ⟨fun hm => ?notMember, fun hm h => ?badState, fun j e r ps hm hst hn hps => ?found⟩
  case notMember =>
    rw [commitIntent_outside hz hm]
    rfl
  case badState =>
    rw [commitIntent_badState hz hm h]
    rfl
  case found =>
    obtain rfl : ps = pathPairs s.tdb r.hops := hps
    have hover := overlaps_iff s i.toNat (pathPairs s.tdb r.hops)
    have hfound := commitIntent_found hz hm hst hn
    refine ⟨fun h => ?_, fun h => ?_⟩
    · rw [hfound]
      exact congrArg Host.Outcome.next (if_pos (hover.2 h))
    · have hfree : ¬ (pathPairs s.tdb r.hops).any (s.otherIntentPairs i.toNat).contains = true := fun hc => by
        obtain ⟨k, y, p, hk, hy, hpy, hp⟩ := hover.1 hc
        exact h k y p hk hy hpy hp
      rw [hfound]
      exact congrArg Host.Outcome.next ((if_neg hfree).trans (claimPath_clockZeros hx _ _ 3))

/-! ## The timers of an intent, WITHDRAW (R149, R150, R155) -/

theorem exec_windowTimerExpiry {s : State} (i : Nat) (hr : s.inReset = false) :
    exec (.windowTimerExpiry i) s = .next (windowExpired i s) := congrArg Host.Outcome.next (live_of_running _ s hr)

theorem exec_intentRefreshExpiry {s : State} (i : Nat) (hr : s.inReset = false) :
    exec (.intentRefreshExpiry i) s = .next (refreshIntent i s) := congrArg Host.Outcome.next (live_of_running _ s hr)

section
variable {s : State} {x : Slot}

theorem windowExpired_claiming {i p w r : Nat} {ps : List Pair} (hx : s.slot i = some x) (hi : x.intent = .claiming p ps (some w) r) :
    windowExpired i s = raise .intentHeld { s with slots := s.slots.set i { x with intent := .held p ps r } } := by
  simp only [windowExpired, hx, hi, setIntent_eq i _ s x hx]

/-- The refresh timer of a standing intent expires (R150): the next period runs, and the intent is announced. -/
theorem exec_refresh_standing {i : Nat} {t : Intent} (hr : s.inReset = false) (hx : s.slot i = some x) (hst : x.intent.stands = true)
    (ht : x.intent.refreshed s.intentPeriod = t) (hts : t.stands = true) : exec (.intentRefreshExpiry i) s =
      .next (handOver (.intent i t.priority t.pairs) { s with slots := s.slots.set i { x with intent := t } }) := by
  rw [exec_intentRefreshExpiry i hr, refreshIntent_standing ⟨hx, hst⟩, ht, announce_setIntent hx hts]

variable {i : Byte}

theorem withdraw_standing (h : s.standsIn i.toNat x) : withdraw [i] s = respondOk cmdWithdraw []
    (handOverPlain (.release i.toNat) { s with slots := s.slots.set i.toNat { x with intent := .none } }) := by
  rw [← endIntent_standing h]
  simp only [withdraw, payloadByte_single, h.1, h.2, if_true]

theorem withdraw_refused (hx : s.slot i.toNat = some x) (h : x.intent.stands = false) :
    withdraw [i] s = refuse cmdWithdraw .badState s := by
  simp only [withdraw, payloadByte_single, hx, h, Bool.false_eq_true, if_false]

end

/-- Settles O43: the window's expiry, the refresh of a HELD and of a CLAIMING intent, and WITHDRAW with and without a standing intent. -/
theorem intentTimersAndWithdraw : Obligations.IntentTimersAndWithdraw := by
  intro s i x p ps r hx
  have hwithdraw : s.listens → exec (.withdraw [1, i]) s = .next (withdraw [i] (clockZeros 3 s)) := fun hl =>
    congrArg Host.Outcome.next (takeCommand_slot _ withdraw i hl)
  have hz : (clockZeros 3 s).slot i.toNat = some x := hx
  refine ⟨fun w hr hi => ?window, fun hr hi => ?held, fun w hr hi => ?claiming, fun hl hst => ?withdrawn, fun hl hst => ?refused⟩
  case window => rw [exec_windowTimerExpiry _ hr, windowExpired_claiming hx hi]
  case held => exact exec_refresh_standing hr hx (by rw [hi]; rfl) (by rw [hi]; rfl) rfl
  case claiming => exact exec_refresh_standing hr hx (by rw [hi]; rfl) (by rw [hi]; rfl) rfl
  case withdrawn =>
    rw [hwithdraw hl, withdraw_standing ⟨hz, hst⟩]
    exact congrArg (fun u => Host.Outcome.next (respondOk cmdWithdraw [] u)) (handOverPlain_clockZeros (.release i.toNat) 3
      { s with slots := s.slots.set i.toNat { x with intent := .none } })
  case refused =>
    rw [hwithdraw hl, withdraw_refused hz hst]
    rfl

/-! ## Rank (R152) -/

/-- Of two intents of different unique IDs one outranks the other, and one only. -/
theorem outranks_antisymm (u v : Uid) (p q : Nat) (h : u ≠ v) : outranks u p v q = !outranks v q u p := by
  have hne : u.toNat ≠ v.toNat := fun he => h (BitVec.eq_of_toNat_eq he)
  rw [Bool.eq_iff_iff, Bool.not_eq_true', ← Bool.not_eq_true, outranks_iff, outranks_iff, BitVec.lt_def, BitVec.lt_def]
  omega

/-! ## What acts on the intent of one slot only -/

/-- The INTENT frames of the intent id `i` that are queued. -/
def State.intentsOf (s : State) (i : Nat) : List Body := s.sct.queue.filter (Body.isIntentOf i)

theorem mem_intentsOf (s : State) (i p : Nat) (ps : List Pair) : .intent i p ps ∈ s.intentsOf i ↔ .intent i p ps ∈ s.sct.queue := by
  simp [State.intentsOf, Body.isIntentOf]

theorem intentsOf_congr {s t : State} (h : t.sct = s.sct) (i : Nat) : t.intentsOf i = s.intentsOf i := by
  rw [State.intentsOf, h, State.intentsOf]

theorem not_intentOf_of_report (i : Nat) (x : Body) (h : x.isReport = true) : x.isIntentOf i = false := by
  obtain ⟨r, rfl⟩ := (isReport_iff x).1 h
  rfl

theorem not_intentOf_of_claim (i : Nat) (x : Body) (h : x.isClaim = true) : x.isIntentOf i = false := by
  obtain ⟨r, m, rfl⟩ := (isClaim_iff x).1 h
  rfl

theorem not_intentOf_of_other {i k : Nat} (hk : k ≠ i) (x : Body) (h : x.isIntentOf k = true) : x.isIntentOf i = false := by
  obtain ⟨p, ps, rfl⟩ := (isIntentOf_iff k x).1 h
  simpa [Body.isIntentOf] using hk

theorem enqueueNew_intentsOf {i : Nat} (q : List Body) {f : Body} (h : f.isIntentOf i = false) :
    (enqueueNew q f).1.filter (Body.isIntentOf i) = q.filter (Body.isIntentOf i) := by
  unfold enqueueNew
  split
  · simp [h]
  · split
    · rfl
    · split
      · simp [h, filter_removeFirst _ _ (not_intentOf_of_report i)]
      · rfl

/-- A frame queued leaves the queued INTENTs of every id but its own (R9). -/
theorem enqueue_intentsOf {i : Nat} (q : List Body) {f : Body} (h : f.isIntentOf i = false) (hr : f ≠ .release i) :
    (enqueue q f).1.filter (Body.isIntentOf i) = q.filter (Body.isIntentOf i) := by
  have hnew := enqueueNew_intentsOf q h
  cases f with
  | claim r m =>
    unfold enqueue
    dsimp only
    split
    · exact filter_replaceFirst _ _ _ (not_intentOf_of_claim i) h q
    · exact hnew
  | report r =>
    unfold enqueue
    dsimp only
    split
    · exact filter_replaceFirst _ _ _ (not_intentOf_of_report i) h q
    · exact hnew
  | intent k p ps =>
    have hk : k ≠ i := by simpa [Body.isIntentOf] using h
    unfold enqueue
    dsimp only
    split
    · exact filter_replaceFirst _ _ _ (not_intentOf_of_other hk) h q
    · exact hnew
  | release k =>
    have hk : k ≠ i := fun e => hr (e ▸ rfl)
    unfold enqueue
    dsimp only
    split
    · simp [h, filter_removeFirst _ _ (not_intentOf_of_other hk)]
    · exact hnew

/-- The passage from `s` to `t` acts on the intent `k` only: the other slots and the other queued INTENTs stand. -/
structure ActsOnIntent (k : Nat) (s t : State) : Prop where
  slots : SameOtherSlots s t k
  queued : ∀ i, i ≠ k → t.intentsOf i = s.intentsOf i

namespace ActsOnIntent

variable {k : Nat} {s t u : State}

theorem refl (k : Nat) (s : State) : ActsOnIntent k s s := ⟨fun _ _ => rfl, fun _ _ => rfl⟩

theorem trans (h : ActsOnIntent k s t) (g : ActsOnIntent k t u) : ActsOnIntent k s u :=
  ⟨fun i hi => (g.slots i hi).trans (h.slots i hi), fun i hi => (g.queued i hi).trans (h.queued i hi)⟩

end ActsOnIntent

theorem loseIntent_acts (k : Nat) (why : LostReason) (s : State) : ActsOnIntent k s (loseIntent k why s) := by
  refine ⟨fun i hi => ?_, fun i _ => intentsOf_congr (loseIntent_sct ..) i⟩
  unfold loseIntent
  split
  · next x hx =>
    split
    · exact (setIntent_turns hx _).slot_ne hi
    · rfl
  · rfl

theorem handOverPlain_acts {k : Nat} {f : Body} (hf : ∀ i, i ≠ k → f.isIntentOf i = false ∧ f ≠ .release i) (s : State) :
    ActsOnIntent k s (handOverPlain f s) := by
  by_cases ht : s.transmits = true
  · refine ⟨fun i _ => by rw [State.slot, handOverPlain_slots, State.slot], fun i hi => ?_⟩
    rw [State.intentsOf, handOverPlain_queue f s ht]
    exact enqueue_intentsOf _ (hf i hi).1 (hf i hi).2
  · rw [handOverPlain_idle f s (Bool.eq_false_iff.2 ht)]
    exact .refl k s

theorem announceRelease_acts (k : Nat) (s : State) : ActsOnIntent k s (announceRelease k s) :=
  handOverPlain_acts (fun i hi => ⟨rfl, fun h => hi (by cases h; rfl)⟩) s

theorem notSent_acts (k p : Nat) (ps : List Pair) (s : State) : ActsOnIntent k s (notSent k p ps s) := by
  unfold notSent
  split
  · exact (loseIntent_acts k _ s).trans (announceRelease_acts k _)
  · exact .refl k s

theorem handOver_intent_acts (k p : Nat) (ps : List Pair) (s : State) : ActsOnIntent k s (handOver (.intent k p ps) s) := by
  have hplain : ActsOnIntent k s (handOverPlain (.intent k p ps) s) :=
    handOverPlain_acts (fun i hi => ⟨by simpa [Body.isIntentOf] using hi.symm, fun h => by cases h⟩) s
  unfold handOver
  dsimp only
  split
  · exact hplain.trans (notSent_acts k p ps _)
  · exact hplain

theorem announce_acts (k : Nat) (s : State) : ActsOnIntent k s (announce k s) := by
  unfold announce
  split
  · split
    · exact handOver_intent_acts k _ _ s
    · exact .refl k s
  · exact .refl k s

/-! ## A peer intent meets one own intent (R152 to R154) -/

section
variable (u : Uid) (p : Nat) (ps : List Pair)

/-- All that the meeting can do. -/
theorem compareIntent_cases (s : State) (k : Nat) : compareIntent u p ps s k = s
    ∨ compareIntent u p ps s k = announceRelease k (loseIntent k .outranked s) ∨ compareIntent u p ps s k = announce k s := by
  unfold compareIntent
  split
  · split
    · split
      · exact .inr (.inl rfl)
      · split
        · exact .inr (.inr rfl)
        · exact .inl rfl
    · exact .inl rfl
  · exact .inl rfl

theorem compareIntent_acts (s : State) (k : Nat) : ActsOnIntent k s (compareIntent u p ps s k) := by
  rcases compareIntent_cases u p ps s k with h | h | h <;> rw [h]
  · exact .refl k s
  · exact (loseIntent_acts k _ s).trans (announceRelease_acts k _)
  · exact announce_acts k s

/-- Meetings with other intents than `i` leave the intent `i`. -/
theorem compareIntents_others {i : Nat} (l : List Nat) (hi : i ∉ l) (s : State) :
    (l.foldl (compareIntent u p ps) s).slot i = s.slot i ∧ (l.foldl (compareIntent u p ps) s).intentsOf i = s.intentsOf i := by
  induction l generalizing s with
  | nil => exact ⟨rfl, rfl⟩
  | cons k l ih =>
    obtain ⟨hik, hil⟩ := not_or.1 (mt List.mem_cons.2 hi)
    obtain ⟨hslot, hqueue⟩ := ih hil (compareIntent u p ps s k)
    have hk := compareIntent_acts u p ps s k
    exact ⟨hslot.trans (hk.slots i hik), hqueue.trans (hk.queued i hik)⟩

theorem foldl_compareIntent_steady (l : List Nat) (s : State) : Steady s (l.foldl (compareIntent u p ps) s) :=
  .foldl _ (compareIntent_steady u p ps) l s

theorem foldl_compareIntent_ownUid (l : List Nat) (s : State) : (l.foldl (compareIntent u p ps) s).ownUid = s.ownUid :=
  congrArg (fun r : Psr => r.working.uid) (foldl_keeps _ State.psr (compareIntent_psr u p ps) l s)

/-- The meetings before and after that of the intent `i` (R152). -/
theorem compareIntents_split {i : Nat} (hi : i < 8) : ∃ before after : List Nat, i ∉ before ∧ i ∉ after ∧ before.length < 8
    ∧ ∀ s, compareIntents u p ps s = after.foldl (compareIntent u p ps) (compareIntent u p ps (before.foldl (compareIntent u p ps) s) i) := by
  obtain ⟨a, b, hab⟩ := List.append_of_mem (List.mem_range.2 hi)
  have hnodup : (a ++ i :: b).Nodup := hab ▸ List.nodup_range
  have hlen := congrArg List.length hab
  rw [List.nodup_middle, List.nodup_cons, List.mem_append, not_or] at hnodup
  obtain ⟨⟨hia, hib⟩, -⟩ := hnodup
  simp only [List.length_range, List.length_append, List.length_cons] at hlen
  refine ⟨a, b, hia, hib, by omega, fun s => ?_⟩
  rw [compareIntents, show List.range Config.slots = a ++ i :: b from hab, List.foldl_append, List.foldl_cons]

/-- A peer intent meets a standing intent it shares a pair with. -/
theorem compareIntent_meets {s : State} {i : Nat} {x : Slot} {pair : Pair} (hx : s.standsIn i x) (hown : pair ∈ x.intent.pairs)
    (hpeer : pair ∈ ps) : compareIntent u p ps s i =
      if outranks s.ownUid x.intent.priority u p then announceRelease i (loseIntent i .outranked s)
      else if x.intent.isHeld then announce i s else s := by
  have hshare : x.intent.pairs.any ps.contains = true := List.any_eq_true.2 ⟨pair, hown, List.contains_iff_mem.2 hpeer⟩
  simp only [compareIntent, hx.1, hx.2, hshare, Bool.and_self, if_true]

/-- A standing intent that is outranked is LOST (R153). -/
theorem compareIntents_outranked {s : State} {i : Nat} {x : Slot} {pair : Pair} (hi : i < 8) (hx : s.standsIn i x)
    (hown : pair ∈ x.intent.pairs) (hpeer : pair ∈ ps) (hout : outranks s.ownUid x.intent.priority u p = true) :
    (compareIntents u p ps s).shows .intentLost
      ∧ (compareIntents u p ps s).slot i = some { x with intent := .lost .outranked x.intent.priority x.intent.pairs } := by
  obtain ⟨a, b, ha, hb, -, hsplit⟩ := compareIntents_split u p ps hi
  rw [hsplit]
  generalize hv : a.foldl (compareIntent u p ps) s = v
  have hstands : v.standsIn i x := by
    rw [← hv]
    exact ⟨(compareIntents_others u p ps a ha s).1.trans hx.1, hx.2⟩
  have huid : v.ownUid = s.ownUid := hv ▸ foldl_compareIntent_ownUid u p ps a s
  rw [compareIntent_meets u p ps hstands hown hpeer, huid, if_pos hout, loseIntent_standing i .outranked v x hstands]
  refine ⟨(foldl_compareIntent_steady u p ps b _).shown _ ((announceRelease_steady i _).shown _ ((raise_shows _ _ _).2 (.inl rfl))), ?_⟩
  rw [(compareIntents_others u p ps b hb _).1, State.slot, announceRelease_slots]
  exact (losing_slot v i x .outranked hstands.1).1

/-! ## Announcements where the queue has room (R154) -/

/-- A queue with room takes every frame, and grows by one at most (R9). -/
theorem enqueue_room (q : List Body) (f : Body) (h : q.length < 8) :
    (enqueue q f).2 = .queued ∧ (enqueue q f).1.length ≤ q.length + 1 := by
  have hnew : (enqueueNew q f).2 = .queued ∧ (enqueueNew q f).1.length ≤ q.length + 1 := by simp [enqueueNew_room q f h]
  cases f with
  | claim | report | intent =>
    unfold enqueue
    dsimp only
    split
    · simp [replaceFirst_length]
    · exact hnew
  | release k =>
    unfold enqueue
    dsimp only
    split
    · have := (removeFirst_sublist (Body.isIntentOf k) q).length_le
      simpa using this
    · exact hnew

theorem mem_enqueue_intent (q : List Body) (i pr : Nat) (xs : List Pair) (h : q.length < 8) :
    .intent i pr xs ∈ (enqueue q (.intent i pr xs)).1 := by
  by_cases hq : q.any (Body.isIntentOf i) = true
  · obtain ⟨a, x, b, rfl, hx, ha⟩ := split_at_any hq
    simp [enqueue_intent_replaces a b x i pr xs hx ha]
  · rw [show enqueue q (.intent i pr xs) = enqueueNew q (.intent i pr xs) from if_neg hq, enqueueNew_room q _ h]
    simp

theorem handOverPlain_room {s : State} (f : Body) (h : s.sct.queue.length < 8) :
    (handOverPlain f s).sct.queue.length ≤ s.sct.queue.length + 1 := by
  by_cases ht : s.transmits = true
  · rw [handOverPlain_queue f s ht]
    exact (enqueue_room _ f h).2
  · rw [handOverPlain_idle f s (Bool.eq_false_iff.2 ht)]
    omega

/-- A queue with room drops no INTENT. -/
theorem handOver_room {s : State} (f : Body) (h : s.sct.queue.length < 8) : handOver f s = handOverPlain f s := by
  unfold handOver
  rw [(enqueue_room _ f h).1]
  cases f with
  | intent => exact if_neg (by simp)
  | claim | report | release => rfl

theorem announce_room {s : State} (k : Nat) (h : s.sct.queue.length < 8) :
    (announce k s).sct.queue.length ≤ s.sct.queue.length + 1 := by
  unfold announce
  split
  · split
    · rw [handOver_room _ h]
      exact handOverPlain_room _ h
    · omega
  · omega

theorem compareIntent_room {s : State} (k : Nat) (h : s.sct.queue.length < 8) :
    (compareIntent u p ps s k).sct.queue.length ≤ s.sct.queue.length + 1 := by
  rcases compareIntent_cases u p ps s k with he | he | he <;> rw [he]
  · omega
  · rw [← loseIntent_sct k .outranked s] at h ⊢
    exact handOverPlain_room _ h
  · exact announce_room k h

/-- Each meeting adds one frame at most. -/
theorem compareIntents_room (l : List Nat) (s : State) (h : s.sct.queue.length + l.length ≤ 8) :
    (l.foldl (compareIntent u p ps) s).sct.queue.length ≤ s.sct.queue.length + l.length := by
  induction l generalizing s with
  | nil => exact Nat.le_refl _
  | cons k l ih =>
    rw [List.length_cons] at h ⊢
    have hstep := compareIntent_room u p ps k (s := s) (by omega)
    have hrest := ih (compareIntent u p ps s k) (by omega)
    rw [List.foldl_cons]
    omega

/-- A HELD intent that is not outranked stays, and its INTENT is queued where the queue was empty (R154). -/
theorem compareIntents_held {s : State} {i : Nat} {x : Slot} {pair : Pair} (hi : i < 8) (hx : s.standsIn i x)
    (hheld : x.intent.isHeld = true) (hown : pair ∈ x.intent.pairs) (hpeer : pair ∈ ps)
    (hout : outranks s.ownUid x.intent.priority u p = false) (ht : s.transmits = true) (hq : s.sct.queue = []) :
    (compareIntents u p ps s).slot i = some x
      ∧ .intent i x.intent.priority x.intent.pairs ∈ (compareIntents u p ps s).sct.queue := by
  obtain ⟨a, b, ha, hb, hlen, hsplit⟩ := compareIntents_split u p ps hi
  have hroom := compareIntents_room u p ps a s (by simp only [hq, List.length_nil]; omega)
  rw [hsplit]
  generalize hv : a.foldl (compareIntent u p ps) s = v at hroom
  have hstands : v.standsIn i x := by
    rw [← hv]
    exact ⟨(compareIntents_others u p ps a ha s).1.trans hx.1, hx.2⟩
  have huid : v.ownUid = s.ownUid := hv ▸ foldl_compareIntent_ownUid u p ps a s
  have htv : v.transmits = true := (transmits_congr (hv ▸ (foldl_compareIntent_steady u p ps a s).station)).trans ht
  have hfew : v.sct.queue.length < 8 := by
    rw [hq, List.length_nil] at hroom
    omega
  have hannounced : compareIntent u p ps v i = handOverPlain (.intent i x.intent.priority x.intent.pairs) v := by
    rw [compareIntent_meets u p ps hstands hown hpeer, huid, hout, if_neg Bool.false_ne_true, if_pos hheld, announce_standing hstands,
      handOver_room _ hfew]
  rw [hannounced]
  obtain ⟨hslot, hqueue⟩ := compareIntents_others u p ps b hb (handOverPlain (.intent i x.intent.priority x.intent.pairs) v)
  refine ⟨?_, (mem_intentsOf ..).1 ?_⟩
  · rw [hslot, State.slot, handOverPlain_slots]
    exact hstands.1
  · rw [hqueue, mem_intentsOf, handOverPlain_queue _ v htv]
    exact mem_enqueue_intent _ i _ _ hfew

end

/-! ## A peer's INTENT is stored (R80, R81) -/

theorem intentWellFormed_iff (id p : Nat) (ps : List Pair) : intentWellFormed id p ps = true ↔
    id < 8 ∧ p < 8 ∧ (∀ y ∈ ps, y.station < 48 ∧ y.degree < 8 ∧ y.channel < 64) ∧ ps.Nodup := by
  simp only [intentWellFormed, Bool.and_eq_true, decide_eq_true_eq, List.all_eq_true, and_assoc]
  rfl

section
variable {s : State} (e : PeerIntent)

/-- The staging entry of an INTENT that is stored: its lifetime starts (R81, R83). -/
def State.stagedOf (s : State) (e : PeerIntent) : StagedIntent := { entry := e, left := 1000 * s.psr.working.lifetime }

theorem storeIntent_replaces {q : Nat} {o : StagedIntent} (hplace : s.intentPlace e.uid e.id = some q)
    (ho : s.tdb.stagingIntents[q]? = some (some o)) : (storeIntent e s).tdb = { s.tdb with
      stagingIntents := s.tdb.stagingIntents.set q (some (s.stagedOf e))
      dirty := s.tdb.dirty || decide (o.entry.priority ≠ e.priority ∨ o.entry.pairs ≠ e.pairs) } := by
  have hsame : (!((place s.tdb.stagingIntents q).any fun o => o.entry.priority == e.priority && o.entry.pairs == e.pairs))
      = decide (o.entry.priority ≠ e.priority ∨ o.entry.pairs ≠ e.pairs) := by
    rw [(place_some _ _ _).2 ho, Option.any_some, Bool.not_and, Bool.decide_or]
    simp [beq_eq_decide]
  simp only [storeIntent, hplace, hsame]
  rfl

theorem storeIntent_enters {q : Nat} (hplace : s.intentPlace e.uid e.id = none) (hq : s.tdb.stagingIntents[q]? = some none)
    (hfirst : ∀ k : Nat, k < q → s.tdb.stagingIntents[k]? ≠ some none) : (storeIntent e s).tdb = { s.tdb with
      stagingIntents := s.tdb.stagingIntents.set q (some (s.stagedOf e)), dirty := true } := by
  obtain ⟨hlt, hnone⟩ := List.getElem?_eq_some_iff.1 hq
  have hfind : s.tdb.stagingIntents.findIdx? Option.isNone = some q := by
    refine List.findIdx?_eq_some_iff_getElem.2 ⟨hlt, by rw [hnone]; rfl, fun k hk hn => hfirst k hk ?_⟩
    rw [List.getElem?_eq_getElem (hk.trans hlt), Option.isNone_iff_eq_none.1 hn]
  simp only [storeIntent, hplace, hfind]
  rfl

theorem storeIntent_full (hplace : s.intentPlace e.uid e.id = none) (hfull : ∀ q : Nat, s.tdb.stagingIntents[q]? ≠ some none) :
    storeIntent e s = raise .peerIntentFull s := by
  have hfind : s.tdb.stagingIntents.findIdx? Option.isNone = none := by
    refine List.findIdx?_eq_none_iff.2 fun x hx => Bool.eq_false_iff.2 fun hn => ?_
    obtain ⟨q, hq⟩ := List.getElem?_of_mem hx
    exact hfull q (by rw [hq, Option.isNone_iff_eq_none.1 hn])
  simp only [storeIntent, hplace, hfind]

end

/-! ## A peer's INTENT is taken (R21, R24, R80) -/

/-- The part has taken the frame `f` of a known peer, whose lifetime starts again (R6, R22). -/
def State.heard (s : State) (f : Frame) (rest : List Frame) : State := setEntry f.number (some f.entry) (s.withRxQueue rest)

/-- The state in which a stored INTENT meets the own intents. -/
def State.comparing (s : State) (f : Frame) (rest : List Frame) (e : PeerIntent) : State := storeIntent e (s.heard f rest)

section
variable {s : State} (strap : BitVec 3) {f : Frame} {rest : List Frame} {id p l : Nat} {ps : List Pair} (ho : s.offers f rest)
  (ha : s.active = true) (hc : s.dir.station = .joining → s.dir.candidate ≠ some f.number) (hb : f.body = .intent id p ps)
  (hn : f.number < 48) (he : s.entry f.number = some (.peer f.uid l))
include ho ha hc hb hn he

theorem exec_intent_known : exec (.takeReceivedFrame strap) s = .next (dispatch f.number .known f (s.heard f rest)) := by
  have hnum : f.number? = f.number := by simp only [Frame.number?, hb]
  have hmode : f.modeKnown := by simp only [Frame.modeKnown, hb]
  have hown : ∀ u, s.entry f.number ≠ some (.own u) := fun u h => by
    rw [he] at h
    cases h
  rw [exec_takeReceivedFrame_accepts strap ho ha hnum hn hmode hc hown, acceptFrame_known f.number f (s.withRxQueue rest) l he]
  rfl

theorem exec_intent_wellFormed (hw : intentWellFormed id p ps = true) : exec (.takeReceivedFrame strap) s =
    .next (compareIntents f.uid p ps (s.comparing f rest { uid := f.uid, id := id, priority := p, pairs := ps })) := by
  rw [exec_intent_known strap ho ha hc hb hn he]
  simp only [dispatch, hb, hw, if_true, State.comparing]

theorem exec_intent_illFormed (hw : intentWellFormed id p ps = false) :
    exec (.takeReceivedFrame strap) s = .next (s.heard f rest) := by
  rw [exec_intent_known strap ho ha hc hb hn he]
  simp only [dispatch, hb, hw, Bool.false_eq_true, if_false]

end

theorem comparing_keeps (s : State) (f : Frame) (rest : List Frame) (e : PeerIntent) : (s.comparing f rest e).slots = s.slots
    ∧ (s.comparing f rest e).sct = s.sct ∧ (s.comparing f rest e).ownUid = s.ownUid
    ∧ (s.comparing f rest e).dir.station = s.dir.station := by
  have hpsr : (s.comparing f rest e).psr = s.psr := storeIntent_psr ..
  have hdir : (s.comparing f rest e).dir = (s.heard f rest).dir := storeIntent_dir ..
  refine ⟨storeIntent_slots .., storeIntent_sct .., by rw [State.ownUid, hpsr, State.ownUid], ?_⟩
  rw [hdir]
  rfl

/-- An INTENT of a known peer taken in MEMBER is stored and meets the own intents. -/
theorem exec_intent_member {s : State} (strap : BitVec 3) {f : Frame} {rest : List Frame} {id p l : Nat} {ps : List Pair}
    (ho : s.offers f rest) (hm : s.dir.station = .member) (hb : f.body = .intent id p ps) (hn : f.number < 48)
    (he : s.entry f.number = some (.peer f.uid l)) (hid : id < 8) (hp : p < 8) (hd : ps.Nodup)
    (hr : ∀ y ∈ ps, y.station < 48 ∧ y.degree < 8 ∧ y.channel < 64) : exec (.takeReceivedFrame strap) s =
      .next (compareIntents f.uid p ps (s.comparing f rest { uid := f.uid, id := id, priority := p, pairs := ps })) :=
  exec_intent_wellFormed strap ho (by simp [State.active, hm]) (by simp [hm]) hb hn he ((intentWellFormed_iff ..).2 ⟨hid, hp, hr, hd⟩)

/-- Settles O44: rank, the loss of an outranked intent, the announcement of a HELD one, the places of the staging table, and the INTENTs
discarded. -/
theorem peerIntentsAreStoredAndCompared : Obligations.PeerIntentsAreStoredAndCompared := by
  refine ⟨outranks_antisymm, ?outranked, ?held, ?stored, ?discarded⟩
  case outranked =>
    intro s strap f rest id p l i ps x pair ho hm hb hn he hid hp hd hr hi hx hown hpeer hrank
    refine ⟨_, exec_intent_member strap ho hm hb hn he hid hp hd hr, ?_⟩
    obtain ⟨hslots, -, huid, -⟩ := comparing_keeps s f rest { uid := f.uid, id := id, priority := p, pairs := ps }
    refine compareIntents_outranked f.uid p ps hi ⟨?_, hx.2⟩ hown hpeer ?_
    · rw [State.slot, hslots]
      exact hx.1
    · rw [huid]
      exact (outranks_iff ..).2 (hrank.imp_right fun ⟨hp, hu⟩ => ⟨hp.symm, hu⟩)
  case held =>
    intro s strap f rest id p l i pr r ps xs x pair ho hm hb hn he hid hp hd hr hi hx hint hown hpeer hrank hq
    refine ⟨_, exec_intent_member strap ho hm hb hn he hid hp hd hr, ?_⟩
    obtain ⟨hslots, hsct, huid, hstation⟩ := comparing_keeps s f rest { uid := f.uid, id := id, priority := p, pairs := ps }
    have hout : outranks s.ownUid pr f.uid p = false := by
      rw [Bool.eq_false_iff, Ne, outranks_iff]
      rw [BitVec.le_def] at hrank
      rw [BitVec.lt_def]
      omega
    have h := compareIntents_held f.uid p ps (x := x) (pair := pair) hi
      (s := s.comparing f rest { uid := f.uid, id := id, priority := p, pairs := ps })
    rw [hint] at h
    refine h ⟨?_, by rw [hint]; rfl⟩ rfl hown hpeer ?_ ?_ ?_
    · rw [State.slot, hslots]
      exact hx
    · rw [huid]
      exact hout
    · rw [transmits_iff, hstation]
      exact .inr hm
    · rw [hsct]
      exact hq
  case stored =>
    rintro s strap f rest id p l ps e ho ha hc hb hn he hw rfl
    refine ⟨_, exec_intent_wellFormed strap ho ha hc hb hn he hw, ?_⟩
    rw [compareIntents_tdb]
    refine ⟨fun q o hq hu hi hfirst => ?_, fun hnone => ?_⟩
    · exact storeIntent_replaces (s := s.heard f rest) _ (intentPlace_eq_some (s := s.heard f rest) hq hu hi hfirst) hq
    · have hplace : (s.heard f rest).intentPlace f.uid id = none := intentPlace_eq_none hnone
      refine ⟨fun q hq hfirst => storeIntent_enters (s := s.heard f rest) _ hplace hq hfirst, fun hfull => ?_⟩
      rw [State.comparing, storeIntent_full (s := s.heard f rest) _ hplace hfull]
      exact ⟨rfl, (compareIntents_steady ..).shown _ ((raise_shows _ _ _).2 (.inl rfl))⟩
  case discarded =>
    intro s strap f rest id p l ps ho ha hc hb hn he hbad
    refine exec_intent_illFormed strap ho ha hc hb hn he (Bool.eq_false_iff.2 fun hw => ?_)
    obtain ⟨hid, hp, hr, hd⟩ := (intentWellFormed_iff ..).1 hw
    rcases hbad with h | h | ⟨y, hy, h⟩ | h
    · omega
    · omega
    · have := hr y hy
      omega
    · exact h hd

end Sys2Proof.Machine
end

section
/-! # The indications and their enables: masks, NOTIFY (R171 to R173) -/

namespace Sys2Proof.Machine

/-! ## Masks of two bytes (R185) -/

theorem decodeMask_pair (a b : Byte) : decodeMask [a, b] = (a ++ b : BitVec (8 + 8)) := by
  have ha := a.isLt
  have hb := b.isLt
  apply BitVec.eq_of_toNat_eq
  rw [decodeMask, field_two, BitVec.toNat_ofNat, BitVec.toNat_append, ← Nat.shiftLeft_add_eq_or_of_lt hb, Nat.shiftLeft_eq]
  omega

/-- A mask names position 15 by the top bit of its first byte (R171, R172). -/
theorem namesNoIndication_pair (a b : Byte) : namesNoIndication (a ++ b : BitVec (8 + 8)) = a.getLsbD 7 := by
  rw [namesNoIndication, BitVec.getLsbD_append]
  rfl

/-- NOTIFY by the positions that are both set and enabled (R173). -/
theorem notify_iff (s : State) :
    s.notify = true ↔ ∃ k, s.ntf.indications.getLsbD k = true ∧ s.ntf.enables.getLsbD k = true := by
  rw [State.notify, decide_eq_true_eq]
  constructor
  · intro hne
    by_contra hnone
    refine hne (BitVec.eq_of_getLsbD_eq fun k _ => ?_)
    rw [BitVec.getLsbD_and, show (0 : Mask).getLsbD k = false from BitVec.getLsbD_zero, Bool.and_eq_false_imp]
    exact fun hi => Bool.eq_false_iff.2 fun he => hnone ⟨k, hi, he⟩
  · rintro ⟨k, hi, he⟩ hz
    have hbit := congrArg (BitVec.getLsbD · k) hz
    simp [hi, he] at hbit

/-! ## Commands with a payload of two bytes -/

theorem takeCommand_pair (c : Byte) (act : List Byte → State → State) {s : State} (a b : Byte) (h : s.listens) :
    takeCommand c (hasLength 2) [2, a, b] act s = act [a, b] (clockZeros 4 s) := takeCommand_taken c _ 2 [a, b] act s h rfl rfl

/-- A transaction that is not a length byte 2 with two bytes after it is refused (R161). -/
theorem takeCommand_notPair (c : Byte) (act : List Byte → State → State) {s : State} {rest : List Byte} (h : s.listens)
    (hrest : ∀ x y, rest ≠ [2, x, y]) :
    takeCommand c (hasLength 2) rest act s = s.answered (rest.length + 1) c .badLength false [] := by
  refine takeCommand_badLength c _ rest act s h fun len payload hr hlen => decide_eq_false fun htwo => ?_
  obtain ⟨x, y, rfl⟩ := List.length_eq_two.1 htwo
  obtain rfl : len = 2 := BitVec.eq_of_toNat_eq hlen.symm
  exact hrest x y hr

section
variable {s : State} {a b : Byte}

theorem setEnables_refused (ha : a.getLsbD 7 = true) : setEnables [a, b] s = refuse cmdSetEnables .badField s := by
  simp only [setEnables, decodeMask_pair, namesNoIndication_pair, ha, if_true]

theorem setEnables_taken (ha : a.getLsbD 7 = false) :
    setEnables [a, b] s = respondOk cmdSetEnables [] (setNtf { s.ntf with enables := (a ++ b : BitVec (8 + 8)) } s) := by
  simp only [setEnables, decodeMask_pair, namesNoIndication_pair, ha, Bool.false_eq_true, if_false]

theorem clearIndications_refused (ha : a.getLsbD 7 = true) :
    clearIndications [a, b] s = refuse cmdClearIndications .badField s := by
  simp only [clearIndications, decodeMask_pair, namesNoIndication_pair, ha, if_true]

theorem clearIndications_taken {left : Mask} (ha : a.getLsbD 7 = false)
    (hleft : left = s.ntf.indications &&& ~~~(a ++ b : BitVec (8 + 8))) :
    clearIndications [a, b] s
      = respondOk cmdClearIndications (toBytes 2 left.toNat) (setNtf { s.ntf with indications := left } s) := by
  simp only [clearIndications, decodeMask_pair, namesNoIndication_pair, ha, Bool.false_eq_true, if_false, hleft]

end

/-- Settles O47: the mask is read from its two bytes; position 15, which no mask that is taken names, has no share in NOTIFY. -/
theorem setEnablesReplacesTheEnableSet : Obligations.SetEnablesReplacesTheEnableSet := by
  intro s a b h
  have hexec : exec (.setEnables [2, a, b]) s = .next (setEnables [a, b] (clockZeros 4 s)) :=
    congrArg Host.Outcome.next (takeCommand_pair cmdSetEnables setEnables a b h)
  refine ⟨fun ha => ?_, fun ha => ⟨_, hexec, ?_, ?_⟩, fun rest hrest =>
    ⟨_, congrArg Host.Outcome.next (takeCommand_notPair cmdSetEnables setEnables h hrest)⟩⟩
  · rw [hexec, setEnables_refused ha]
    rfl
  · rw [setEnables_taken ha]
    rfl
  · rw [setEnables_taken ha, notify_iff]
    refine exists_congr fun k => ⟨fun ⟨hi, he⟩ => ⟨?_, hi, he⟩, fun ⟨_, hi, he⟩ => ⟨hi, he⟩⟩
    have hlt : k < 16 := BitVec.lt_of_getLsbD hi
    have htop : k ≠ 15 := by
      rintro rfl
      exact Bool.false_ne_true (ha.symm.trans ((namesNoIndication_pair a b).symm.trans he))
    omega

/-- Settles O48: the set left is the set that was without what the mask names. -/
theorem clearIndicationsClearsTheNamedOnes : Obligations.ClearIndicationsClearsTheNamedOnes := by
  intro s a b h
  have hexec : exec (.clearIndications [2, a, b]) s = .next (clearIndications [a, b] (clockZeros 4 s)) :=
    congrArg Host.Outcome.next (takeCommand_pair cmdClearIndications clearIndications a b h)
  refine ⟨fun ha => ?_, fun ha => ⟨s.ntf.indications &&& ~~~(a ++ b : BitVec (8 + 8)), ?_, fun k => ?_⟩, fun rest hrest =>
    ⟨_, congrArg Host.Outcome.next (takeCommand_notPair cmdClearIndications clearIndications h hrest)⟩⟩
  · rw [hexec, clearIndications_refused ha]
    rfl
  · rw [hexec, clearIndications_taken ha rfl]
    rfl
  · rw [BitVec.getLsbD_and, BitVec.getLsbD_not]
    by_cases hk : k < 8 + 8
    · rw [decide_eq_true hk, Bool.true_and]
    · rw [BitVec.getLsbD_of_ge _ k (Nat.le_of_not_lt hk), Bool.false_and, Bool.false_and]

end Sys2Proof.Machine
end

section
/-! # The local request port: the pins, reads of the response, ignored and refused transactions (R159 to R163) -/

namespace Sys2Proof.Machine

/-! ## The bits of the pins (R159, R183) -/

/-- Each bit is sampled once, whatever the level of the clock before it (R159). -/
theorem sampledBits_spiLevels (sck : Bool) (bits : List Bool) : sampledBits sck (spiLevels bits) = bits := by
  induction bits generalizing sck with
  | nil => rfl
  | cons b bits ih =>
    have hlow : ∀ rest, sampledBits sck ({ cs := false, sck := false, sdi := b } :: rest) = sampledBits false rest := fun rest => by
      simp [sampledBits]
    calc sampledBits sck (spiLevels (b :: bits))
        = sampledBits false ({ cs := false, sck := true, sdi := b } :: spiLevels bits) := hlow _
      _ = b :: bits := congrArg (b :: ·) (ih true)

theorem transactionBits_spiLevels (bits : List Bool) : transactionBits (spiLevels bits) = bits := sampledBits_spiLevels false bits

/-- A partial byte is no byte (R159). -/
theorem bytesOf_short {bits : List Bool} (h : bits.length < 8) : bytesOf bits = [] := by
  unfold bytesOf
  split
  · simp only [List.length_cons] at h
    omega
  · rfl

/-- A partial byte at the end of whole bytes is discarded (R159). -/
theorem bytesOf_bitsOf_append (bytes : List Byte) {bits : List Bool} (h : bits.length < 8) : bytesOf (bitsOf bytes ++ bits) = bytes := by
  induction bytes with
  | nil => exact bytesOf_short h
  | cons b bytes ih => exact congrArg₂ List.cons (byteOf_byteBits b) ih

/-! ## The row of a transaction (R159, R188) -/

theorem decodePins_bytes (strap : BitVec 3) (command : Byte) (rest : List Byte) {bits : List Bool} (h : bits.length < 8) :
    decodePins strap (spiLevels (bitsOf (command :: rest) ++ bits)) = decodeCommand strap command rest := by
  rw [decodePins, transactionBits_spiLevels, decodeTransaction, bytesOf_bitsOf_append _ h]

theorem decodeCommand_unknown (strap : BitVec 3) {command : Byte} (rest : List Byte) (h : command ∉ namedBytes) :
    decodeCommand strap command rest = .unknownCommand command rest := by
  simp only [namedBytes, List.mem_cons, List.not_mem_nil, or_false, not_or] at h
  simp only [decodeCommand, h, if_false]

/-- The bytes of a command row name that row (R188). -/
theorem decodeCommand_encodeTransaction {c : Instr} {strap : BitVec 3} {bytes : List Byte} (hw : c.wellFormed = true)
    (h : encodeTransaction c = some bytes) (hs : ∀ rest other, c = .start rest other → strap = other) :
    ∃ command rest, bytes = command :: rest ∧ decodeCommand strap command rest = c := by
  cases c <;> cases h
  case unknownCommand command rest =>
    exact ⟨command, rest, rfl, decodeCommand_unknown strap rest (by simpa [Instr.wellFormed] using hw)⟩
  case start rest other =>
    obtain rfl := hs rest other rfl
    exact ⟨_, rest, rfl, rfl⟩
  all_goals exact ⟨_, _, rfl, rfl⟩

/-- Settles O50: the bits come back from the levels, the bytes from the bits, and the row from the bytes. -/
theorem pinsCarryTheirCommand : Obligations.PinsCarryTheirCommand := by
  refine ⟨transactionBits_spiLevels, fun c strap bytes partialByte hw h hp hs => ?_,
    fun strap rest partialByte hp => decodePins_bytes strap 1 rest hp, fun strap bits hb => ?_⟩
  · obtain ⟨command, rest, rfl, hc⟩ := decodeCommand_encodeTransaction hw h hs
    exact (decodePins_bytes strap command rest hp).trans hc
  · rw [decodePins, transactionBits_spiLevels, decodeTransaction, bytesOf_short hb]

/-! ## What a read sends (R162, R163) -/

theorem byteBits_eq (b : Byte) : byteBits b = (List.range 8).map fun j => b.getLsbD (7 - j) := rfl

/-- The bits of a byte string, byte by byte. -/
theorem bitsOf_getElem? (bytes : List Byte) (i : Nat) {j : Nat} (hj : j < 8) :
    (bitsOf bytes)[8 * i + j]? = bytes[i]?.map fun b => b.getLsbD (7 - j) := by
  induction bytes generalizing i with
  | nil => rfl
  | cons b bytes ih =>
    have hlen : (byteBits b).length = 8 := rfl
    rw [show bitsOf (b :: bytes) = byteBits b ++ bitsOf bytes from rfl]
    cases i with
    | zero =>
      rw [Nat.mul_zero, Nat.zero_add, List.getElem?_append_left (hlen ▸ hj), byteBits_eq, List.getElem?_map, List.getElem?_range hj]
      rfl
    | succ i => rw [List.getElem?_append_right (by omega), hlen, show 8 * (i + 1) + j - 8 = 8 * i + j by omega, ih, List.getElem?_cons_succ]

theorem bitsOf_append (a b : List Byte) : bitsOf (a ++ b) = bitsOf a ++ bitsOf b := List.flatMap_append

theorem repeated_succ (buffer : List Byte) (n : Nat) :
    repeated buffer (n + 1) = repeated buffer n ++ [(buffer[n % buffer.length]?).getD 0] := by
  rw [repeated, List.range_succ, List.map_append]
  rfl

theorem repeated_length (buffer : List Byte) (n : Nat) : (repeated buffer n).length = n := by
  rw [repeated, List.length_map, List.length_range]

/-- A buffer sent again and again gives its bytes in turn (R163). -/
theorem repeated_getElem? {buffer : List Byte} {n k : Nat} (hb : 0 < buffer.length) (h : k < n) :
    (repeated buffer n)[k]? = buffer[k % buffer.length]? := by
  rw [repeated, List.getElem?_map, List.getElem?_range h, Option.map_some, List.getElem?_eq_getElem (Nat.mod_lt k hb), Option.getD_some]

theorem response_eq (s : State) : s.lrp.response = [s.lrp.command, s.lrp.number, byte s.lrp.status.code, byte s.lrp.clamped.toNat,
    byte s.lrp.payload.length] ++ s.lrp.payload := by
  rw [Lrp.response, byte, BitVec.ofNat_toNat, BitVec.setWidth_eq]

theorem response_length (x : Lrp) : x.response.length = 5 + x.payload.length := by
  rw [Lrp.response, List.length_append]
  rfl

/-- The bits on data-out in the byte of a read that follows the first `n + 1` (R159, R163). -/
theorem sdoBit_byte {s : State} (hr : s.inReset = false) (n : Nat) {j : Nat} (hj : j < 8) :
    s.sdoBit 1 (8 * (n + 1) + j) = ((s.lrp.response[n % s.lrp.response.length]?).getD 0).getLsbD (7 - j) := by
  have hmod : (8 * (n + 1) + j - 8) % (8 * s.lrp.response.length) = 8 * (n % s.lrp.response.length) + j := by
    rw [Nat.mod_mul, show (8 * (n + 1) + j - 8) / 8 = n by omega]
    omega
  have hlate : ¬ 8 * (n + 1) + j < 8 := by omega
  rw [State.sdoBit, hmod, bitsOf_getElem? _ _ hj]
  simp only [hr, hlate, cmdReadResponse, bne_self_eq_false, decide_false, Bool.or_self, Bool.false_eq_true, if_false]
  cases s.lrp.response[n % s.lrp.response.length]? <;> simp

/-- What a read sends, bit by bit: zeros, then the response again and again (R159, R163). -/
theorem bitsOf_read {s : State} (hr : s.inReset = false) (n : Nat) :
    bitsOf (0 :: repeated s.lrp.response n) = (List.range (8 * (n + 1))).map (s.sdoBit 1) := by
  induction n with
  | zero =>
    have hzero : ∀ k ∈ List.range 8, s.sdoBit 1 k = false := fun k hk => by
      simp [State.sdoBit, List.mem_range.1 hk]
    rw [Nat.zero_add, Nat.mul_one, List.map_congr_left hzero]
    rfl
  | succ n ih =>
    have hbyte : byteBits ((s.lrp.response[n % s.lrp.response.length]?).getD 0)
        = (List.range 8).map fun j => s.sdoBit 1 (8 * (n + 1) + j) :=
      List.map_congr_left fun j hj => (sdoBit_byte hr n (List.mem_range.1 hj)).symm
    rw [repeated_succ, ← List.cons_append, bitsOf_append, ih, show 8 * (n + 1 + 1) = 8 * (n + 1) + 8 by omega, List.range_add,
      List.map_append, List.map_map]
    exact congrArg _ ((List.append_nil _).trans hbyte)

/-! ## Commands that answer, and commands that are refused (R161, R162) -/

/-- What a command leaves on the port: no response yet, an answer OK or DEFERRED, or a refusal that changes nothing else. -/
inductive PortAnswers (s t : State) : Prop
  | silent (h : t.lrp.number = s.lrp.number)
  | accepted (h : t.lrp.status = .ok ∨ t.lrp.status = .deferred)
  | refused (kept : t = { s with lrp := t.lrp }) (number : t.lrp.number = s.lrp.number + 1) (payload : t.lrp.payload = [])
    (clamped : t.lrp.clamped = false)

/-- The zeros on data-out are the port's, and no answer. -/
theorem PortAnswers.of_clockZeros {n : Nat} {s t : State} (h : PortAnswers (clockZeros n s) t) : PortAnswers s t := by
  cases h with
  | silent h => exact .silent h
  | accepted h => exact .accepted h
  | refused kept number payload clamped => exact .refused kept number payload clamped

theorem PortAnswers.ite {c : Prop} [Decidable c] {s a b : State} (ha : PortAnswers s a) (hb : PortAnswers s b) :
    PortAnswers s (if c then a else b) := by
  split
  · exact ha
  · exact hb

theorem refuse_portAnswers (c : Byte) (st : Status) (s : State) : PortAnswers s (refuse c st s) := .refused rfl rfl rfl rfl

theorem respondOk_portAnswers (c : Byte) (p : List Byte) (s u : State) : PortAnswers s (respondOk c p u) := .accepted (.inl rfl)

theorem endTransaction_portAnswers {act : State → State} (h : ∀ u, PortAnswers u (act u)) (n : Nat) (s : State) :
    PortAnswers s (endTransaction n act s) := by
  unfold endTransaction
  dsimp only
  split
  · exact .silent rfl
  · split
    · exact .silent rfl
    · exact (h _).of_clockZeros

theorem takeCommand_portAnswers {act : List Byte → State → State} (h : ∀ p u, PortAnswers u (act p u)) (c : Byte)
    (agrees : List Byte → Bool) (rest : List Byte) (s : State) : PortAnswers s (takeCommand c agrees rest act s) := by
  refine endTransaction_portAnswers (fun u => ?_) _ s
  split
  · exact refuse_portAnswers c _ u
  · split
    · exact h _ u
    · exact refuse_portAnswers c _ u

/-! ### Command by command -/

section
variable (p : List Byte) (s : State)

theorem readDirectoryEntry_portAnswers : PortAnswers s (readDirectoryEntry p s) := .ite (respondOk_portAnswers ..) (refuse_portAnswers ..)

theorem readDegree_portAnswers : PortAnswers s (readDegree p s) := by
  unfold readDegree
  dsimp only
  split
  · exact respondOk_portAnswers ..
  · exact refuse_portAnswers ..

theorem readReport_portAnswers : PortAnswers s (readReport p s) := by
  unfold readReport
  dsimp only
  split
  · exact refuse_portAnswers ..
  · exact .ite (respondOk_portAnswers ..) (refuse_portAnswers ..)

theorem readPeerIntent_portAnswers : PortAnswers s (readPeerIntent p s) := by
  unfold readPeerIntent
  dsimp only
  split
  · exact refuse_portAnswers ..
  · exact .ite (respondOk_portAnswers ..) (refuse_portAnswers ..)

theorem readSlot_portAnswers : PortAnswers s (readSlot p s) := by
  unfold readSlot
  split
  · exact respondOk_portAnswers ..
  · exact refuse_portAnswers ..

theorem readStoreWord_portAnswers : PortAnswers s (readStoreWord p s) := by
  unfold readStoreWord
  dsimp only
  split
  · exact refuse_portAnswers ..
  · exact .ite (refuse_portAnswers ..) (.ite (refuse_portAnswers ..) (respondOk_portAnswers ..))

theorem writeStoreWord_portAnswers : PortAnswers s (writeStoreWord p s) :=
  .ite (refuse_portAnswers ..) (.ite (refuse_portAnswers ..) (.ite (refuse_portAnswers ..) (respondOk_portAnswers ..)))

theorem writeNodeReport_portAnswers : PortAnswers s (writeNodeReport p s) :=
  .ite (refuse_portAnswers ..) (.ite (refuse_portAnswers ..) (.accepted (.inl rfl)))

theorem writeSpanReport_portAnswers : PortAnswers s (writeSpanReport p s) := by
  refine .ite (refuse_portAnswers ..) ?_
  split
  · exact refuse_portAnswers ..
  · exact .accepted (.inl rfl)

theorem clearLatch_portAnswers : PortAnswers s (clearLatch p s) := by
  refine .ite (refuse_portAnswers ..) ?_
  split
  · exact refuse_portAnswers ..
  · exact respondOk_portAnswers ..

theorem submit_portAnswers : PortAnswers s (submit p s) := by
  unfold submit
  split
  · exact refuse_portAnswers ..
  · split
    · exact refuse_portAnswers ..
    · exact .accepted (.inl (congrArg Lrp.status (startQueued_lrp _)))

theorem cancel_portAnswers : PortAnswers s (cancel p s) := by
  unfold cancel
  dsimp only
  split
  · exact refuse_portAnswers ..
  · exact respondOk_portAnswers ..
  · exact respondOk_portAnswers ..
  · exact refuse_portAnswers ..

theorem releaseSlot_portAnswers : PortAnswers s (releaseSlot p s) := by
  unfold releaseSlot
  dsimp only
  split
  · exact refuse_portAnswers ..
  · exact refuse_portAnswers ..
  · exact refuse_portAnswers ..
  · exact refuse_portAnswers ..
  · exact respondOk_portAnswers ..

theorem commitIntent_portAnswers : PortAnswers s (commitIntent p s) := by
  unfold commitIntent
  dsimp only
  split
  · exact refuse_portAnswers ..
  · refine .ite (refuse_portAnswers ..) ?_
    split
    · exact .ite (refuse_portAnswers ..) (.ite (refuse_portAnswers ..) (respondOk_portAnswers ..))
    · exact refuse_portAnswers ..

theorem withdraw_portAnswers : PortAnswers s (withdraw p s) := by
  unfold withdraw
  dsimp only
  split
  · exact refuse_portAnswers ..
  · exact .ite (respondOk_portAnswers ..) (refuse_portAnswers ..)

theorem beginTaking_number : (beginTaking s).lrp.number = s.lrp.number := by
  unfold beginTaking
  split <;> rfl

/-- A FORCE EPOCH whose transfer runs has no response yet (R87, R160). -/
theorem decideForce_portAnswers : PortAnswers s (decideForce s) := by
  refine .ite (refuse_portAnswers ..) (.ite (respondOk_portAnswers ..) (.ite (.accepted (.inr rfl)) (.silent ?_)))
  rw [startQueued_lrp, transfer_lrp, beginTaking_number]

/-- Nor has one that waits for the end of a transfer (R89). -/
theorem forceEpoch_portAnswers : PortAnswers s (forceEpoch p s) := .ite (.silent (beginTaking_number _)) (decideForce_portAnswers s)

theorem startStation_portAnswers (strap : BitVec 3) : PortAnswers s (startStation strap p s) :=
  .ite (respondOk_portAnswers ..) (refuse_portAnswers ..)

theorem restart_portAnswers : PortAnswers s (restart p s) := by
  refine .ite (refuse_portAnswers ..) (.ite (refuse_portAnswers ..) (.accepted (.inl ?_)))
  split
  · exact congrArg Lrp.status (catchUpAll_lrp _)
  · rfl

theorem clearMuteCommand_portAnswers : PortAnswers s (clearMuteCommand p s) := .ite (respondOk_portAnswers ..) (refuse_portAnswers ..)

theorem setEnables_portAnswers : PortAnswers s (setEnables p s) := .ite (refuse_portAnswers ..) (respondOk_portAnswers ..)

theorem clearIndications_portAnswers : PortAnswers s (clearIndications p s) := .ite (refuse_portAnswers ..) (respondOk_portAnswers ..)

end

/-! ### Command rows -/

/-- A row is the transaction of one command (R161): its byte, its length check and the bytes after it, and an action that answers. -/
def Transacts (c : Instr) (command : Byte) (agrees : List Byte → Bool) (rest : List Byte) : Prop :=
  ∃ act : List Byte → State → State, (∀ s, exec c s = .next (takeCommand command agrees rest act s))
    ∧ ∀ p u, PortAnswers u (act p u)

theorem transacts_of_fixedLength {c : Instr} {command : Byte} {n : Nat} {rest : List Byte} (h : fixedLength c = some (command, n, rest)) :
    Transacts c command (hasLength n) rest := by
  cases c <;> cases h
  case readStatus => exact ⟨_, fun _ => rfl, fun _ u => respondOk_portAnswers _ _ u u⟩
  case readDirectoryEntry => exact ⟨_, fun _ => rfl, readDirectoryEntry_portAnswers⟩
  case readDegree => exact ⟨_, fun _ => rfl, readDegree_portAnswers⟩
  case readReport => exact ⟨_, fun _ => rfl, readReport_portAnswers⟩
  case readPeerIntent => exact ⟨_, fun _ => rfl, readPeerIntent_portAnswers⟩
  case writeNodeReport => exact ⟨_, fun _ => rfl, writeNodeReport_portAnswers⟩
  case writeSpanReport => exact ⟨_, fun _ => rfl, writeSpanReport_portAnswers⟩
  case clearLatch => exact ⟨_, fun _ => rfl, clearLatch_portAnswers⟩
  case cancel => exact ⟨_, fun _ => rfl, cancel_portAnswers⟩
  case releaseSlot => exact ⟨_, fun _ => rfl, releaseSlot_portAnswers⟩
  case readSlot => exact ⟨_, fun _ => rfl, readSlot_portAnswers⟩
  case commitIntent => exact ⟨_, fun _ => rfl, commitIntent_portAnswers⟩
  case withdraw => exact ⟨_, fun _ => rfl, withdraw_portAnswers⟩
  case forceEpoch => exact ⟨_, fun _ => rfl, forceEpoch_portAnswers⟩
  case start strap => exact ⟨_, fun _ => rfl, fun p u => startStation_portAnswers p u strap⟩
  case restart => exact ⟨_, fun _ => rfl, restart_portAnswers⟩
  case mute => exact ⟨_, fun _ => rfl, fun _ u => respondOk_portAnswers _ _ u _⟩
  case clearMute => exact ⟨_, fun _ => rfl, clearMuteCommand_portAnswers⟩
  case setEnables => exact ⟨_, fun _ => rfl, setEnables_portAnswers⟩
  case clearIndications => exact ⟨_, fun _ => rfl, clearIndications_portAnswers⟩
  case readStoreWord => exact ⟨_, fun _ => rfl, readStoreWord_portAnswers⟩
  case writeStoreWord => exact ⟨_, fun _ => rfl, writeStoreWord_portAnswers⟩

theorem submit_transacts (rest : List Byte) : Transacts (.submit rest) 32 submitLength rest := ⟨_, fun _ => rfl, submit_portAnswers⟩

/-- A byte that names a command makes no such row (log 1). -/
theorem exec_unknownCommand_named {command : Byte} (rest : List Byte) (s : State) (h : command ∈ namedBytes) :
    exec (.unknownCommand command rest) s = .next s := by
  have hc : namedBytes.contains command = true := List.contains_iff_mem.2 h
  exact congrArg Host.Outcome.next (if_pos hc)

theorem exec_unknownCommand {command : Byte} (rest : List Byte) (s : State) (h : command ∉ namedBytes) :
    exec (.unknownCommand command rest) s = .next (endTransaction (rest.length + 1) (refuse command .badCommand) s) := by
  have hc : ¬ namedBytes.contains command = true := mt List.contains_iff_mem.1 h
  exact congrArg Host.Outcome.next (if_neg hc)

theorem isCommand_cases {c : Instr} (h : isCommand c = true) :
    (∃ command n rest, fixedLength c = some (command, n, rest)) ∨ (∃ rest, c = .submit rest)
      ∨ ∃ command rest, c = .unknownCommand command rest := by
  unfold isCommand at h
  split at h
  · exact .inr (.inl ⟨_, rfl⟩)
  · exact .inr (.inr ⟨_, _, rfl⟩)
  · obtain ⟨⟨command, n, rest⟩, hc⟩ := Option.isSome_iff_exists.1 h
    exact .inl ⟨command, n, rest, hc⟩

/-- Every command row leaves one of the three on the port (R161, R162). -/
theorem exec_portAnswers {c : Instr} {s t : State} (hc : isCommand c = true) (h : exec c s = .next t) : PortAnswers s t := by
  have transaction : ∀ {command agrees rest}, Transacts c command agrees rest → PortAnswers s t := fun ⟨act, he, ha⟩ => by
    cases (he s).symm.trans h
    exact takeCommand_portAnswers ha ..
  rcases isCommand_cases hc with ⟨command, n, rest, hf⟩ | ⟨rest, rfl⟩ | ⟨command, rest, rfl⟩
  · exact transaction (transacts_of_fixedLength hf)
  · exact transaction (submit_transacts rest)
  · by_cases hn : command ∈ namedBytes
    · cases (exec_unknownCommand_named rest s hn).symm.trans h
      exact .silent rfl
    · cases (exec_unknownCommand rest s hn).symm.trans h
      exact endTransaction_portAnswers (refuse_portAnswers command .badCommand) ..

/-! ## Lengths (R98, R161, R188) -/

/-- SUBMIT's length, read from its presence byte (R98, R188). -/
theorem submitLength_iff (p : List Byte) : submitLength p = true ↔ ∃ presence, p[7]? = some presence
    ∧ p.length = 8 + (presence.getLsbD 0).toNat + (presence.getLsbD 1).toNat + 2 * (presence.toNat / 16) := by
  have hread : ∀ presence, p[7]? = some presence → (submitLength p = true ↔ 8 ≤ p.length
      ∧ p.length = 8 + (presence.getLsbD 0).toNat + (presence.getLsbD 1).toNat + 2 * (presence.toNat / 16)) := fun presence hp => by
    rw [submitLength, submitHasHint, submitHasDiverse, submitCount, submitPresence, payloadByte_of_getElem? hp, BitVec.testBit_toNat,
      BitVec.testBit_toNat, Bool.and_eq_true, decide_eq_true_eq, decide_eq_true_eq]
  constructor
  · intro h
    have hlen : 7 < p.length := of_decide_eq_true (Bool.and_eq_true_iff.1 h).1
    exact ⟨p[7], List.getElem?_eq_getElem hlen, ((hread _ (List.getElem?_eq_getElem hlen)).1 h).2⟩
  · rintro ⟨presence, hp, hlen⟩
    exact (hread presence hp).2 ⟨(List.getElem?_eq_some_iff.1 hp).1, hlen⟩

/-- Settles O49: a refusal is the last of the three that a command can leave, and the length checks come first. -/
theorem refusalsChangeOnlyThePort : Obligations.RefusalsChangeOnlyThePort := by
  refine ⟨fun c s t hc h hnumber hok hdeferred => ?_, fun s hs => ⟨fun c command n rest hf hlen => ?_, fun rest hlen => ?_⟩⟩
  · cases exec_portAnswers hc h with
    | silent hn => exact absurd hn hnumber
    | accepted ha => exact (ha.elim hok hdeferred).elim
    | refused kept number payload clamped => exact ⟨kept, number, payload, clamped⟩
  · obtain ⟨act, he, -⟩ := transacts_of_fixedLength hf
    rw [he]
    refine congrArg Host.Outcome.next (takeCommand_badLength command _ rest act s hs fun len payload hr hl => decide_eq_false fun hn => ?_)
    exact hlen len payload hr (hl.symm.trans hn) hn
  · obtain ⟨act, he, -⟩ := submit_transacts rest
    rw [he]
    refine congrArg Host.Outcome.next (takeCommand_badLength 32 _ rest act s hs fun len payload hr hl => Bool.eq_false_iff.2 fun hsub => ?_)
    obtain ⟨presence, hp, hp'⟩ := (submitLength_iff payload).1 hsub
    exact hlen len payload hr hl (List.getElem?_eq_some_iff.1 hp).1 presence hp hp'

/-! ## Transactions that are ignored (R159, R160) -/

theorem endTransaction_ignored (n : Nat) (act : State → State) {s : State} (hr : s.inReset = false) (ht : s.lrp.taking = true) :
    endTransaction n act s = ignore (clockZeros n s) := by
  have ht' : (clockZeros n s).beingTaken = true := ht
  simp only [endTransaction, clockZeros_inReset, hr, ht', Bool.false_eq_true, if_false, if_true]

theorem endTransaction_taken (n : Nat) (act : State → State) {s : State} (h : s.listens) :
    endTransaction n act s = act (clockZeros n s) := by
  have ht : (clockZeros n s).beingTaken = false := h.2
  simp only [endTransaction, clockZeros_inReset, h.1, ht, Bool.false_eq_true, if_false]

theorem ignores_iff (s : State) (bytes : List Byte) :
    s.ignores bytes = true ↔ bytes = [] ∨ s.lrp.taking = true ∧ bytes.head? ≠ some 1 := by
  cases bytes with
  | nil => simp [State.ignores]
  | cons command rest => simp [State.ignores, State.beingTaken, cmdReadResponse]

/-- Settles O45: what a read sends, what the response holds, and what ignored and unknown transactions leave. -/
theorem transactionsReadIgnoreAndRefuse : Obligations.TransactionsReadIgnoreAndRefuse := by
  refine ⟨fun s n hr => ⟨repeated s.lrp.response n, ?_, repeated_length _ n, fun k hk => ?_, bitsOf_read hr n⟩, response_eq,
    fun s bits hr hb => ?_, fun s c command n rest hr ht hc => ?_, fun s command rest h hn => ?_⟩
  · exact congrArg Host.Outcome.next (if_neg (Bool.eq_false_iff.1 hr))
  · rw [← response_length]
    exact repeated_getElem? (by rw [response_length]; omega) hk
  · have hi : s.ignores (bytesOf bits) = true := (ignores_iff s _).2 (hb.imp_left bytesOf_short)
    exact congrArg Host.Outcome.next ((if_neg (Bool.eq_false_iff.1 hr)).trans (if_pos hi))
  · rcases hc with hf | rfl | ⟨rfl, hn⟩
    · obtain ⟨act, he, -⟩ := transacts_of_fixedLength hf
      exact (he s).trans (congrArg Host.Outcome.next (endTransaction_ignored _ _ hr ht))
    · obtain ⟨act, he, -⟩ := submit_transacts rest
      exact (he s).trans (congrArg Host.Outcome.next (endTransaction_ignored _ _ hr ht))
    · exact (exec_unknownCommand rest s hn).trans (congrArg Host.Outcome.next (endTransaction_ignored _ _ hr ht))
  · exact (exec_unknownCommand rest s hn).trans (congrArg Host.Outcome.next (endTransaction_taken _ _ h))

end Sys2Proof.Machine
end

section
/-! # The local request port: the layouts of the read commands (R104, R164 to R166, R188) -/

namespace Sys2Proof.Machine

/-! ## The bytes of a layout -/

theorem flags_three (a b c : Bool) : flags [a, b, c] = byte (a.toNat + 2 * b.toNat + 4 * c.toNat) := by
  simp only [flags, numberOfBits]
  congr 1
  omega

theorem flags_five (a b c d e : Bool) :
    flags [a, b, c, d, e] = byte (a.toNat + 2 * b.toNat + 4 * c.toNat + 8 * d.toNat + 16 * e.toNat) := by
  simp only [flags, numberOfBits]
  congr 1
  omega

theorem identityBytes_length (id : Option Identity) : (identityBytes id).length = 9 := by
  cases id <;> simp [identityBytes]

theorem encodePair_eq_bytes : encodePair = Pair.bytes := rfl

theorem exclusionBytes_eq_bytes : exclusionBytes = Exclusion.bytes := by
  funext x
  cases x <;> rfl

theorem policy_code_eq (p : Policy) : p.code = if p = .firstFit then 0 else 1 := by cases p <;> rfl

theorem payloadByte_first (a b : Byte) : payloadByte [a, b] 0 = a.toNat := field_one a [b]

theorem payloadByte_second (a b : Byte) : payloadByte [a, b] 1 = b.toNat := (field_cons a [b] 0 1).trans (field_one b [])

/-! ## READ STATUS and READ DIRECTORY ENTRY (R164, R165) -/

theorem statusPayload_eq (s : State) : s.statusPayload = [byte s.dir.station.code, byte s.ownNumber, byte s.scr.channel.code,
      byte (s.sct.mute.toNat + 2 * s.tdb.dirty.toNat + 4 * s.tdb.pendingEpoch.toNat)]
    ++ toBytes 2 s.tdb.epoch.toNat ++ s.slots.map (fun x => byte x.state.code) ++ toBytes 2 s.ntf.indications.toNat
    ++ toBytes 2 s.ntf.enables.toNat ++ [byte (worstOutcome s.psr.outcomes).code] := by
  rw [State.statusPayload, flags_three]

theorem exec_readStatus {s : State} (h : s.listens) : exec (.readStatus [0]) s = .next (s.answered 2 2 .ok false s.statusPayload) :=
  congrArg Host.Outcome.next (takeCommand_empty cmdReadStatus readStatus s h)

theorem readDirectoryEntry_eq (n : Byte) (s : State) : readDirectoryEntry [n] s =
    if n.toNat < 48 then respondOk cmdReadDirectoryEntry (entryPayload (s.entry n.toNat)) s
    else refuse cmdReadDirectoryEntry .badField s := by
  rw [readDirectoryEntry, payloadByte_single]
  rfl

theorem exec_readDirectoryEntry {s : State} (n : Byte) (h : s.listens) : exec (.readDirectoryEntry [1, n]) s = .next
    (if n.toNat < 48 then s.answered 3 3 .ok false (entryPayload (s.entry n.toNat)) else s.answered 3 3 .badField false []) := by
  refine congrArg Host.Outcome.next ((takeCommand_slot cmdReadDirectoryEntry readDirectoryEntry n h).trans ?_)
  rw [readDirectoryEntry_eq]
  rfl

/-! ## READ DEGREE (R165) -/

theorem readDegree_held {s : State} {d : Byte} {x : Degree} {m : SpmDegree} (hx : s.degrees[d.toNat]? = some x)
    (hm : s.spm.degrees[d.toNat]? = some m) : readDegree [d] s
      = respondOk cmdReadDegree (degreePayload x (s.lolLevel d.toNat) m s.spm.passNoise s.spm.regens) s := by
  simp only [readDegree, payloadByte_single, hx, hm]

theorem readDegree_absent {s : State} {d : Byte} (hx : s.degrees[d.toNat]? = none) :
    readDegree [d] s = refuse cmdReadDegree .badField s := by
  simp only [readDegree, payloadByte_single, hx]

theorem degreePayload_length (x : Degree) (level : Option Bool) (m : SpmDegree) (passNoise regens : Nat) :
    (degreePayload x level m passNoise regens).length = 46 := by
  simp only [degreePayload, List.length_append, identityBytes_length, toBytes_length, List.length_cons, List.length_nil]

/-! ## READ REPORT and READ PEER INTENT (R166) -/

theorem selectTable_none {n : Nat} (h : 2 ≤ n) : selectTable n = none := by
  rw [selectTable, if_neg (by omega), if_neg (by omega)]

section
variable {s : State} {sel n : Byte} {table : Table}

theorem readReport_selected (ht : selectTable sel.toNat = some table) (hn : n.toNat < 48) : readReport [sel, n] s
    = respondOk cmdReadReport (reportPayload (place (s.tdb.reports table) n.toNat)) s := by
  have hn' : n.toNat < Config.stations := hn
  simp only [readReport, payloadByte_first, payloadByte_second, ht, hn', if_true]

theorem readReport_refused (h : 2 ≤ sel.toNat ∨ 48 ≤ n.toNat) : readReport [sel, n] s = refuse cmdReadReport .badField s := by
  simp only [readReport, payloadByte_first, payloadByte_second]
  split
  · rfl
  · next ht =>
    rcases h with h | h
    · exact absurd (ht.symm.trans (selectTable_none h)) nofun
    · exact if_neg (Nat.not_lt.2 h)

theorem readPeerIntent_selected (ht : selectTable sel.toNat = some table) (hn : n.toNat < 32) : readPeerIntent [sel, n] s
    = respondOk cmdReadPeerIntent (s.intentPayload (s.tdb.intentAt table n.toNat)) s := by
  have hn' : n.toNat < Config.intentPlaces := hn
  simp only [readPeerIntent, payloadByte_first, payloadByte_second, ht, hn', if_true]

theorem readPeerIntent_refused (h : 2 ≤ sel.toNat ∨ 32 ≤ n.toNat) :
    readPeerIntent [sel, n] s = refuse cmdReadPeerIntent .badField s := by
  simp only [readPeerIntent, payloadByte_first, payloadByte_second]
  split
  · rfl
  · next ht =>
    rcases h with h | h
    · exact absurd (ht.symm.trans (selectTable_none h)) nofun
    · exact if_neg (Nat.not_lt.2 h)

end

/-! ## READ SLOT (R104) -/

theorem readSlot_held {s : State} {i : Byte} {x : Slot} (hx : s.slot i.toNat = some x) :
    readSlot [i] s = respondOk cmdReadSlot (s.slotPayload x) s := by
  simp only [readSlot, payloadByte_single, hx]

/-- The record that a slot that is not FREE shows (R104). -/
theorem slotPayload_shown {s : State} {x : Slot} {j : Job} {code epoch reason settlements : Nat} {r : PathResult}
    (h : s.shownIn x j code epoch reason settlements r) :
    ∃ e : BitVec 16, e.toNat = epoch ∧ s.slotPayload x = recordBytes code j e reason settlements r x.intent := by
  unfold State.shownIn at h
  cases hx : x.state with
  | free => simp only [hx] at h
  | queued job =>
    simp only [hx] at h
    obtain ⟨rfl, rfl, rfl, rfl, rfl, rfl⟩ := h
    exact ⟨0, rfl, by simp only [State.slotPayload, hx, SlotState.code]⟩
  | running job e =>
    simp only [hx] at h
    obtain ⟨rfl, rfl, rfl, rfl, rfl, rfl⟩ := h
    exact ⟨e, rfl, by simp only [State.slotPayload, hx, SlotState.code]⟩
  | found job e held =>
    simp only [hx] at h
    obtain ⟨rfl, rfl, rfl, rfl, rfl, rfl⟩ := h
    exact ⟨e, rfl, by simp only [State.slotPayload, hx, SlotState.code]⟩
  | invalid job e held why =>
    simp only [hx] at h
    obtain ⟨rfl, rfl, rfl, rfl, rfl, rfl⟩ := h
    exact ⟨e, rfl, by simp only [State.slotPayload, hx, SlotState.code]⟩
  | failed job e why pruned =>
    simp only [hx] at h
    obtain ⟨rfl, rfl, rfl, rfl, rfl, rfl⟩ := h
    exact ⟨e, rfl, by simp only [State.slotPayload, hx, SlotState.code]⟩

theorem jobBytes_length (j : Job) : (jobBytes j).length = 18 := by
  simp [jobBytes]

theorem resultBytes_length (r : PathResult) : (resultBytes r).length = 9 + 5 * r.hops.length + 7 * r.segments.length := by
  have hsegment : ∀ x, (segmentBytes x).length = 7 := fun x => by simp [segmentBytes]
  simp only [resultBytes, List.length_append, List.length_cons, List.length_nil, toBytes_length, flatMap_length hopBytes 5 fun _ => rfl,
    flatMap_length segmentBytes 7 hsegment]
  omega

theorem intentBytes_length (t : Intent) : (intentBytes t).length = 4 + 3 * t.pairs.length := by
  simp only [intentBytes, pairBytes, List.length_append, List.length_cons, List.length_nil, flatMap_length encodePair 3 encodePair_length]
  omega

theorem recordBytes_length (code : Nat) (j : Job) (e : BitVec 16) (reason settlements : Nat) (r : PathResult) (t : Intent) :
    (recordBytes code j e reason settlements r t).length = 39 + 5 * r.hops.length + 7 * r.segments.length + 3 * t.pairs.length := by
  simp only [recordBytes, List.length_append, List.length_cons, List.length_nil, toBytes_length, jobBytes_length, resultBytes_length,
    intentBytes_length]
  omega

/-! ## Every read -/

/-- Settles O46: each read answers the bytes of its layout. -/
theorem readCommandsAnswerAndChangeNothing : Obligations.ReadCommandsAnswerAndChangeNothing := by
  intro s h
  have single := fun c act i => takeCommand_slot c act i h
  have two := fun c act a b => takeCommand_pair c act a b h
  refine ⟨?status, fun n => ?entry,
    fun d x m hx hm => ⟨degreePayload x (s.lolLevel d.toNat) m s.spm.passNoise s.spm.regens, ?degree, degreePayload_length .., ?degreeLayout⟩,
    fun sel n table hsel hn => ?report, fun sel n => ⟨fun hb => ?reportRefused, fun hb => ?intentRefused⟩, fun d hx => ?degreeRefused,
    fun n hn => ⟨?staged, ?active⟩, fun i x hx hfree => ?free, fun i x j code epoch reason settlements r hx hshown => ?record⟩
  case status => rw [exec_readStatus h, statusPayload_eq]
  case entry =>
    rw [exec_readDirectoryEntry n h]
    cases s.entry n.toNat with
    | none => rfl
    | some e => cases e <;> rfl
  case degree =>
    exact congrArg Host.Outcome.next ((single cmdReadDegree readDegree d).trans (readDegree_held (s := clockZeros 3 s) hx hm))
  case degreeLayout =>
    -- The parts of the layout that may be absent: neighbour, candidate, qualifier timer.
    rw [degreePayload, flags_five]
    cases x.trace.nbr <;> cases x.trace.candidate <;> cases m.monitor <;> rfl
  case report =>
    have hread : ∀ t, selectTable sel.toNat = some t → exec (.readReport [2, sel, n]) s
        = .next (s.answered 4 4 .ok false (reportPayload (place (s.tdb.reports t) n.toNat))) := fun t ht =>
      congrArg Host.Outcome.next ((two cmdReadReport readReport sel n).trans (readReport_selected (s := clockZeros 4 s) ht hn))
    rcases hsel with ⟨rfl, rfl⟩ | ⟨rfl, rfl⟩
    · rw [hread .staging rfl, show s.tdb.reports .staging = s.tdb.staging from rfl]
      cases place s.tdb.staging n.toNat <;> rfl
    · rw [hread .active rfl, show s.tdb.reports .active = s.tdb.active from rfl]
      cases place s.tdb.active n.toNat <;> rfl
  case reportRefused =>
    exact congrArg Host.Outcome.next ((two cmdReadReport readReport sel n).trans (readReport_refused hb))
  case intentRefused =>
    exact congrArg Host.Outcome.next ((two cmdReadPeerIntent readPeerIntent sel n).trans (readPeerIntent_refused hb))
  case degreeRefused =>
    exact congrArg Host.Outcome.next ((single cmdReadDegree readDegree d).trans (readDegree_absent (s := clockZeros 3 s) hx))
  case staged =>
    refine congrArg Host.Outcome.next ((two cmdReadPeerIntent readPeerIntent 0 n).trans
      ((readPeerIntent_selected (table := .staging) rfl hn).trans ?_))
    simp only [Tdb.intentAt, clockZeros_tdb]
    cases place s.tdb.stagingIntents n.toNat <;> rfl
  case active =>
    refine congrArg Host.Outcome.next ((two cmdReadPeerIntent readPeerIntent 1 n).trans
      ((readPeerIntent_selected (table := .active) rfl hn).trans ?_))
    simp only [Tdb.intentAt, clockZeros_tdb]
    cases place s.tdb.activeIntents n.toNat <;> rfl
  case free =>
    refine congrArg Host.Outcome.next ((single cmdReadSlot readSlot i).trans ((readSlot_held (s := clockZeros 3 s) hx).trans ?_))
    simp only [State.slotPayload, hfree]
    rfl
  case record =>
    obtain ⟨e, rfl, hp⟩ := slotPayload_shown hshown
    refine ⟨recordBytes code j e reason settlements r x.intent, ?_, recordBytes_length .., ?_⟩
    · rw [← hp]
      exact congrArg Host.Outcome.next ((single cmdReadSlot readSlot i).trans (readSlot_held (s := clockZeros 3 s) hx))
    · simp only [recordBytes, jobBytes, resultBytes, intentBytes, pairBytes, flags_three, policy_code_eq, exclusionBytes_eq_bytes,
        encodePair_eq_bytes, List.append_assoc, List.cons_append, List.nil_append]
      rfl

end Sys2Proof.Machine
end

section
/-! # RESTART: every block returns to its RESTART state, and out of FAULTED the degrees catch up (R46, R169) -/

namespace Sys2Proof.Machine

/-! ## One degree catches up with its filtered level (R46) -/

section
variable {s : State} {d : Nat} {x : Degree} (hx : s.degrees[d]? = some x)
include hx

theorem catchUp_light (ht : x.trace = .dark) (hl : s.lolLevel d ≠ some true) : catchUp s d = changeDegree d x.enterSearching s := by
  simp [catchUp, hx, ht, hl, Degree.enterSearching, Degree.rehunt]

theorem catchUp_dark (ht : x.trace.hears = true) (hl : s.lolLevel d = some true) : catchUp s d = changeDegree d x.enterDark s := by
  cases htrace : x.trace with
  | unequipped | dark => simp [htrace, Trace.hears] at ht
  | searching | traced => simp [catchUp, hx, htrace, hl, Degree.enterDark, Degree.rehunt]

theorem catchUp_level (hlight : x.trace = .dark → s.lolLevel d = some true) (hdark : x.trace.hears = true → s.lolLevel d ≠ some true) :
    catchUp s d = changeDegree d x.rehunt s := by
  cases htrace : x.trace with
  | unequipped => simp [catchUp, hx, htrace]
  | dark => simp [catchUp, hx, htrace, hlight htrace]
  | searching | traced => simp [catchUp, hx, htrace, hdark (by rw [htrace]; rfl)]

end

/-- A receiver put into HUNT again is no change that DEGREE_CHANGE watches (R45, R46). -/
theorem rehunt_watched (x : Degree) : x.rehunt.trace.watched = x.trace.watched := by
  cases ht : x.trace with
  | unequipped | dark | searching => simp [Degree.rehunt, ht, Trace.watched, Trace.code, Trace.nbr, Trace.confirmedNbr]
  | traced nbr n far cand bad => cases far <;> simp [Degree.rehunt, ht, Trace.watched, Trace.code, Trace.nbr, Trace.confirmedNbr]

/-- The trace state of a degree does not go with its filtered level. -/
def Degree.Behind (x : Degree) (lol : Option Bool) : Prop :=
  x.trace = .dark ∧ lol ≠ some true ∨ x.trace.hears = true ∧ lol = some true

/-- R46: `y` is the degree `x` after it has caught up with its filtered level. -/
structure Degree.CatchesUp (lol : Option Bool) (x y : Degree) : Prop where
  word : y.txWord = x.txWord
  stands : x.trace = .unequipped ∨ x.trace = .dark ∧ lol = some true → y = x
  light : x.trace = .dark → lol ≠ some true → y.trace = .searching none ∧ y.receiver = .hunt 13
  dark : x.trace.hears = true → lol = some true → y.trace = .dark ∧ y.receiver = .idle
  searching : ∀ cand, x.trace = .searching cand → lol ≠ some true → y.trace = .searching none ∧ y.receiver = .hunt 13
  traced : ∀ nbr n far cand bad, x.trace = .traced nbr n far cand bad → lol ≠ some true →
    y.trace = .traced nbr n far none 0 ∧ y.receiver = .hunt 13

section
variable {x : Degree} {lol : Option Bool}

theorem enterSearching_catchesUp (ht : x.trace = .dark) (hl : lol ≠ some true) : x.CatchesUp lol x.enterSearching where
  word := rfl
  stands h := by simp [ht, hl] at h
  light _ _ := ⟨rfl, rfl⟩
  dark h _ := by simp [ht, Trace.hears] at h
  searching _ h := by simp [ht] at h
  traced _ _ _ _ _ h := by simp [ht] at h

theorem enterDark_catchesUp (ht : x.trace.hears = true) (hl : lol = some true) : x.CatchesUp lol x.enterDark where
  word := rfl
  stands h := by rcases h with h | ⟨h, -⟩ <;> simp [h, Trace.hears] at ht
  light _ h := absurd hl h
  dark _ _ := ⟨rfl, rfl⟩
  searching _ _ h := absurd hl h
  traced _ _ _ _ _ _ h := absurd hl h

theorem rehunt_catchesUp (hlight : x.trace = .dark → lol = some true) (hdark : x.trace.hears = true → lol ≠ some true) :
    x.CatchesUp lol x.rehunt where
  word := by unfold Degree.rehunt; split <;> rfl
  stands h := by rcases h with h | ⟨h, -⟩ <;> simp [Degree.rehunt, h]
  light h hl := absurd (hlight h) hl
  dark h hl := absurd hl (hdark h)
  searching cand h _ := by simp [Degree.rehunt, h, Receiver.enterHunt, Config.huntMs]
  traced nbr n far cand bad h _ := by simp [Degree.rehunt, h, Receiver.enterHunt, Config.huntMs]

end

/-- A degree catches up; DEGREE_CHANGE watches the catch-up of a degree that was behind, and of no other (R45, R46). -/
theorem catchUp_at {s : State} {d : Nat} {x : Degree} (hx : s.degrees[d]? = some x) : ∃ y, catchUp s d = changeDegree d y s
    ∧ x.CatchesUp (s.lolLevel d) y ∧ (x.trace.watched ≠ y.trace.watched ↔ x.Behind (s.lolLevel d)) := by
  by_cases hlight : x.trace = .dark ∧ s.lolLevel d ≠ some true
  · obtain ⟨ht, hl⟩ := hlight
    refine ⟨_, catchUp_light hx ht hl, enterSearching_catchesUp ht hl, iff_of_true ?_ (.inl ⟨ht, hl⟩)⟩
    simp [ht, Degree.enterSearching, Trace.watched, Trace.code]
  by_cases hdark : x.trace.hears = true ∧ s.lolLevel d = some true
  · obtain ⟨ht, hl⟩ := hdark
    refine ⟨_, catchUp_dark hx ht hl, enterDark_catchesUp ht hl, iff_of_true (fun hw => ?_) (.inr ⟨ht, hl⟩)⟩
    have hcode : x.trace.code = 1 := congrArg Prod.fst hw
    cases htrace : x.trace <;> simp [htrace, Trace.hears, Trace.code] at ht hcode
  · have hlight' : x.trace = .dark → s.lolLevel d = some true := fun ht => not_not.1 fun hl => hlight ⟨ht, hl⟩
    have hdark' : x.trace.hears = true → s.lolLevel d ≠ some true := fun ht hl => hdark ⟨ht, hl⟩
    exact ⟨_, catchUp_level hx hlight' hdark', rehunt_catchesUp hlight' hdark',
      iff_of_false (fun h => h (rehunt_watched x).symm) fun h => h.elim hlight hdark⟩

/-! ## Every degree catches up (R46) -/

/-- Some degree below `n` is behind its filtered level. -/
def State.BehindBelow (s : State) (n : Nat) : Prop := ∃ d x, d < n ∧ s.degrees[d]? = some x ∧ x.Behind (s.lolLevel d)

theorem behindBelow_succ (s : State) (n : Nat) :
    s.BehindBelow (n + 1) ↔ s.BehindBelow n ∨ ∃ x, s.degrees[n]? = some x ∧ x.Behind (s.lolLevel n) := by
  constructor
  · rintro ⟨d, x, hd, hx, hb⟩
    rcases Nat.lt_succ_iff_lt_or_eq.1 hd with hd | rfl
    · exact .inl ⟨d, x, hd, hx, hb⟩
    · exact .inr ⟨x, hx, hb⟩
  · rintro (⟨d, x, hd, hx, hb⟩ | ⟨x, hx, hb⟩)
    · exact ⟨d, x, hd.trans n.lt_succ_self, hx, hb⟩
    · exact ⟨n, x, n.lt_succ_self, hx, hb⟩

/-- The first `n` degrees have caught up with their filtered levels, and nothing but the degrees and DEGREE_CHANGE has changed. -/
structure CaughtUp (n : Nat) (s t : State) : Prop where
  frame : ∃ degrees indications, t = { s with degrees := degrees, ntf := { s.ntf with indications := indications } }
  below : ∀ d x, d < n → s.degrees[d]? = some x → ∃ y, t.degrees[d]? = some y ∧ x.CatchesUp (s.lolLevel d) y
  above : ∀ d, n ≤ d → t.degrees[d]? = s.degrees[d]?
  shown : t.shows .degreeChange ↔ s.shows .degreeChange ∨ s.BehindBelow n
  raised : t.ntf.indications = s.ntf.indications ∨ t.ntf.indications = s.ntf.indications ||| Indication.degreeChange.mask

theorem CaughtUp.zero (s : State) : CaughtUp 0 s s where
  frame := ⟨_, _, rfl⟩
  below d _ h := absurd h (Nat.not_lt_zero d)
  above _ _ := rfl
  shown := (or_iff_left fun ⟨d, _, hd, _⟩ => Nat.not_lt_zero d hd).symm
  raised := .inl rfl

/-- Outside MEMBER a degree's change signals nothing to the report originator (R64). -/
theorem changeDegree_outside {s : State} {d : Nat} {x : Degree} (y : Degree) (hs : s.dir.station ≠ .member)
    (hx : s.degrees[d]? = some x) :
    changeDegree d y s = raiseIf (x.trace.watched != y.trace.watched) .degreeChange (setDegree d y s) := by
  simp only [changeDegree, hx]
  exact orgChangeIf_outside _ _ (by rw [raiseIf_dir]; exact hs)

/-- A place without a degree is passed over. -/
theorem CaughtUp.pass {n : Nat} {s t : State} (h : CaughtUp n s t) (hx : s.degrees[n]? = none) : CaughtUp (n + 1) s t where
  frame := h.frame
  below d x hd hdx := by
    rcases Nat.lt_succ_iff_lt_or_eq.1 hd with hd | rfl
    · exact h.below d x hd hdx
    · cases hx.symm.trans hdx
  above d hd := h.above d (Nat.le_of_succ_le hd)
  shown := by
    rw [h.shown, behindBelow_succ]
    simp [hx]
  raised := h.raised

theorem raiseIf_indications (c : Bool) (i : Indication) (s : State) :
    (raiseIf c i s).ntf.indications = if c then s.ntf.indications ||| i.mask else s.ntf.indications := by
  cases c <;> rfl

/-- The next degree catches up. -/
theorem CaughtUp.turn {n : Nat} {s t : State} {x y : Degree} {c : Bool} (h : CaughtUp n s t) (hx : s.degrees[n]? = some x)
    (hy : x.CatchesUp (s.lolLevel n) y) (hc : c = true ↔ x.Behind (s.lolLevel n)) :
    CaughtUp (n + 1) s (raiseIf c .degreeChange (setDegree n y t)) where
  frame := by
    obtain ⟨degrees, indications, rfl⟩ := h.frame
    cases c <;> exact ⟨_, _, rfl⟩
  below d z hd hz := by
    have hlt : n < t.degrees.length := (List.getElem?_eq_some_iff.1 ((h.above n (Nat.le_refl n)).trans hx)).1
    rw [raiseIf_degrees]
    rcases Nat.lt_succ_iff_lt_or_eq.1 hd with hd | rfl
    · rw [setDegree_degrees, List.getElem?_set_ne hd.ne']
      exact h.below d z hd hz
    · cases hx.symm.trans hz
      exact ⟨y, List.getElem?_set_self hlt, hy⟩
  above d hd := by
    rw [raiseIf_degrees, setDegree_degrees, List.getElem?_set_ne (Nat.ne_of_lt hd)]
    exact h.above d (Nat.le_of_succ_le hd)
  shown := by
    rw [raiseIf_shows, behindBelow_succ, hc]
    have hshown : (setDegree n y t).shows .degreeChange ↔ _ := h.shown
    rw [hshown]
    simp only [hx, Option.some.injEq, exists_eq_left', and_true]
    tauto
  raised := by
    have hraised : (setDegree n y t).ntf = t.ntf := rfl
    rw [raiseIf_indications, hraised]
    rcases h.raised with hr | hr <;> rw [hr] <;> cases c
    · exact .inl rfl
    · exact .inr rfl
    · exact .inr rfl
    · exact .inr (by rw [if_pos rfl, BitVec.or_assoc, BitVec.or_self])

theorem CaughtUp.succ {n : Nat} {s t : State} (hs : s.dir.station ≠ .member) (h : CaughtUp n s t) : CaughtUp (n + 1) s (catchUp t n) := by
  have hat : t.degrees[n]? = s.degrees[n]? := h.above n (Nat.le_refl n)
  have hkept : t.dir = s.dir ∧ t.lolLevel n = s.lolLevel n := by
    obtain ⟨degrees, indications, rfl⟩ := h.frame
    exact ⟨rfl, rfl⟩
  cases hx : s.degrees[n]? with
  | none =>
    have hstands : catchUp t n = t := by simp only [catchUp, hat, hx]
    rw [hstands]
    exact h.pass hx
  | some x =>
    obtain ⟨y, he, hy, hw⟩ := catchUp_at (hat.trans hx)
    rw [hkept.2] at hy hw
    rw [he, changeDegree_outside y (by rw [hkept.1]; exact hs) (hat.trans hx)]
    exact h.turn hx hy (bne_iff_ne.trans hw)

theorem catchUpAll_caughtUp {s : State} (hs : s.dir.station ≠ .member) : CaughtUp 8 s (catchUpAll s) := by
  have hall : ∀ n, CaughtUp n s ((List.range n).foldl catchUp s) := fun n => by
    induction n with
    | zero => exact .zero s
    | succ n ih =>
      rw [List.range_succ, List.foldl_append]
      exact ih.succ hs
  exact hall 8

/-! ## RESTART (R169) -/

section
variable {s : State} (h : s.listens)
include h

theorem exec_restart : exec (.restart [0]) s = .next (restart [] (clockZeros 2 s)) :=
  congrArg Host.Outcome.next (takeCommand_empty cmdRestart restart s h)

theorem exec_restart_loading (hl : s.dir.station = .loading) : exec (.restart [0]) s = .next (s.answered 2 66 .badState false []) :=
  (exec_restart h).trans (congrArg Host.Outcome.next (if_pos hl))

variable (hl : s.dir.station ≠ .loading)
include hl

theorem exec_restart_busy (hb : s.psr.busy.isSome = true) :
    exec (.restart [0]) s = .next (s.answered 2 66 .storeBusy false []) :=
  (exec_restart h).trans (congrArg Host.Outcome.next ((if_neg hl).trans (if_pos hb)))

theorem exec_restart_taken (hb : s.psr.busy = none) : exec (.restart [0]) s = .next
    (if s.dir.station = .faulted then catchUpAll (restartBlocks (s.answered 2 66 .ok false []))
      else restartBlocks (s.answered 2 66 .ok false [])) := by
  have hfree : ¬ (clockZeros 2 s).psr.busy.isSome = true := by rw [clockZeros_psr, hb]; decide
  exact (exec_restart h).trans (congrArg Host.Outcome.next ((if_neg hl).trans (if_neg hfree)))

end

/-- R36, R47: the trace lines go dark, and the degrees keep all else. -/
theorem restartBlocks_degree (s : State) (d : Nat) :
    (restartBlocks s).degrees[d]? = s.degrees[d]?.map fun x => { x with txWord := none } := List.getElem?_map ..

theorem restartBlocks_behindBelow (s : State) (n : Nat) : (restartBlocks s).BehindBelow n ↔ s.BehindBelow n := by
  simp only [State.BehindBelow, restartBlocks_degree, Option.map_eq_some_iff]
  constructor
  · rintro ⟨d, _, hd, ⟨x, hx, rfl⟩, hb⟩
    exact ⟨d, x, hd, hx, hb⟩
  · rintro ⟨d, x, hd, hx, hb⟩
    exact ⟨d, _, hd, ⟨x, hx, rfl⟩, hb⟩

theorem restartBlocks_shows (s : State) (i : Indication) : ¬ (restartBlocks s).shows i := by
  have hzero : (0 : Mask).getLsbD i.position = false := BitVec.getLsbD_zero
  exact Bool.eq_false_iff.1 hzero

/-- What a RESTART that is taken leaves: the RESTART state of every block, but for the degrees and the indications where it leaves FAULTED. -/
theorem exec_restart_leaves {s r : State} (h : s.listens) (hl : s.dir.station ≠ .loading) (hb : s.psr.busy = none)
    (hr : r = restartBlocks (s.answered 2 66 .ok false [])) : ∃ t degrees indications, exec (.restart [0]) s = .next t
      ∧ t = { r with degrees := degrees, ntf := { r.ntf with indications := indications } }
      ∧ (s.dir.station ≠ .faulted → t = r) ∧ (s.dir.station = .faulted → CaughtUp 8 r t) := by
  subst hr
  rw [exec_restart_taken h hl hb]
  by_cases hf : s.dir.station = .faulted
  · have hcaught := catchUpAll_caughtUp (s := restartBlocks (s.answered 2 66 .ok false [])) (show Station.loading ≠ .member by decide)
    obtain ⟨degrees, indications, hframe⟩ := hcaught.frame
    rw [if_pos hf]
    exact ⟨_, degrees, indications, rfl, hframe, fun hn => absurd hf hn, fun _ => hcaught⟩
  · rw [if_neg hf]
    exact ⟨_, _, _, rfl, rfl, fun _ => rfl, fun h => absurd h hf⟩

/-- Settles O7: every block has its RESTART column, and the degrees catch up exactly where the RESTART leaves FAULTED. -/
theorem restartReturnsEveryBlockToLoading : Obligations.RestartReturnsEveryBlockToLoading := by
  refine fun s h => ⟨fun hl hb => ?_, exec_restart_loading h, exec_restart_busy h⟩
  obtain ⟨t, degrees, indications, hexec, hframe, hkept, hcaught⟩ := exec_restart_leaves h hl hb rfl
  subst hframe
  refine ⟨_, hexec, rfl, rfl, rfl, rfl, rfl, rfl, rfl, rfl, rfl, rfl, rfl, rfl, rfl, rfl, rfl, rfl, rfl, rfl, rfl, rfl, rfl, rfl, rfl, rfl,
    rfl, rfl, rfl, rfl, fun hn => ?_, fun hf => ?_⟩
  · rw [hkept hn]
    exact ⟨rfl, rfl⟩
  · obtain ⟨-, below, -, shown, raised⟩ := hcaught hf
    refine ⟨raised.imp_right (·.trans (BitVec.zero_or ..)), ?_, fun d x hd hx => ?_⟩
    · exact shown.trans ((or_iff_right (restartBlocks_shows _ _)).trans (restartBlocks_behindBelow (s.answered 2 66 .ok false []) 8))
    · have hcut := (restartBlocks_degree (s.answered 2 66 .ok false []) d).trans (congrArg _ hx)
      obtain ⟨y, hy, hword, hstands, hlight, hdark, hsearching, htraced⟩ := below d _ hd hcut
      exact ⟨y, hy, hword, hstands, hlight, hdark, hsearching, htraced⟩

end Sys2Proof.Machine
end

section
/-! # The end of a load: parameters, outcomes, station state (R13, R85, R177 to R179) -/

namespace Sys2Proof.Machine

/-! ## Changes that nobody hears (R45, R52, R64, R70) -/

/-- The passage from `s` to `t` signals nothing to the ORG: own report, staging tables, transmitter, directory and enables stand, and
STORE_FAULT is shown as before; the receiver has no part in it. -/
structure Unheard (s t : State) : Prop where
  scr : t.scr = s.scr
  sct : t.sct = s.sct
  dir : t.dir = s.dir
  org : t.org = s.org
  tdb : t.tdb = s.tdb
  enables : t.ntf.enables = s.ntf.enables
  fault : t.shows .storeFault ↔ s.shows .storeFault

namespace Unheard

variable {s t u : State}

theorem refl (s : State) : Unheard s s := ⟨rfl, rfl, rfl, rfl, rfl, rfl, .rfl⟩

theorem trans (h : Unheard s t) (k : Unheard t u) : Unheard s u where
  scr := k.scr.trans h.scr
  sct := k.sct.trans h.sct
  dir := k.dir.trans h.dir
  org := k.org.trans h.org
  tdb := k.tdb.trans h.tdb
  enables := k.enables.trans h.enables
  fault := k.fault.trans h.fault

/-- A fold outside MEMBER is unheard when each of its steps is. -/
theorem foldl {α : Type} {f : State → α → State} (hf : ∀ t a, t.dir.station ≠ .member → Unheard t (f t a)) (l : List α)
    (hs : s.dir.station ≠ .member) : Unheard s (l.foldl f s) := by
  induction l generalizing s with
  | nil => exact refl s
  | cons a l ih =>
    have first := hf s a hs
    exact first.trans (ih (by rwa [first.dir]))

/-- An indication other than STORE_FAULT, raised or not. -/
theorem raised {i : Indication} (hi : i ≠ .storeFault) (c : Bool) (h : Unheard s t) : Unheard s (raiseIf c i t) := by
  refine h.trans ?_
  cases c
  · exact refl t
  · exact ⟨rfl, rfl, rfl, rfl, rfl, rfl, (raise_shows i .storeFault t).trans (or_iff_right hi.symm)⟩

end Unheard

theorem changeDegree_unheard (d : Nat) (y : Degree) {s : State} (hs : s.dir.station ≠ .member) : Unheard s (changeDegree d y s) := by
  cases hx : s.degrees[d]? with
  | none =>
    simp only [changeDegree, hx]
    exact .refl s
  | some x =>
    rw [changeDegree_outside y hs hx]
    exact .raised (by decide) _ ⟨rfl, rfl, rfl, rfl, rfl, rfl, .rfl⟩

theorem changeMonitor_unheard (d n : Nat) (m : Monitor) {s : State} (hs : s.dir.station ≠ .member) :
    Unheard s (changeMonitor d n m s) := by
  cases hx : s.spm.degrees[d]? with
  | none =>
    simp only [changeMonitor, hx]
    exact .refl s
  | some x =>
    rw [changeMonitor_eq hx, orgChangeIf_outside _ _ (by simpa using hs)]
    exact .raised (by decide) _ ⟨rfl, rfl, rfl, rfl, rfl, rfl, .rfl⟩

theorem applyEquipped_unheard (s : State) (d : Nat) (hs : s.dir.station ≠ .member) : Unheard s (applyEquipped s d) := by
  unfold applyEquipped
  split
  · split
    · exact changeDegree_unheard d _ hs
    · exact .refl s
    · exact .refl s
    · exact changeDegree_unheard d _ hs
  · exact .refl s

theorem decideHeldExpiry_unheard (s : State) (d : Nat) (hs : s.dir.station ≠ .member) : Unheard s (decideHeldExpiry s d) := by
  unfold decideHeldExpiry
  split
  · split
    · exact changeMonitor_unheard d _ _ hs
    · exact .refl s
  · exact .refl s

/-- Outside MEMBER the degrees take a load without a word to the ORG (R39, R59). -/
theorem applyLoad_unheard {s : State} (hs : s.dir.station ≠ .member) : Unheard s (applyLoad s) := by
  have equipped := Unheard.foldl applyEquipped_unheard (List.range Config.degrees) hs
  exact equipped.trans (.foldl decideHeldExpiry_unheard _ (by rwa [equipped.dir]))

/-! ## LOAD_END (R177 to R179) -/

/-- The generator of the transmitter after a load (R13): the first one after a device reset seeds it. -/
def State.seededSct (s : State) : Sct :=
  if s.psr.firstLoad then { s.sct with seed := (loadParams s.psr.store).uid, draws := 0 } else s.sct

/-- The state in which a load takes effect on the degrees: store and generator are done, the station state `x` is entered. -/
def State.loadedIn (s : State) (x : Station) : State :=
  { s with psr := s.psr.loaded, sct := s.seededSct, dir := { s.dir with station := x } }

theorem endLoad_eq {s : State} (hl : s.loadRuns = true) : endLoad s =
    if s.psr.loaded.hasFault then enterFaulted (applyLoad (s.loadedIn .faulted)) else enterStandby (applyLoad (s.loadedIn .standby)) := by
  have hs : (if s.psr.firstLoad then seedGenerator (setPsr s.psr.loaded s) else setPsr s.psr.loaded s)
      = { s with psr := s.psr.loaded, sct := s.seededSct } := by
    unfold State.seededSct
    split <;> rfl
  rw [endLoad, if_pos hl]
  dsimp only
  rw [hs]
  rfl

/-- A word of the store is UNCORRECTABLE (R177). -/
theorem loaded_hasFault_iff (p : Psr) : p.loaded.hasFault = true ↔ ∃ w ∈ p.store, (readWord w).1 = .uncorrectable := by
  simp [Psr.hasFault, Psr.loaded]

/-- What every end of a load leaves, whichever state `x` it leads to. -/
structure LoadLeaves (s t : State) (x : Station) : Prop where
  sct : t.sct = s.seededSct
  dir : t.dir = { s.dir with station := x }
  org : t.org = s.org
  channel : t.scr.channel = s.scr.channel
  enables : t.ntf.enables = s.ntf.enables

/-- What the degrees take unheard, and what follows it leaves, a load leaves. -/
theorem LoadLeaves.of_unheard {s t u : State} {x : Station} (h : Unheard (s.loadedIn x) u) (hs : t.sct = u.sct) (hd : t.dir = u.dir)
    (ho : t.org = u.org) (hc : t.scr.channel = u.scr.channel) (he : t.ntf.enables = u.ntf.enables) : LoadLeaves s t x :=
  ⟨hs.trans h.sct, hd.trans h.dir, ho.trans h.org, hc.trans (congrArg Scr.channel h.scr), he.trans h.enables⟩

section
variable {s : State} (hl : s.loadRuns = true)
include hl

/-- R179: a fault in the store leads to FAULTED, with the epoch timer as it was. -/
theorem endLoad_faulted (hf : s.psr.loaded.hasFault = true) : LoadLeaves s (endLoad s) .faulted
    ∧ (endLoad s).shows .storeFault ∧ (endLoad s).tdb = s.tdb := by
  have applied := applyLoad_unheard (s := s.loadedIn .faulted) (show Station.faulted ≠ .member by decide)
  rw [endLoad_eq hl, if_pos hf]
  generalize applyLoad (s.loadedIn .faulted) = u at applied ⊢
  exact ⟨.of_unheard applied rfl rfl rfl rfl rfl, (raise_shows _ _ _).2 (.inl rfl), applied.tdb⟩

/-- R85, R179: a store without a fault leads to STANDBY, and the epoch timer starts with the period just loaded. -/
theorem endLoad_standby (hf : s.psr.loaded.hasFault = false) : LoadLeaves s (endLoad s) .standby
    ∧ ((endLoad s).shows .storeFault ↔ s.shows .storeFault)
    ∧ (endLoad s).tdb = { s.tdb with epochTimer := some (10 * (loadParams s.psr.store).epoch) } := by
  have applied := applyLoad_unheard (s := s.loadedIn .standby) (show Station.standby ≠ .member by decide)
  have hpsr : (applyLoad (s.loadedIn .standby)).psr = s.psr.loaded := applyLoad_psr _
  rw [endLoad_eq hl, hf, if_neg Bool.false_ne_true]
  generalize applyLoad (s.loadedIn .standby) = u at applied hpsr ⊢
  have hntf := enterStandby_ntf u
  refine ⟨.of_unheard applied (enterStandby_sct u) (enterStandby_dir u) (enterStandby_org u) (congrArg Scr.channel (enterStandby_scr u))
    (congrArg Ntf.enables hntf), ?_, ?_⟩
  · rw [State.shows, hntf]
    exact applied.fault
  · rw [enterStandby, beginWords_tdb, applied.tdb, hpsr, Nat.mul_comm]
    rfl

theorem endLoad_leaves : ∃ x, LoadLeaves s (endLoad s) x := by
  cases hf : s.psr.loaded.hasFault with
  | true => exact ⟨_, (endLoad_faulted hl hf).1⟩
  | false => exact ⟨_, (endLoad_standby hl hf).1⟩

end

theorem seededSct_fields (s : State) : s.seededSct.seed = (if s.psr.firstLoad then (loadParams s.psr.store).uid else s.sct.seed)
    ∧ s.seededSct.queue = s.sct.queue ∧ s.seededSct.service = s.sct.service ∧ s.seededSct.mute = s.sct.mute := by
  unfold State.seededSct
  split <;> exact ⟨rfl, rfl, rfl, rfl⟩

/-- Settles O5: the store's block first, then the two states a load can lead to, then what both leave. -/
theorem loadEndBuildsParametersAndMovesStation : Obligations.LoadEndBuildsParametersAndMovesStation := by
  intro s ⟨hr, hst, htimer⟩
  have hl : s.loadRuns = true := by simp [State.loadRuns, hst, htimer]
  obtain ⟨hpsr, -, hrx⟩ := endLoad_blocks s hl
  obtain ⟨x, hsct, hdir, horg, hchannel, henables⟩ := endLoad_leaves hl
  obtain ⟨hseed, hqueue, hservice, hmute⟩ := seededSct_fields s
  refine ⟨endLoad s, congrArg Host.Outcome.next (live_of_running endLoad s hr), ?_⟩
  rw [hpsr, hsct]
  refine ⟨rfl, rfl, rfl, rfl, rfl, fun hbad => ?_, fun hgood => ?_, hseed, hqueue, hservice, hmute, by rw [hdir], horg, endLoad_slots s,
    endLoad_reqQueue s, endLoad_pen s, endLoad_lrp s, endLoad_pins s, hchannel, hrx, henables⟩
  · obtain ⟨leaves, hrest⟩ := endLoad_faulted hl ((loaded_hasFault_iff _).2 hbad)
    exact ⟨congrArg Dir.station leaves.dir, hrest⟩
  · have hclean : s.psr.loaded.hasFault = false := Bool.eq_false_iff.2 fun hf => by
      obtain ⟨w, hw, hu⟩ := (loaded_hasFault_iff _).1 hf
      exact hgood w hw hu
    obtain ⟨leaves, hrest⟩ := endLoad_standby hl hclean
    exact ⟨congrArg Dir.station leaves.dir, hrest⟩

end Sys2Proof.Machine
end

section
/-! # What a row may write: the blocks of its own list and no others -/

namespace Sys2Proof.Machine

/-! ## The front of the queue, and the part in device reset -/

/-- Settles O1: the step takes the front of the queue off and runs it. -/
theorem stepRunsFrontCommand : Obligations.StepRunsFrontCommand := fun _ _ => rfl

/-- Settles O4: the part's own rows act outside device reset only; a transaction on the port clocks zeros. -/
theorem heldInResetNothingMoves : Obligations.HeldInResetNothingMoves := by
  intro c s hr hreset hrelease
  have zeros : ∀ {n t}, t = clockZeros n s → exec c s = .next t → exec c s = .next s ∨ ∃ n, exec c s = .next (clockZeros n s) :=
    fun ht he => .inr ⟨_, ht ▸ he⟩
  cases c with
  | deviceReset => exact absurd rfl hreset
  | resetRelease => exact absurd rfl hrelease
  | readResponse => exact zeros (if_pos hr) rfl
  | ignoredTransaction => exact zeros (if_pos hr) rfl
  | unknownCommand command rest =>
    by_cases hn : command ∈ namedBytes
    · exact .inl (exec_unknownCommand_named rest s hn)
    · exact zeros (if_pos hr) (exec_unknownCommand rest s hn)
  | loadEnd | pinSample | frameStart | carrierEnd | episodeEnd | darkTimerExpiry | takeIntoService | quietGapExpiry | sendEnd
  | echoCheckClose | takeReceivedFrame | peerLifetimeExpiry | claimRoundTimerExpiry | noNumberTimerExpiry | traceWordSend
  | traceSyncMatch | traceWordJudgement | huntTimerExpiry | qualifierTimerExpiry | holdDownExpiry | refreshTimerExpiry
  | epochTimerExpiry | peerIntentLifetimeExpiry | settlement | windowTimerExpiry | intentRefreshExpiry | storeBusyExpiry | loadWordRead
  | epochTransferEnd => exact .inl (congrArg Host.Outcome.next (live_of_reset _ s hr))
  | readStatus | readDirectoryEntry | readDegree | readReport | readPeerIntent | writeNodeReport | writeSpanReport | clearLatch | submit
  | cancel | releaseSlot | readSlot | commitIntent | withdraw | forceEpoch | start | restart | mute | clearMute | setEnables
  | clearIndications | readStoreWord | writeStoreWord => exact zeros (takeCommand_reset _ _ _ _ s hr) rfl

/-! ## Passages that write certain blocks only -/

/-- The passage from `s` to `t` writes no block outside the list. -/
def WritesOnly (written : List Block) (s t : State) : Prop := ∀ b, b ∉ written → s.agree t b

/-- The parts of State, in its order. -/
def Block.all : List Block :=
  [.pending, .inReset, .scr, .sct, .pins, .dir, .degrees, .spm, .org, .tdb, .slots, .reqQueue, .pen, .lrp, .ntf, .psr]

theorem Block.mem_all (b : Block) : b ∈ Block.all := by cases b <;> decide

/-- The blocks that a list does not name, in the order of State. -/
def Block.outside (written : List Block) : List Block := Block.all.filter fun b => decide (b ∉ written)

namespace WritesOnly

variable {written : List Block} {s t : State}

theorem refl (s : State) : WritesOnly written s s := fun b _ => by cases b <;> rfl

/-- What an operation keeps, field after field in the order of State (Laws/Frames), is what lies outside the blocks it writes: on a list
that is written out, `List.Forall` is the conjunction of those equations. -/
theorem of_keeps (h : (Block.outside written).Forall (s.agree t)) : WritesOnly written s t := fun b hb =>
  List.forall_iff_forall_mem.1 h b (List.mem_filter.2 ⟨b.mem_all, decide_eq_true hb⟩)

/-- A block of the list that stands as it was need not be named. -/
theorem drop {b : Block} (h : WritesOnly (b :: written) s t) (hb : s.agree t b) : WritesOnly written s t := fun k hk => by
  by_cases hkb : k = b
  · exact hkb ▸ hb
  · exact h k (List.not_mem_cons_of_ne_of_not_mem hkb hk)

/-- A row outside device reset. -/
theorem live {f : State → State} (h : WritesOnly written s (f s)) : WritesOnly written s (live f s) := by
  unfold Machine.live
  split
  · exact refl s
  · exact h

/-- A command writes the port, and what its action writes (R161). -/
theorem command {k : Byte} {agrees : List Byte → Bool} {rest : List Byte} {act : List Byte → State → State}
    (h : ∀ p u, WritesOnly (.lrp :: written) u (act p u)) : WritesOnly (.lrp :: written) s (takeCommand k agrees rest act s) :=
  fun b hb => takeCommand_agree k agrees rest act s b (List.ne_of_not_mem_cons hb) fun p u => h p u b hb

end WritesOnly

/-! ## Two rows that signal nothing to the ORG -/

/-- A carrier onset leaves the impaired flag, so no report is originated (R7, R8). -/
theorem startFrame_quiet (s : State) : (startFrame s).org = s.org ∧ (startFrame s).tdb = s.tdb := by
  cases hc : s.scr.carrier with
  | true =>
    rw [startFrame, if_pos hc]
    exact ⟨rfl, rfl⟩
  | false =>
    by_cases hf : s.dir.station = .faulted
    · rw [startFrame_faulted s hc hf]
      exact ⟨stopGap_org s, stopGap_tdb s⟩
    · rw [startFrame_onset s hc hf, raiseIf_org, raiseIf_tdb]
      exact ⟨stopGap_org s, stopGap_tdb s⟩

theorem startFrame_writesOnly (s : State) : WritesOnly (rowWrites .frameStart) s (startFrame s) :=
  (WritesOnly.of_keeps (written := .tdb :: .org :: rowWrites .frameStart) (startFrame_keeps s)).drop (startFrame_quiet s).2
    |>.drop (startFrame_quiet s).1

/-- A load ends outside MEMBER, so no report is originated (R70, R179). -/
theorem endLoad_org (s : State) : (endLoad s).org = s.org := by
  by_cases hl : s.loadRuns = true
  · obtain ⟨_, leaves⟩ := endLoad_leaves hl
    exact leaves.org
  · rw [endLoad, if_neg hl]

theorem endLoad_writesOnly (s : State) : WritesOnly (rowWrites .loadEnd) s (endLoad s) :=
  (WritesOnly.of_keeps (written := .org :: rowWrites .loadEnd) (endLoad_keeps s)).drop (endLoad_org s)

/-! ## Every row -/

/-- Row by row, what its operation keeps is all that its list does not name. -/
theorem exec_writesOnly (c : Instr) (s t : State) (h : exec c s = .next t) : WritesOnly (rowWrites c) s t := by
  cases c <;> cases h
  case deviceReset => exact .of_keeps (show (deviceReset s).pending = s.pending from rfl)
  case resetRelease => exact .of_keeps (releaseReset_keeps s)
  case loadEnd => exact (endLoad_writesOnly s).live
  case pinSample => exact .live (.of_keeps (samplePins_keeps ..))
  case frameStart => exact (startFrame_writesOnly s).live
  case carrierEnd => exact .live (.of_keeps (endCarrier_keeps s))
  case episodeEnd => exact .live (.of_keeps (endEpisode_keeps ..))
  case darkTimerExpiry => exact .live (.of_keeps (darkExpired_keeps s))
  case takeIntoService => exact .live (.of_keeps (takeService_keeps s))
  case quietGapExpiry => exact .live (.of_keeps (enterSend_keeps s))
  case sendEnd => exact .live (.of_keeps (endSend_keeps s))
  case echoCheckClose => exact .live (.of_keeps (closeEcho_keeps s))
  case takeReceivedFrame => exact .live (.of_keeps (takeOldest_keeps ..))
  case peerLifetimeExpiry => exact .live (.of_keeps (purge_keeps ..))
  case claimRoundTimerExpiry => exact .live (.of_keeps (roundExpired_keeps s))
  case noNumberTimerExpiry => exact .live (.of_keeps (noNumberExpired_keeps ..))
  case traceWordSend => exact .live (.of_keeps (sendWord_keeps ..))
  case traceSyncMatch => exact .live (.of_keeps (matchSync_keeps ..))
  case traceWordJudgement => exact .live (.of_keeps (judgeHeard_keeps ..))
  case huntTimerExpiry => exact .live (.of_keeps (huntExpired_keeps ..))
  case qualifierTimerExpiry => exact .live (.of_keeps (qualifierExpired_keeps ..))
  case holdDownExpiry => exact .live (.of_keeps (holdDownExpired_keeps s))
  case refreshTimerExpiry => exact .live (.of_keeps (refreshExpired_keeps s))
  case epochTimerExpiry => exact .live (.of_keeps (epochExpired_keeps s))
  case peerIntentLifetimeExpiry => exact .live (.of_keeps (expireIntent_keeps ..))
  case settlement => exact .live (.of_keeps (settle_keeps s))
  case windowTimerExpiry => exact .live (.of_keeps (windowExpired_keeps ..))
  case intentRefreshExpiry => exact .live (.of_keeps (refreshIntent_keeps ..))
  case storeBusyExpiry => exact .live (.of_keeps (endStoreWrite_keeps s))
  case readResponse => exact .of_keeps (readResponse_keeps ..)
  case ignoredTransaction => exact .of_keeps (ignoreTransaction_keeps ..)
  case unknownCommand => exact .of_keeps (refuseUnknown_keeps ..)
  case readStatus => exact .command fun p u => .of_keeps (readStatus_keeps p u)
  case readDirectoryEntry => exact .command fun p u => .of_keeps (readDirectoryEntry_keeps p u)
  case readDegree => exact .command fun p u => .of_keeps (readDegree_keeps p u)
  case readReport => exact .command fun p u => .of_keeps (readReport_keeps p u)
  case readPeerIntent => exact .command fun p u => .of_keeps (readPeerIntent_keeps p u)
  case writeNodeReport => exact .command fun p u => .of_keeps (writeNodeReport_keeps p u)
  case writeSpanReport => exact .command fun p u => .of_keeps (writeSpanReport_keeps p u)
  case clearLatch => exact .command fun p u => .of_keeps (clearLatch_keeps p u)
  case submit => exact .command fun p u => .of_keeps (submit_keeps p u)
  case cancel => exact .command fun p u => .of_keeps (cancel_keeps p u)
  case releaseSlot => exact .command fun p u => .of_keeps (releaseSlot_keeps p u)
  case readSlot => exact .command fun p u => .of_keeps (readSlot_keeps p u)
  case commitIntent => exact .command fun p u => .of_keeps (commitIntent_keeps p u)
  case withdraw => exact .command fun p u => .of_keeps (withdraw_keeps p u)
  case forceEpoch => exact .command fun p u => .of_keeps (forceEpoch_keeps p u)
  case start => exact .command fun p u => .of_keeps (startStation_keeps _ p u)
  case restart => exact .command fun p u => .of_keeps (restart_keeps p u)
  case mute => exact .command fun p u => .of_keeps (muteCommand_keeps p u)
  case clearMute => exact .command fun p u => .of_keeps (clearMuteCommand_keeps p u)
  case setEnables => exact .command fun p u => .of_keeps (setEnables_keeps p u)
  case clearIndications => exact .command fun p u => .of_keeps (clearIndications_keeps p u)
  case readStoreWord => exact .command fun p u => .of_keeps (readStoreWord_keeps p u)
  case writeStoreWord => exact .command fun p u => .of_keeps (writeStoreWord_keeps p u)
  case loadWordRead => exact .live (.of_keeps (loadWord_keeps s))
  case epochTransferEnd => exact .live (.of_keeps (endTransfer_keeps s))

/-- Settles O59. -/
theorem rowsWriteOnlyTheirBlocks : Obligations.RowsWriteOnlyTheirBlocks := fun c s t b h => exec_writesOnly c s t h b

end Sys2Proof.Machine
end

section
/-! # The store code: one inverted bit is corrected, two are detected (R176, R186) -/

namespace Sys2Proof.Machine

/-! ## Parities -/

theorem parity_cons (b : Bool) (l : List Bool) : parity (b :: l) = (b ^^ parity l) := by
  have started : ∀ (l : List Bool) (a : Bool), l.foldl (fun a b => a != b) a = (a ^^ parity l) := fun l => by
    unfold parity
    induction l with
    | nil => simp
    | cons x l ih =>
      intro a
      rw [List.foldl_cons, ih, List.foldl_cons, ih (false != x)]
      simp
  exact (congrArg (l.foldl _) (Bool.false_bne b)).trans (started l b)

theorem parity_append (a b : List Bool) : parity (a ++ b) = (parity a ^^ parity b) := by
  induction a with
  | nil => exact (Bool.false_xor _).symm
  | cons x a ih => rw [List.cons_append, parity_cons, ih, parity_cons, Bool.xor_assoc]

/-- Parity is linear. -/
theorem parity_map_xor {α : Type} (f g : α → Bool) (l : List α) :
    parity (l.map fun a => (f a ^^ g a)) = (parity (l.map f) ^^ parity (l.map g)) := by
  induction l with
  | nil => rfl
  | cons a l ih =>
    rw [List.map_cons, List.map_cons, List.map_cons, parity_cons, parity_cons, parity_cons, ih]
    simp only [Bool.xor_assoc, Bool.xor_left_comm]

/-- The parity of the bits of a word. -/
def bitsParity {n : Nat} (x : BitVec n) : Bool := parity ((List.range n).map x.getLsbD)

theorem bitsParity_xor {n : Nat} (x y : BitVec n) : bitsParity (x ^^^ y) = (bitsParity x ^^ bitsParity y) := by
  have h : (x ^^^ y).getLsbD = fun i => (x.getLsbD i ^^ y.getLsbD i) := funext fun i => BitVec.getLsbD_xor
  rw [bitsParity, h, parity_map_xor]
  rfl

theorem wordParity_eq (w : StoreWord) : wordParity w = (bitsParity w.data ^^ bitsParity w.check) := parity_append _ _

/-! ## The check bits are linear in the data -/

theorem hammingBit_xor (a b : Word) (i : Nat) : hammingBit (a ^^^ b) i = (hammingBit a i ^^ hammingBit b i) := by
  have h : ∀ d : Word, hammingBit d i
      = parity ((dataPositions.zipIdx.filter fun x => x.1.testBit i).map fun x => d.getLsbD x.2) := fun d => by
    rw [hammingBit, placedData, List.filter_map, List.map_map]
    rfl
  rw [h, h, h, ← parity_map_xor]
  simp only [BitVec.getLsbD_xor]

/-- c_k of R186: the check bits 0 to 5, and the overall parity 6. -/
def checkBit (data : Word) (k : Nat) : Bool :=
  if k < 6 then hammingBit data k else bitsParity data ^^ parity ((List.range 6).map (hammingBit data))

theorem checkBit_xor (a b : Word) (k : Nat) : checkBit (a ^^^ b) k = (checkBit a k ^^ checkBit b k) := by
  unfold checkBit
  split
  · exact hammingBit_xor a b k
  · rw [bitsParity_xor, show hammingBit (a ^^^ b) = fun i => (hammingBit a i ^^ hammingBit b i) from funext (hammingBit_xor a b),
      parity_map_xor]
    simp only [Bool.xor_assoc, Bool.xor_left_comm]

theorem testBit_numberOfBits (l : List Bool) (k : Nat) : (numberOfBits l).testBit k = (l[k]?).getD false := by
  induction l generalizing k with
  | nil => simp [numberOfBits]
  | cons b l ih =>
    cases k with
    | zero => cases b <;> simp [numberOfBits, Nat.testBit_zero]
    | succ k =>
      have half : (b.toNat + 2 * numberOfBits l) / 2 = numberOfBits l := by have := Bool.toNat_lt b; omega
      rw [numberOfBits, Nat.testBit_succ, half, ih, List.getElem?_cons_succ]

theorem checkBits_eq (data : Word) : checkBits data = BitVec.ofNat 7 (numberOfBits ((List.range 7).map (checkBit data))) := by
  rw [checkBits, parity_append]
  rfl

theorem checkBits_getLsbD (data : Word) {k : Nat} (hk : k < 7) : (checkBits data).getLsbD k = checkBit data k := by
  rw [checkBits_eq, BitVec.getLsbD_ofNat, testBit_numberOfBits]
  simp [hk]

theorem checkBits_xor (a b : Word) : checkBits (a ^^^ b) = checkBits a ^^^ checkBits b :=
  BitVec.eq_of_getLsbD_eq fun k hk => by
    rw [BitVec.getLsbD_xor, checkBits_getLsbD _ hk, checkBits_getLsbD _ hk, checkBits_getLsbD _ hk, checkBit_xor]

/-! ## The positions of the 39 bits (R186) -/

/-- The positions of the data bits, of the check bits 0 to 5, and 0 for the overall parity, which no syndrome bit covers. -/
def bitPositions : List Nat := dataPositions ++ [1, 2, 4, 8, 16, 32, 0]

/-- The position of one of the 39 bits. -/
def bitPosition (p : Fin 39) : Nat := bitPositions[p.val]'p.isLt

theorem bitPosition_le (p : Fin 39) : bitPosition p ≤ 38 :=
  (show ∀ x ∈ bitPositions, x ≤ 38 by decide) _ (List.getElem_mem _)

theorem bitPosition_inj {p q : Fin 39} (h : bitPosition p = bitPosition q) : p = q :=
  Fin.ext ((List.Nodup.getElem_inj_iff (show bitPositions.Nodup by decide)).1 h)

/-- The check bits 0 to 5 of a single data bit spell its position. -/
theorem checkBits_dataBit : ∀ p : Fin 39, p.val < 32 → (checkBits (1#32 <<< p.val)).setWidth 6 = BitVec.ofNat 6 (bitPosition p) := by
  decide +kernel

/-- A single check bit spells its position. -/
theorem checkBit_position : ∀ p : Fin 39, ¬ p.val < 32 → (1#7 <<< (p.val - 32)).setWidth 6 = BitVec.ofNat 6 (bitPosition p) := by
  decide

theorem bitsParity_dataBit : ∀ p : Fin 39, p.val < 32 → bitsParity (1#32 <<< p.val) = true := by decide +kernel

theorem bitsParity_checkBit : ∀ p : Fin 39, ¬ p.val < 32 → bitsParity (1#7 <<< (p.val - 32)) = true := by decide

theorem position_dataBit : ∀ p : Fin 39, p.val < 32 → dataPositions.findIdx? (fun x => x == bitPosition p) = some p.val := by decide

theorem position_checkBit : ∀ p : Fin 39, ¬ p.val < 32 → dataPositions.findIdx? (fun x => x == bitPosition p) = none := by decide

/-! ## What an inverted bit does to parity and syndrome -/

/-- The syndrome as bits. -/
def syndromeBits (w : StoreWord) : BitVec 6 := (w.check ^^^ checkBits w.data).setWidth 6

theorem syndrome_eq (w : StoreWord) : syndrome w = (syndromeBits w).toNat := rfl

theorem syndromeBits_flip (w : StoreWord) (p : Fin 39) :
    syndromeBits (w.flip p) = syndromeBits w ^^^ BitVec.ofNat 6 (bitPosition p) := by
  unfold StoreWord.flip syndromeBits
  split
  · next hp => rw [checkBits_xor, ← BitVec.xor_assoc, BitVec.setWidth_xor, checkBits_dataBit p hp]
  · next hp => rw [BitVec.xor_assoc, BitVec.xor_comm (1#7 <<< _), ← BitVec.xor_assoc, BitVec.setWidth_xor, checkBit_position p hp]

theorem wordParity_flip (w : StoreWord) (p : Fin 39) : wordParity (w.flip p) = !wordParity w := by
  rw [wordParity_eq, wordParity_eq]
  unfold StoreWord.flip
  split
  · next hp => rw [bitsParity_xor, bitsParity_dataBit p hp, Bool.xor_true, Bool.not_xor]
  · next hp => rw [bitsParity_xor, bitsParity_checkBit p hp, Bool.xor_true, Bool.xor_not]

/-- The position of the inverted bit leads back to the data. -/
theorem flipPosition_flip (w : StoreWord) (p : Fin 39) : flipPosition (w.flip p).data (bitPosition p) = w.data := by
  unfold flipPosition StoreWord.flip
  split <;> split
  · next j hj hp =>
    cases (position_dataBit p hp).symm.trans hj
    rw [BitVec.xor_assoc, BitVec.xor_self, BitVec.xor_zero]
  · next j hj hp => cases (position_checkBit p hp).symm.trans hj
  · next hj hp => cases (position_dataBit p hp).symm.trans hj
  · rfl

theorem syndromeBits_fresh (data : Word) : syndromeBits (freshWord data) = 0#6 := by
  rw [syndromeBits, freshWord, BitVec.xor_self]
  rfl

/-- The overall parity bit makes a fresh word even. -/
theorem wordParity_fresh (data : Word) : wordParity (freshWord data) = false := by
  have hcheck : (List.range 7).map (checkBits data).getLsbD = (List.range 7).map (checkBit data) :=
    List.map_congr_left fun k hk => checkBits_getLsbD data (List.mem_range.1 hk)
  have hlast : bitsParity (checkBits data) = bitsParity data := by
    rw [bitsParity, hcheck, List.range_succ, List.map_append, parity_append]
    have hfirst : (List.range 6).map (checkBit data) = (List.range 6).map (hammingBit data) :=
      List.map_congr_left fun k hk => if_pos (List.mem_range.1 hk)
    have hparity : parity [checkBit data 6] = (bitsParity data ^^ parity ((List.range 6).map (hammingBit data))) := Bool.false_bne _
    rw [hfirst, List.map_singleton, hparity, Bool.xor_left_comm, Bool.xor_self, Bool.xor_false]
  rw [wordParity_eq, freshWord, hlast, Bool.xor_self]

/-! ## Reading a word -/

/-- What parity and syndrome say of a word (R186). -/
def verdict (data : Word) : Bool → Nat → LoadOutcome × Word
  | false, 0 => (.clean, data)
  | false, _ + 1 => (.uncorrectable, data)
  | true, n => if n ≤ 38 then (.corrected, flipPosition data n) else (.uncorrectable, data)

theorem readWord_eq (w : StoreWord) : readWord w = verdict w.data (wordParity w) (syndrome w) := by
  delta readWord
  generalize wordParity w = p, syndrome w = n
  cases p <;> cases n <;> rfl

theorem readWord_clean {w : StoreWord} (hp : wordParity w = false) (hs : syndrome w = 0) : readWord w = (.clean, w.data) := by
  rw [readWord_eq, hp, hs, verdict]

/-- An odd word is corrected at the position its syndrome names; position 0 is the overall parity bit. -/
theorem readWord_odd {w : StoreWord} (hp : wordParity w = true) (hs : syndrome w ≤ 38) :
    readWord w = (.corrected, flipPosition w.data (syndrome w)) := by
  rw [readWord_eq, hp, verdict, if_pos hs]

theorem readWord_even {w : StoreWord} (hp : wordParity w = false) (hs : syndrome w ≠ 0) : (readWord w).1 = .uncorrectable := by
  obtain ⟨n, hn⟩ := Nat.exists_eq_succ_of_ne_zero hs
  rw [readWord_eq, hp, hn, verdict]

/-- Settles O9: one inverted bit makes the word odd with its own position as the syndrome, two make it even with the difference of two
positions. -/
theorem storeCodeCorrectsOneDetectsTwo : Obligations.StoreCodeCorrectsOneDetectsTwo := by
  refine fun data => ⟨readWord_clean (wordParity_fresh data) (by rw [syndrome_eq, syndromeBits_fresh]; rfl), fun p => ?_,
    fun p q hpq => ?_⟩
  · have hs : syndrome ((freshWord data).flip p) = bitPosition p := by
      rw [syndrome_eq, syndromeBits_flip, syndromeBits_fresh, BitVec.zero_xor]
      exact (BitVec.toNat_ofNat _ _).trans (Nat.mod_eq_of_lt (Nat.lt_of_le_of_lt (bitPosition_le p) (by decide)))
    rw [readWord_odd (by rw [wordParity_flip, wordParity_fresh]; rfl) (hs ▸ bitPosition_le p), hs, flipPosition_flip]
    rfl
  · refine readWord_even (by rw [wordParity_flip, wordParity_flip, wordParity_fresh]; rfl) fun hz => hpq (bitPosition_inj ?_)
    rw [syndrome_eq, syndromeBits_flip, syndromeBits_flip, syndromeBits_fresh, BitVec.zero_xor] at hz
    have hcolumns := congrArg BitVec.toNat (BitVec.xor_eq_zero_iff.1 (BitVec.eq_of_toNat_eq hz))
    have hp := bitPosition_le p
    have hq := bitPosition_le q
    simpa [Nat.mod_eq_of_lt, show bitPosition p < 64 by omega, show bitPosition q < 64 by omega] using hcolumns

end Sys2Proof.Machine
end

section
/-! # Store words: read by the load, written through the port, read back (R177, R180, R181) -/

namespace Sys2Proof.Machine

/-! ## The data of WRITE STORE WORD (R185, R188) -/

theorem toNat_append_byte {n : Nat} (x : BitVec n) (b : Byte) : (x ++ b).toNat = 256 * x.toNat + b.toNat := by
  rw [BitVec.toNat_append, ← Nat.shiftLeft_add_eq_or_of_lt b.isLt, Nat.shiftLeft_eq, Nat.mul_comm]

theorem field_four (a b c d : Byte) (bs : List Byte) :
    field (a :: b :: c :: d :: bs) 0 4 = 16777216 * a.toNat + 65536 * b.toNat + 256 * c.toNat + d.toNat := by
  simp only [field, slice, ofBytes, List.drop_zero, List.take_succ_cons, List.take_zero, List.foldl_cons, List.foldl_nil]
  omega

theorem decodeStoreData_bytes (n a b c d : Byte) :
    decodeStoreData [n, a, b, c, d] = (a ++ b ++ c ++ d : BitVec (8 + 8 + 8 + 8)) := by
  have hfield : field [n, a, b, c, d] 1 4 = (a ++ b ++ c ++ d : BitVec (8 + 8 + 8 + 8)).toNat := by
    rw [field_cons n _ 0 4, field_four, toNat_append_byte, toNat_append_byte, toNat_append_byte]
    omega
  rw [decodeStoreData, hfield]
  exact BitVec.ofNat_toNat _ _

/-! ## The load reads the next word (R177) -/

theorem loadWord_reads {s : State} {w : StoreWord} (hl : s.loadRuns = true) (hw : s.psr.store[s.psr.loadIndex]? = some w) :
    loadWord s = { s with psr := { s.psr with
      outcomes := s.psr.outcomes.set s.psr.loadIndex (readWord w).1, loadIndex := s.psr.loadIndex + 1 } } := by
  rw [loadWord, if_pos hl, Psr.readNext, hw]
  rfl

theorem endStoreWrite_writes {s : State} {w : StoreWrite} (hw : s.psr.busy = some w) : endStoreWrite s = { s with psr := { s.psr with
    store := s.psr.store.set w.word (freshWord w.data), busy := none } } := by
  rw [endStoreWrite, hw]
  rfl

/-! ## WRITE STORE WORD (R180) -/

theorem payloadByte_head (b : Byte) (bs : List Byte) : payloadByte (b :: bs) 0 = b.toNat := field_one b bs

section
variable {s : State} {n : Byte} (a b c d : Byte)

/-- Words 0 and 1, and words past the store, are not written. -/
theorem writeStoreWord_badField (hn : 70 ≤ n.toNat ∨ n.toNat < 2) :
    writeStoreWord [n, a, b, c, d] s = refuse cmdWriteStoreWord .badField s := by
  rw [writeStoreWord, payloadByte_head]
  exact if_pos hn

variable (hlo : 2 ≤ n.toNat) (hhi : n.toNat < 70)
include hlo hhi

theorem writeStoreWord_badState (hs : s.dir.station ≠ .standby) (hf : s.dir.station ≠ .faulted) :
    writeStoreWord [n, a, b, c, d] s = refuse cmdWriteStoreWord .badState s := by
  have hn : ¬ (70 ≤ n.toNat ∨ n.toNat < 2) := by omega
  rw [writeStoreWord, payloadByte_head]
  exact (if_neg hn).trans (if_pos ⟨hs, hf⟩)

/-- In STANDBY and FAULTED the write is taken, unless one is in progress. -/
theorem writeStoreWord_judged (hs : s.dir.station = .standby ∨ s.dir.station = .faulted) : writeStoreWord [n, a, b, c, d] s =
    if s.psr.busy.isSome then refuse cmdWriteStoreWord .storeBusy s
    else respondOk cmdWriteStoreWord [] { s with psr := { s.psr with
      busy := some { word := n.toNat, data := (a ++ b ++ c ++ d : BitVec (8 + 8 + 8 + 8)), left := 10 } } } := by
  have hn : ¬ (70 ≤ n.toNat ∨ n.toNat < 2) := by omega
  rw [writeStoreWord, payloadByte_head, decodeStoreData_bytes]
  exact (if_neg hn).trans (if_neg fun ⟨hns, hnf⟩ => hs.elim hns hnf)

end

theorem exec_writeStoreWord {s : State} (h : s.listens) (n a b c d : Byte) :
    exec (.writeStoreWord [5, n, a, b, c, d]) s = .next (writeStoreWord [n, a, b, c, d] (clockZeros 7 s)) :=
  congrArg Host.Outcome.next (takeCommand_taken cmdWriteStoreWord (hasLength 5) 5 [n, a, b, c, d] writeStoreWord s h rfl rfl)

/-! ## READ STORE WORD (R181) -/

theorem exec_readStoreWord {s : State} (h : s.listens) (n : Byte) :
    exec (.readStoreWord [1, n]) s = .next (readStoreWord [n] (clockZeros 3 s)) :=
  congrArg Host.Outcome.next (takeCommand_slot cmdReadStoreWord readStoreWord n h)

theorem readStoreWord_absent {s : State} {n : Byte} (hw : s.psr.store[n.toNat]? = none) :
    readStoreWord [n] s = refuse cmdReadStoreWord .badField s := by
  simp only [readStoreWord, payloadByte_single, hw]

theorem readStoreWord_held {s : State} {n : Byte} {w : StoreWord} {o : LoadOutcome} (hw : s.psr.store[n.toNat]? = some w)
    (ho : s.psr.outcomes[n.toNat]? = some o) : readStoreWord [n] s =
      if s.dir.station = .loading then refuse cmdReadStoreWord .badState s
      else if s.psr.busy.isSome then refuse cmdReadStoreWord .storeBusy s
      else respondOk cmdReadStoreWord
        (toBytes 4 (readWord w).2.toNat ++ [w.check.setWidth 8, byte (readWord w).1.code, byte o.code]) s := by
  have hcheck : byte w.check.toNat = w.check.setWidth 8 := (BitVec.ofNat_toNat 8 w.check)
  simp only [readStoreWord, payloadByte_single, hw, ho, Option.getD_some, storeWordPayload, hcheck]

/-- Settles O8: the load's reads, the checks of a write in their order, its expiry, and the checks of a read. -/
theorem storeWordsAreWrittenAndRead : Obligations.StoreWordsAreWrittenAndRead := by
  refine ⟨fun s w ⟨hr, hst, htimer⟩ hw => ?_, fun s n a b c d h => ⟨fun hn => ?_, fun hlo hhi hs hf => ?_, fun hlo hhi hs => ?_⟩,
    fun s w hr hw => ?_, fun s n w o h hw ho => ?_, fun s n h hw => ?_⟩
  · have hl : s.loadRuns = true := by simp [State.loadRuns, hst, htimer]
    exact congrArg Host.Outcome.next ((live_of_running loadWord s hr).trans (loadWord_reads hl hw))
  · rw [exec_writeStoreWord h, writeStoreWord_badField a b c d hn]
    rfl
  · rw [exec_writeStoreWord h, writeStoreWord_badState (s := clockZeros 7 s) a b c d hlo hhi hs hf]
    rfl
  · rw [exec_writeStoreWord h, writeStoreWord_judged (s := clockZeros 7 s) a b c d hlo hhi hs]
    rfl
  · exact congrArg Host.Outcome.next ((live_of_running endStoreWrite s hr).trans (endStoreWrite_writes hw))
  · rw [exec_readStoreWord h, readStoreWord_held (s := clockZeros 3 s) hw ho]
    rfl
  · rw [exec_readStoreWord h, readStoreWord_absent (s := clockZeros 3 s) hw]
    rfl

end Sys2Proof.Machine
end
